-- ==== Sys2Proof/Word.lean ====
section
/-! DEFINITION. The word types of the Ezfer model and the field arithmetic of register values (00_scope.md, register conventions). -/

namespace Sys2Proof

/-- One byte of a memory. -/
abbrev Byte := BitVec 8

/-- A status code, an operation tag, a check tag (R8, R242, R329). -/
abbrev W16 := BitVec 16

/-- A 32-bit word: an FP32 pattern, a semaphore counter. -/
abbrev W32 := BitVec 32

/-- A register, an address, a scalar register (R9, R19, R232). -/
abbrev W64 := BitVec 64

/-- The 64 data bytes of one memory unit, byte i in bits 8i+7 to 8i (R329). -/
abbrev UnitData := BitVec 512

/-- The field of `v` that is `len` bits long and starts at bit `lo`. -/
def fld (v : W64) (lo len : Nat) : Nat := (v.toNat >>> lo) % 2 ^ len

/-- `v` with its field of `len` bits at bit `lo` replaced by `x` modulo 2^len. -/
def putFld (v : W64) (lo len : Nat) (x : Nat) : W64 :=
  let m : W64 := BitVec.ofNat 64 ((2 ^ len - 1) * 2 ^ lo)
  (v &&& ~~~m) ||| BitVec.ofNat 64 ((x % 2 ^ len) * 2 ^ lo)

/-- Bit `n` of `v`. -/
def bitAt (v : W64) (n : Nat) : Bool := v.getLsbD n

/-- `v` with bit `n` set to `b`. -/
def putBit (v : W64) (n : Nat) (b : Bool) : W64 := putFld v n 1 (if b then 1 else 0)

/-- A mask of `len` ones that starts at bit `lo`. -/
def maskOf (lo len : Nat) : W64 := BitVec.ofNat 64 ((2 ^ len - 1) * 2 ^ lo)

/-- `a` rounded up to a multiple of `m`. -/
def alignUp (a m : Nat) : Nat := (a + m - 1) / m * m

end Sys2Proof
end

