-- ==== Sys2Proof/Syntax.lean ====
section
/-! DEFINITION. The commands of the block: one constructor of Instr per row of spec/opcode_table.json, with the row's operands. -/

namespace Sys2Proof

/-- The six queues of a core (R225). -/
inductive Queue where
  | mqf | mqb | vec | ldm | stm | upq
deriving DecidableEq, Repr

/-- The opcodes of the opcode map (R247). COPY has one opcode in each mover queue. -/
inductive Op where
  | nop | end_ | loop | seed | smov | smovh | sadd | ssub | smul | sand | sor | sxor | sshl | sshr
  | sld | sst | dadd | semset | xarr | mbsend | mbrecv
  | mma | mdrn | vop | vxadd | ldq | ldmCopy | stq | stmCopy | atom | upd | commit | kstep | snap
deriving DecidableEq, Repr

/-- The frame of an instruction less its opcode (R242). -/
structure InstrWord where
  qclass : BitVec 4 := 0
  f3 : Bool := false
  f2 : Bool := false
  f1 : Bool := false
  f0 : Bool := false
  optag : BitVec 16 := 0
  wcond : BitVec 4 := 0
  wsem : BitVec 12 := 0
  sinc : BitVec 4 := 0
  ssem : BitVec 12 := 0
  ops : BitVec 64 := 0
deriving DecidableEq, Repr

/-- What an error code finds when a word or unit is read (R328, R340, R342). A physical finding, so an operand of the event. -/
inductive Ecc where
  | clean | corrected | uncorrectable
deriving DecidableEq, Repr

/-- What the residue checker of a matrix engine finds on a drained tile (R122): the rows and the columns whose sums
disagree, and the cells whose residue shadow disagrees. All empty: no mismatch. -/
structure ResidueFinding where
  rows : List Nat := []
  cols : List Nat := []
  shadow : List (Nat × Nat) := []
deriving DecidableEq, Repr

/-- One vector of a VOP whose two executions differ (R222): its index, the lowest stage and the first lane that differ. -/
structure ShadowDiff where
  vector : Nat
  stage : Nat
  lane : Nat
deriving DecidableEq, Repr

/-- Who sent a signal: a queue of a core, or a cluster controller's doorbell (R298, R312). -/
inductive SigSrc where
  | queue (c : Fin 96) (q : Queue)
  | controller (g : Fin 16)
deriving DecidableEq, Repr

/-- One data unit of a Soxis packet with its carried check tag (R355). -/
structure SoxUnit where
  data : UnitData
  tag : W16
deriving DecidableEq, Repr

/-- A Soxis packet as it arrives at a quay (R353, R355). `ce`: the ECN mark CE of its frame (R364); `pcp`: the priority of its VLAN tag, none
when it is untagged (R348); `fec`: the codewords of its frame that the FEC has corrected (R346, R374). -/
structure Packet where
  qp : Nat
  psn : BitVec 24
  pkey : BitVec 16
  ce : Bool := false
  ver : BitVec 8 := 1
  op : BitVec 8 := 0
  flags : BitVec 16 := 0
  epoch : BitVec 32 := 0
  sdev : BitVec 16 := 0
  tdev : BitVec 16 := 0
  nunits : BitVec 8 := 0
  status : BitVec 8 := 0
  addr : W64 := 0
  opa : W64 := 0
  opb : W64 := 0
  units : List SoxUnit := []
  pcp : Option (BitVec 3) := none
  fec : Nat := 0
deriving DecidableEq, Repr

/-- An address and UDP port on the management port: an IPv4 address lies in the low 32 bits, with zeros above (R437, R441, R452). -/
structure MgmtPeer where
  addr : BitVec 128
  port : BitVec 16
deriving DecidableEq, Repr

/-- A management datagram (R437, R438), less the command and payload, which the command names: its sender and destination, its header and
its trailer. -/
structure Datagram where
  src : MgmtPeer
  dst : MgmtPeer
  magic : BitVec 32 := 0x4D474D31
  ver : BitVec 8 := 1
  seq : W64
  mac : BitVec 128
deriving DecidableEq, Repr

/-- A replay of a die-link flit (R325): its stack, which flit of the link, and whether the replayed flit passes its CRC. -/
structure FlitTry where
  stack : Fin 12
  flit : Nat
  ok : Bool
deriving DecidableEq, Repr

/-- What a read of a gallery or chamber unit finds, and whether it is the patrol's or an access's (R340). -/
structure SramFinding where
  ecc : Ecc
  patrol : Bool
deriving DecidableEq, Repr

/-- The currents of VDD_CORE0 and VDD_CORE1, as their regulators report them (R457). -/
structure RailAmps where
  core0 : Nat
  core1 : Nat
deriving DecidableEq, Repr

/-- A difference found by an echo unit (R337): pseudo-channel, kind code, bits 29-6 of y. -/
structure EchoDiff where
  psel : Bool
  kind : BitVec 2
  unit : BitVec 24
deriving DecidableEq, Repr

/-- The commands of the block. In the operands, `ctx` is the context that makes a control-space access, `c`, `g`, `st`, `qy`
and `d` are global numbers of a core, cluster, stack, quay and die, and `vc`, `vg` are the core and cluster numbers that the
accessing context names (virtual in contexts 1 to 15, R34). -/
inductive Instr where
  -- instructions of the queues (R250 to R270)
  | nop (c : Fin 96) (q : Queue) (w : InstrWord)
  | end_ (c : Fin 96) (q : Queue) (w : InstrWord)
  | loop (c : Fin 96) (q : Queue) (w : InstrWord)
  | seed (c : Fin 96) (q : Queue) (w : InstrWord)
  | smov (c : Fin 96) (q : Queue) (w : InstrWord)
  | smovh (c : Fin 96) (q : Queue) (w : InstrWord)
  | sadd (c : Fin 96) (q : Queue) (w : InstrWord)
  | ssub (c : Fin 96) (q : Queue) (w : InstrWord)
  | smul (c : Fin 96) (q : Queue) (w : InstrWord)
  | sand (c : Fin 96) (q : Queue) (w : InstrWord)
  | sor (c : Fin 96) (q : Queue) (w : InstrWord)
  | sxor (c : Fin 96) (q : Queue) (w : InstrWord)
  | sshl (c : Fin 96) (q : Queue) (w : InstrWord)
  | sshr (c : Fin 96) (q : Queue) (w : InstrWord)
  | sld (c : Fin 96) (q : Queue) (w : InstrWord)
  | sst (c : Fin 96) (q : Queue) (w : InstrWord)
  | dadd (c : Fin 96) (q : Queue) (w : InstrWord)
  | semset (c : Fin 96) (q : Queue) (w : InstrWord)
  | xarr (c : Fin 96) (q : Queue) (w : InstrWord)
  | mbsend (c : Fin 96) (q : Queue) (w : InstrWord)
  | mbDelivery (c : Fin 96) (q : Queue)
  | mbTimeout (c : Fin 96) (q : Queue)
  | mbrecv (c : Fin 96) (q : Queue) (w : InstrWord)
  | mma (c : Fin 96) (q : Queue) (w : InstrWord)
  | mmaComplete (c : Fin 96) (q : Queue)
  | mdrn (c : Fin 96) (q : Queue) (w : InstrWord) (f : ResidueFinding)
  | mdrnComplete (c : Fin 96) (q : Queue)
  | vop (c : Fin 96) (q : Queue) (w : InstrWord) (f : List ShadowDiff)
  | vxadd (c : Fin 96) (q : Queue) (w : InstrWord)
  | ldq (c : Fin 96) (q : Queue) (w : InstrWord)
  | ldmCopy (c : Fin 96) (q : Queue) (w : InstrWord)
  | stmCopy (c : Fin 96) (q : Queue) (w : InstrWord)
  | stq (c : Fin 96) (q : Queue) (w : InstrWord)
  | atom (c : Fin 96) (q : Queue) (w : InstrWord)
  | upd (c : Fin 96) (q : Queue) (w : InstrWord)
  | updComplete (c : Fin 96) (n : Nat)
  | commit (c : Fin 96) (q : Queue) (w : InstrWord)
  | commitFlip (ctx : Fin 16) (failAt : Option Nat)
  | kstep (c : Fin 96) (q : Queue) (w : InstrWord)
  | snap (c : Fin 96) (q : Queue) (w : InstrWord)
  -- steps of the queues and semaphores
  | instructionComplete (c : Fin 96) (q : Queue)
  | instructionFetch (c : Fin 96) (q : Queue) (e : Ecc)
  | signal (src : SigSrc)
  -- the kerb monitor
  | kerbCloseMerge (ctx : Fin 16)
  | kerbRecordArrival (ctx : Fin 16) (slot : Fin 17)
  | kerbDecide (ctx : Fin 16)
  | kerbReduceTimeout (ctx : Fin 16)
  -- starting and stopping queues, image load, control-space writes with behaviour of their own
  | queueStart (ctx : Fin 16) (vc : Fin 96) (mask : BitVec 6)
  | wakeEnd (g : Fin 16)
  | queueStop (ctx : Fin 16) (vc : Fin 96) (mask : BitVec 6)
  | clusterStart (ctx : Fin 16) (vg : Fin 16) (mask : BitVec 6)
  | clusterStop (ctx : Fin 16) (vg : Fin 16) (mask : BitVec 6)
  | imageLoad (ctx : Fin 16) (vg : Fin 16)
  | imageLoadEnd (g : Fin 16)
  | pcWrite (ctx : Fin 16) (vc : Fin 96) (q : Queue) (v : W64)
  | scalarRegisterWrite (ctx : Fin 16) (vc : Fin 96) (q : Queue) (i : Fin 16) (v : W64)
  | coreSeedWrite (ctx : Fin 16) (vc : Fin 96) (i : Fin 5) (v : W64)
  | dtbaseWrite (ctx : Fin 16) (vc : Fin 96) (v : W64)
  | pickWrite (ctx : Fin 16) (vc : Fin 96) (v : W64)
  | windowWrite (ctx : Fin 16) (addr : W64) (bytes : List Byte)
  | kerbStatusStepWrite (ctx : Fin 16) (bank : Fin 16) (v : W64)
  | pipeSnapArm (ctx : Fin 16) (bank : Fin 16) (n : Fin 4) (v : W64)
  | pipeSnapDone (ctx : Fin 16) (bank : Fin 16) (n : Fin 4) (v : W64)
  | semValueWrite (ctx : Fin 16) (addr : W64) (v : W64)
  | xrdMaskWrite (ctx : Fin 16) (line : Fin 32) (hi : Bool) (v : W64)
  | xrdForce (ctx : Fin 16) (line : Fin 32)
  | mbCfgWrite (ctx : Fin 16) (vg : Fin 16) (ch : Fin 64) (v : W64)
  | dbmaskWrite (ctx : Fin 16) (vg : Fin 16) (v : W64)
  | offlineWrite (ctx : Fin 16) (st : Fin 12) (v : W64)
  | echoGo (ctx : Fin 16) (st : Fin 12) (ch : Fin 32) (v : W64)
  | echoRunEnd (st : Fin 12) (ch : Fin 32) (diffs : List EchoDiff)
  | quayModeWrite (ctx : Fin 16) (qy : Fin 8) (v : W64)
  | quayEnWrite (ctx : Fin 16) (qy : Fin 8) (v : W64)
  | quayLinkUp (qy : Fin 8)
  | quayLinkDown (qy : Fin 8)
  | qpReady (ctx : Fin 16) (qp : BitVec 14)
  | qpReset (ctx : Fin 16) (qp : BitVec 14)
  | qpError (ctx : Fin 16) (qp : BitVec 14)
  -- contexts, binding, configuration
  | rebind (ctx : Fin 16) (mask : BitVec 16)
  | rebindDrainTimeout
  | rebindDrainEnd
  | rebindScrubEnd (failed : List Nat)
  | compute (ctx : Fin 16)
  | computeEnd
  | advance (ctx : Fin 16)
  | computeThenAdvance (ctx : Fin 16)
  | epochWrite (ctx : Fin 16) (v : W64)
  -- errors, self-test, disabling
  | discardKstat (ctx : Fin 16) (bank : Fin 16)
  | kresend (ctx : Fin 16) (bank : Fin 16)
  | errDisableGo (ctx : Fin 16) (d : Fin 2) (src : W16)
  | errDisableEnable (ctx : Fin 16) (d : Fin 2) (src : W16)
  | unitDisableMark (src : W16)
  -- clocks, power, reset
  | pkgRstWarm (ctx : Fin 16) (v : W64)
  | wdogKick (ctx : Fin 16) (v : W64)
  | wdogExpiry
  | clockSwitch (ctx : Fin 16) (d : Fin 2) (v : W64)
  | clockUngate (d : Fin 2)
  | gateRequest (ctx : Fin 16) (d : Fin 2) (v : W64)
  | gateEnter (g : Fin 16)
  | svnRaise (ctx : Fin 16) (v : W64)
  | registerWrite (ctx : Fin 16) (addr : W64) (width : Nat) (v : W64)
  -- the management protocol
  | regRead (dg : Datagram) (addr : W64)
  | regWrite (dg : Datagram) (addr : W64) (v : W64)
  | reset (dg : Datagram)
  | rptFetch (dg : Datagram) (first : BitVec 32) (count : BitVec 16)
  | rptAck (dg : Datagram) (seq : BitVec 32)
  | stageChunk (dg : Datagram) (offset : BitVec 32) (bytes : List Byte)
  | recovBoot (dg : Datagram)
  | flashCommit (dg : Datagram)
  | mgmtCmdReserved (dg : Datagram) (cmd : BitVec 8) (payload : List Byte)
  | setMgmtKey (inSession : Bool) (key : BitVec 256)
  | getMeasurements (index : BitVec 8)
  | pldmSensorRead (id : BitVec 16)
  | signatureRequest (digest : BitVec 256)
  | journalEntryProgrammed
  | bottomTreeBuilt
  | flashWriteEnd (ok : Bool)
  -- resets, pins, supplies, clocks
  | resetRelease
  | powerOnReset
  | supplyReset
  | pinReset
  | referenceLost
  | referenceStarted
  | refcountRestart
  | pllLock (d : Fin 2)
  | pllUnlock (d : Fin 2)
  | bootImageVerify
  | firmwareInitEnd
  | bootScrubEnd (failed : List Nat)
  | droopWarning (d : Fin 2) (mv : Nat)
  | droopHoldExpiry (d : Fin 2) (lowest : Nat)
  | droopPersistExpiry (d : Fin 2)
  | dipThrottleEnd (d : Fin 2)
  | thermalReading (d : Fin 2) (tj : BitVec 8)
  | dramTempReading (st : Fin 12) (t : BitVec 8)
  | throtNAssert
  | throtNRelease
  | avsStep (d : Fin 2) (ok : Bool)
  -- memories
  | stackRead (pa : Nat) (e : Ecc) (asRead : UnitData)
  | correctedWriteback (pa : Nat)
  | maskedWrite (pa : Nat) (lo : W64) (hi : W64) (data : UnitData)
  | patrolScrub (pa : Nat) (e : Ecc) (asRead : UnitData)
  | sramPatrol (addr : Nat) (f : SramFinding) (asRead : UnitData)
  | refresh (st : Fin 12)
  | flitReplay (r : FlitTry)
  | dieLinkRetrainEnd (st : Fin 12) (ok : Bool)
  | dramParityFail (st : Fin 12) (ch : Fin 32)
  | channelRetrainEnd (st : Fin 12) (ch : Fin 32) (ok : Bool)
  | selfTestStart (d : Fin 2)
  | selfTestEnd (d : Fin 2) (passed : Bool)
  | rowRepairEnd (st : Fin 12)
  -- the fabric
  | read (qy : Fin 8) (p : Packet)
  | write (qy : Fin 8) (p : Packet)
  | writeMasked (qy : Fin 8) (p : Packet)
  | fadd (qy : Fin 8) (p : Packet)
  | cas (qy : Fin 8) (p : Packet)
  | ctrlWrite (qy : Fin 8) (p : Packet)
  | readResp (qy : Fin 8) (p : Packet)
  | ack (qy : Fin 8) (p : Packet)
  | atomicResp (qy : Fin 8) (p : Packet)
  | rnr (qy : Fin 8) (p : Packet)
  | rnrDelayExpiry (qp : BitVec 14)
  | nakSeq (qy : Fin 8) (p : Packet)
  | refuse (qy : Fin 8) (p : Packet)
  | epochRetry (qp : BitVec 14)
  | retransmitTimeout (qp : BitVec 14)
  | congestionNotification (qy : Fin 8) (qp : Nat)
  | ccTick (qp : BitVec 14)
  | pauseFrame (qy : Fin 8) (cls : Fin 4) (xoff : Bool)
  | pfcWatchdogExpiry (qy : Fin 8) (cls : Fin 4)
  | pfcStormEnd (qy : Fin 8) (cls : Fin 4)
  | managementFrame (qy : Fin 8) (overRate : Bool)
  | droppedFrame (qy : Fin 8) (reason : Fin 8)
  -- reads of the control space and the rest
  | registerRead (ctx : Fin 16) (addr : W64) (width : Nat)
  | updStepCstepWrite (ctx : Fin 16) (bank : Fin 16) (v : W64)
  | vddCoreRecovery (d : Fin 2) (mv : Nat)
  | pldmSensorUpdate (amps : RailAmps)
  | keyExchange
deriving DecidableEq, Repr

end Sys2Proof
end

