-- ==== Sys2Proof/Decode.lean ====
section
/-! DEFINITION. The instruction word of the queues (R242, R243, R247): its fields, its opcodes and an encoder. The commands of
the block have no encoding: spec/opcode_table.json gives no bits, so decodeTableWord answers none. -/

namespace Sys2Proof

/-- Opcodes of the opcode map (R247). -/
def opCode : Op → BitVec 8
  | .nop => 0x00 | .end_ => 0x01 | .loop => 0x02 | .seed => 0x03 | .smov => 0x04 | .smovh => 0x05 | .sadd => 0x06
  | .ssub => 0x07 | .smul => 0x08 | .sand => 0x09 | .sor => 0x0A | .sxor => 0x0B | .sshl => 0x0C | .sshr => 0x0D
  | .sld => 0x10 | .sst => 0x11 | .dadd => 0x12 | .semset => 0x18 | .xarr => 0x19 | .mbsend => 0x1A | .mbrecv => 0x1B
  | .mma => 0x20 | .mdrn => 0x21 | .vop => 0x30 | .vxadd => 0x31 | .ldq => 0x40 | .ldmCopy => 0x41 | .stq => 0x50
  | .stmCopy => 0x51 | .atom => 0x52 | .upd => 0x60 | .commit => 0x61 | .kstep => 0x62 | .snap => 0x63

/-- All opcodes of the map. -/
def allOps : List Op :=
  [.nop, .end_, .loop, .seed, .smov, .smovh, .sadd, .ssub, .smul, .sand, .sor, .sxor, .sshl, .sshr, .sld, .sst, .dadd,
   .semset, .xarr, .mbsend, .mbrecv, .mma, .mdrn, .vop, .vxadd, .ldq, .ldmCopy, .stq, .stmCopy, .atom, .upd, .commit,
   .kstep, .snap]

/-- The operation of an opcode; none: reserved (R247). -/
def opOf (b : BitVec 8) : Option Op := allOps.find? fun o => opCode o == b

/-- The queue class of an opcode (R247). -/
def opClass : Op → BitVec 4
  | .mma | .mdrn => 1
  | .vop | .vxadd => 2
  | .ldq | .ldmCopy => 3
  | .stq | .stmCopy | .atom => 4
  | .upd | .commit | .kstep | .snap => 5
  | _ => 0

/-- The queues that the opcode map allows (R247). -/
def opAllows (o : Op) (q : Queue) : Bool :=
  match opClass o with
  | 0 => !(o == .seed && q == .upq)
  | 1 => q == .mqf || q == .mqb
  | 2 => q == .vec
  | 3 => q == .ldm
  | 4 => q == .stm
  | _ => q == .upq

/-- The 128 bits of an instruction (R242). -/
def encode (o : Op) (w : InstrWord) : BitVec 128 :=
  opCode o ++ w.qclass ++ BitVec.ofBool w.f3 ++ BitVec.ofBool w.f2 ++ BitVec.ofBool w.f1 ++ BitVec.ofBool w.f0
    ++ w.optag ++ w.wcond ++ w.wsem ++ w.sinc ++ w.ssem ++ w.ops

/-- The frame fields of 128 bits (R242). -/
def frameOf (b : BitVec 128) : InstrWord :=
  { qclass := b.extractLsb' 116 4, f3 := b.getLsbD 115, f2 := b.getLsbD 114, f1 := b.getLsbD 113, f0 := b.getLsbD 112,
    optag := b.extractLsb' 96 16, wcond := b.extractLsb' 92 4, wsem := b.extractLsb' 80 12, sinc := b.extractLsb' 76 4,
    ssem := b.extractLsb' 64 12, ops := b.extractLsb' 0 64 }

/-- The opcode field of 128 bits (R242). -/
def opField (b : BitVec 128) : BitVec 8 := b.extractLsb' 120 8

/-- The operation and frame of 128 bits; none: OPCODE_RESERVED (R246). -/
def decode (b : BitVec 128) : Option (Op × InstrWord) := (opOf (opField b)).map fun o => (o, frameOf b)

/-- The command that a word of the table's bits spells: the table gives no row any bits. -/
def decodeTableWord (_nbits _w : Nat) : Option Instr := none

end Sys2Proof
end

