-- ==== Sys2Proof/Config.lean ====
section
/-! DEFINITION. What an implementation fixes and the manual leaves open: the free values. Each is a constant without a body, so
no statement can rest on a value of it. -/

namespace Sys2Proof.Config

/-- DESIGN CHOICE (log 3). The FP32 pattern that the kerb monitor records for a line amax that FP32 does not hold exactly:
R96 and R141 name no rounding. Applied to the magnitude's significand and exponent. -/
opaque amaxPattern : Nat → Int → BitVec 32

/-- DESIGN CHOICE (log 4). Cycles that a counter of busy time adds for one piece of work: unit-busy cycles of the update
units (R203) are a matter of timing. Applied to the number of the draw. -/
opaque busyCycles : Nat → BitVec 64

/-- DESIGN CHOICE (log 18). Accumulation cycles of an MMA in flight that have passed when an engine is chosen (R163): commands take no
time in this model. Applied to the number of instructions issued before the choice and to the MMA's. -/
opaque elapsedCycles : Nat → Nat → Nat

/-- DESIGN CHOICE (log 5). A correctly rounded transcendental (R213) whose enclosure at this model's working precision does
not decide the rounding: applied to the operation code and the operand's pattern. -/
opaque transcendental : Nat → BitVec 32 → BitVec 32

/-- DESIGN CHOICE (log 25). The origin that a drain reports for a NaN that no event of R114 made: a table entry that no LDQ
writes. Applied to the operation tag. -/
opaque nanOrigin : Nat → BitVec 3

/-- DESIGN CHOICE (log 6). The parts of a firmware image that R443 and R452 name: the header's fields, its HSS public key, the signature, and
the bytes of the header and payload that it signs. The manual gives no offsets. -/
structure ImageHeader where
  magic : BitVec 32
  length : Nat
  keyslot : Nat
  key : List (BitVec 8)
  svn : Nat
  version : BitVec 32
  signature : List (BitVec 8)
  head : List (BitVec 8)
  payload : List (BitVec 8)
deriving DecidableEq, Repr, Inhabited

/-- DESIGN CHOICE (log 6). The parts that an image's bytes hold; bytes that are not listed are 0xFF. -/
opaque imageHeader : List (Nat × BitVec 8) → ImageHeader

/-- DESIGN CHOICE (log 6). The SHA-256 of the HSS public key fused in a key slot (R443 check 3). -/
opaque fusedKeyHash : Nat → BitVec 256

/-- DESIGN CHOICE (log 7). The voltage in mV that the fused voltage-frequency table asks for at a junction temperature (R423). -/
opaque voltageTable : Nat → Nat

/-- DESIGN CHOICE (log 8). The throttle level that a stack at its first or second throttle state requests (R424, R426). -/
opaque stackLevel : Nat → BitVec 2

/-- DESIGN CHOICE (log 9). The bytes that a measurement digest is taken of, where the manual does not give them: boot ROM, fuse state,
published digest, fault table (R445). Applied to the index and to what is measured, as numbers. -/
opaque measured : Nat → List Nat → List (BitVec 8)

/-- DESIGN CHOICE (log 46). Whether the output of a root PLL that has lost lock has stopped (R416, R417): a physical finding that
the manual's event does not carry. Applied to the number of the draw. -/
opaque pllStopped : Nat → Bool

/-- DESIGN CHOICE (log 102). Whether the rail whose fall causes a POWER_ON reset is VDD_IO (R458, R460): a physical finding that the manual's
event does not carry. Applied to the number of the draw. -/
opaque ioFell : Nat → Bool

/-- DESIGN CHOICE (log 47). Which of the codes that the device emits answers a management command whose condition fails where R439 names no
code. Applied to the command. -/
opaque mgmtStatus : Nat → Nat

/-- DESIGN CHOICE (log 50). The sequence number of a datagram that the management port sends (R438): the manual does not say where
it starts or how it runs. Applied to the number of what has left the block before. -/
opaque ownSeq : Nat → BitVec 64

/-- DESIGN CHOICE (log 10). The fused device secret (R446), the identifier and the seed of an attestation tree that it gives, and the
randomizer of a signature: the manual does not say how the secret seeds the key. Applied to the secret and the tree's number (0: the top; 1
+ i: bottom tree i), and to the one-time index and the level. -/
opaque deviceSecret : BitVec 256
opaque treeId : BitVec 256 → Nat → BitVec 128
opaque treeSeed : BitVec 256 → Nat → BitVec 256
opaque randomizer : Nat → Nat → BitVec 256

/-- DESIGN CHOICE (log 11). The fused address of the management port: MGT_MAC (R452). -/
opaque macFuse : BitVec 48

/-- DESIGN CHOICE (log 96). MAGIC of a journal entry (R448), which the manual does not give. -/
opaque journalMagic : BitVec 32

/-- DESIGN CHOICE (log 49). What a semaphore view shows a context as LCORE for a core that it no longer binds (R317): no virtual
number exists. Applied to the global core. -/
opaque unboundCore : Nat → BitVec 7

/-- DESIGN CHOICE (log 40). How the PRBS sequence of an echo unit fills units, which R336 does not say: how many units of the sequence come
before a unit, and the bit of the unit's stretch of 512 that goes to each of its bits. Applied to the first unit of the run, the
pseudo-channel and the unit's number, and to the bit. -/
opaque echoPlace : Nat → Nat → Nat → Nat
opaque echoOrder : Nat → BitVec 9

/-- DESIGN CHOICE (log 40). Where the alternating and walking patterns of an echo unit begin (R336). Applied to the pattern code. -/
opaque echoPhase : Nat → Nat

/-- DESIGN CHOICE (log 91). What a spilled packet puts into a unit of the spill region (R367): the manual gives no layout. Applied to the
number of the draw and of the unit. -/
opaque spillUnit : Nat → Nat → BitVec 512

/-- DESIGN CHOICE (log 26). The bytes of a tile's areas that its header places beyond the end of the chamber window: R467 bounds
no area by the window. Applied to the chamber offset. -/
opaque beyondChamber : Nat → BitVec 8

end Sys2Proof.Config
end

