-- ==== Sys2Proof/Machine/State.lean ====
section
/-! DEFINITION. The state of the block as plain data, and the machine right after a power-on reset. Control-space registers
stand in one sparse table keyed by their control-space offset (R34); what no register holds has a field of its own. -/

namespace Sys2Proof.Machine

/-- A sparse table: keys strictly rising, unlisted keys read as a default of the reader's. -/
abbrev Tbl (α : Type) := List (Nat × α)

/-- Queue states (R226). -/
inductive QMode where
  | idle | ready | running | waiting | held | stopped | halted | faulted
deriving DecidableEq, Repr

/-- Wait causes (R227). -/
inductive WCause where
  | none | sem | line | resource | ladder | step
deriving DecidableEq, Repr

/-- One entry of a queue's loop stack (R233). -/
structure LoopEntry where
  start : BitVec 14
  end_ : BitVec 14
  left : BitVec 32
deriving DecidableEq, Repr

/-- Which queues a completed instruction holds (R238, R239). -/
inductive Hold where
  | none | own | all
deriving DecidableEq, Repr

/-- One data unit received from the fabric for a mover: the fabric address of the unit and its bytes with the carried tag;
`none` when the read failed and delivers +0 (R288, R362). -/
structure RemoteUnit where
  addr : Nat
  unit : Option SoxUnit
deriving DecidableEq, Repr

/-- What a mover instruction with a remote source latched at issue (R98, R229): it runs when its last response is in. -/
structure Job where
  op : Op
  w : InstrWord
  ctx : Nat
  /-- the descriptors, as their chapter lists them, and the entries of the index tensor of each with the code of a bad unit -/
  descs : List UnitData
  idx : List (List (Nat × W16))
  /-- quantisation record, rung and latched step of an LDQ -/
  record : BitVec 256
  rung : Nat
  seed : W64
  oset : List (BitVec 32)
  step : BitVec 32
  units : List RemoteUnit
deriving DecidableEq, Repr

/-- What a UPD latched at issue (R183): its context, the local address of its group table entry, its descriptor, the entry, the
FP32 step size and decay after their curves, whether a curve is invalid, and the FP32 gradient multiplier with its tag outcome. -/
structure UpdJob where
  ctx : Nat
  gaddr : Nat
  desc : UnitData
  entry : BitVec 1024
  lr : BitVec 32
  wd : BitVec 32
  curveBad : Bool
  gmul : BitVec 32
  gmulBad : Bool
  gmulErr : W16
deriving DecidableEq, Repr

/-- What an in-flight instruction still waits for (R230). -/
inductive Work where
  /-- nothing: it completes in queue order -/
  | done
  /-- nothing but the 4 cycles of an MMA that runs as null (R166), in logical buffer 0-3 -/
  | null (buf : Nat)
  /-- its last term (R112): logical buffer 0-3, engine, accumulation cycles -/
  | mma (buf : Nat) (engine : Bool) (cycles : Nat)
  /-- its last write (R112) -/
  | mdrn (buf : Nat)
  /-- delivery or timeout (R310): receiver cluster and channel, doorbell bit, length, message -/
  | mbsend (g ch dbit len : Nat) (msg : UnitData)
  /-- responses to its remote reads (R288) -/
  | gather (job : Job)
  /-- acknowledgements of its remote writes (R288) -/
  | acks
  /-- the old value of a remote atomic, to be written at this chamber offset (R266) -/
  | atomic (res : Nat)
  /-- its last write into the stack (R183): what it latched at issue -/
  | upd (job : UpdJob)
  /-- the commit of its step (R197): its own or another's, and whether it has waited for a snapshot -/
  | commit (ctx : Nat) (own waited : Bool)
  /-- the decision of a step (R145) -/
  | kstep (ctx : Nat) (needs : BitVec 32)
deriving DecidableEq, Repr

/-- An instruction that has issued and not completed (R230). -/
structure InFlight where
  id : Nat
  op : Op
  pc : BitVec 14
  optag : W16
  /-- increment and home of its signal (R242, R294); 0: no signal -/
  sinc : Nat
  home : Nat
  work : Work
  /-- events it raises, in order (R231) -/
  events : List W16
  /-- detected error it completes with (R231), and the address of the unit that caused it, 0 when none did (R393) -/
  error : Option W16
  errAt : W64
  /-- register write at completion (SLD, R254) -/
  post : Option (Nat × W64)
  hold : Hold
  /-- the step an LDQ, MDRN, UPD, COMMIT or KSTEP is tagged with (R142, R184, R197, R144) -/
  step : BitVec 32
deriving DecidableEq, Repr

/-- A refusal that waits for earlier instructions to complete (R231): its code, the refused instruction's operation tag and PC, and the
address of the bad unit that caused it, 0 when none did (R393). -/
structure Refused where
  code : W16
  optag : W16
  pc : BitVec 14
  addr : W64
deriving DecidableEq, Repr

/-- A queue of a core, less its scalar registers, which are registers of the control space (R226 to R233). -/
structure QState where
  mode : QMode := .idle
  wcause : WCause := .none
  pc : BitVec 14 := 0
  loops : List LoopEntry := []
  inflight : List InFlight := []
  /-- the head instruction as fetched (R228, R342) -/
  fetched : Option (BitVec 128) := none
  /-- age of the head: the number of fetches before it (R297) -/
  age : Nat := 0
  /-- a refusal that enters FAULTED once earlier instructions have completed (R231) -/
  refusal : Option Refused := none
  /-- the physical line that the head XARR waits on (R304) -/
  lineWait : Option Nat := none
  /-- consecutive pick conflicts lost (R164) -/
  lost : Nat := 0
  /-- MB of the head's slot, as read when it became the head (R164) -/
  mb : Nat := 0
  /-- the engine that the winner of a pick between two fresh MMAs has left to the head (R163) -/
  given : Option Bool := none
deriving DecidableEq, Repr

/-- A long register with its special-value flags, and the helictite register of the same cell (R102, R113, R114, R128). -/
structure MxCell where
  l : BitVec 64 := 0
  w : BitVec 16 := 0
  s : Bool := false
  z : Bool := true
  n : Bool := false
  p : Bool := false
  m : Bool := false
  hv : BitVec 80 := 0
  hx : BitVec 12 := 0
  hs : Bool := false
  hn : Bool := false
  hp : Bool := false
  hm : Bool := false
  origin : Option (BitVec 3) := none
deriving DecidableEq, Repr

/-- States of a logical accumulator buffer (R109). -/
inductive BufMode where
  | free | open_ | draining
deriving DecidableEq, Repr

/-- A logical accumulator buffer with the physical buffer it holds (R108 to R111, R158, R166). -/
structure MxBuf where
  mode : BufMode := .free
  null : Bool := false
  engine : Bool := false
  phys : Bool := false
  layer : Nat := 0
  rows : Nat := 0
  cols : Nat := 0
  prole : BitVec 2 := 0
  slot : BitVec 5 := 0
  used : Nat := 0
  /-- rank-one updates since it opened (R129, R141) -/
  heli : Nat := 0
  aTable : List (BitVec 32) := []
  bTable : List (BitVec 32) := []
  poisoned : Bool := false
  cells : List MxCell := []
deriving DecidableEq, Repr

/-- A signal between its instruction's completion and its semaphore's home (R298). `home` is the control-space offset of the
counter. -/
structure Sig where
  src : SigSrc
  home : Nat
  inc : Nat
  optag : W16
  pc : BitVec 14
deriving DecidableEq, Repr

/-- The kerb registers as sampled at a step close (R145). -/
structure KerbSample where
  policy : W64 := 0
  ltbase : W64 := 0
  ptbase : W64 := 0
  stbase : W64 := 0
  repl : W64 := 0
  budget : W64 := 0
  storm : W64 := 0
deriving DecidableEq, Repr

/-- Stages of a step close (R145, R149). -/
inductive KStage where
  | waitWork
  | reduce (round : Nat)
  | awaitReduced
  | ready
deriving DecidableEq, Repr

/-- A step close under way. `own`: this replica's record as merged so far, then the reduced record (R149). `timeout`: R151 fired. -/
structure Closing where
  step : BitVec 32
  sample : KerbSample
  stage : KStage
  own : List Byte := []
  timeout : Bool := false
deriving DecidableEq, Repr

/-- A kerb record as sent to a partner (R150): device, slot (16: reduced), bytes. -/
structure KerbSent where
  device : Nat
  slot : Nat
  bytes : List Byte
deriving DecidableEq, Repr

/-- A layer's statistics record (R141). -/
structure KStat where
  elems : Nat := 0
  sat : Nat := 0
  uflow : Nat := 0
  excess : Nat := 0
  slots : Nat := 0
  nansc : Nat := 0
  zerosc : Nat := 0
  autogrp : Nat := 0
  inexact : Nat := 0
  tiles : Nat := 0
  slotmax : Nat := 0
  amaxPre : Nat := 0
  amaxPost : Nat := 0
  heli : Nat := 0
  drains : Nat := 0
deriving DecidableEq, Repr

/-- The kerb monitor's state for one context, beside its registers (R137, R142 to R151). -/
structure KerbSt where
  /-- the values sampled at the last close; none before the first -/
  sample : Option KerbSample := none
  /-- the last step whose decision has been applied (R146) -/
  decided : BitVec 32 := 0
  closings : List Closing := []
  /-- ARRIVE as last seen in each slot (R150) -/
  seen : Tbl W64 := []
  /-- rounds already merged for the step being reduced (R406) -/
  merged : List Nat := []
  /-- records sent for the pending or last decided step (R406), and their step -/
  sent : List KerbSent := []
  sentStep : BitVec 32 := 0
  /-- records held: key ((step * 2) + die) * 65536 + layer (R142, R143) -/
  stats : Tbl KStat := []
deriving DecidableEq, Repr

/-- An image load between its checks and the end of its copies (R236). -/
structure Load where
  ctx : Nat
  base : Nat
  head : List Byte
deriving DecidableEq, Repr

/-- Phases of a re-bind between commands (R382): fence and swap are whole steps. -/
inductive RbPhase where
  | drain | scrub | swapHeld
deriving DecidableEq, Repr

/-- A re-bind under way: its mask, the staged copies as checked (offset in the copy, value), and what it releases (R381, R382). -/
structure Rebind where
  mask : BitVec 16
  staged : Tbl (Tbl W64)
  phase : RbPhase
  clusters : List Nat
  shares : List Nat
  grans : List Nat
  lines : List Nat
  dsems : List (Nat × Nat)
  qps : List Nat
  /-- masked contexts that lose their last cluster -/
  lost : List Nat
  /-- DRAINTMO has passed in the drain phase -/
  late : Bool := false
deriving DecidableEq, Repr

/-- Who waits for a Soxis request: an instruction (core, queue, its id) or a context's kerb monitor (R150, R356). -/
inductive Owner where
  | instr (c : Nat) (q : Queue) (id : Nat)
  | kerb (ctx : Nat)
deriving DecidableEq, Repr

/-- A Soxis request of this device, held until it is answered (R356, R361, R366). -/
structure Req where
  owner : Owner
  psn : BitVec 24
  op : BitVec 8
  addr : W64
  opa : W64
  opb : W64
  nunits : Nat
  units : List SoxUnit
  retx : Bool
  /-- retransmissions without a response, and epoch refusals (R362, R371) -/
  tries : Nat
  refusals : Nat
  /-- it is to be sent again, once its class may send (R361, R368) -/
  due : Bool
deriving DecidableEq, Repr

/-- A queue pair beside its entry in memory (R350, R356, R360, R361, R364, R365). -/
structure QpSt where
  outstanding : List Req := []
  queued : List Req := []
  /-- results of the last 16 atomics, newest first (R360) -/
  cache : List (BitVec 24 × W64) := []
  stage : Nat := 0
  /-- a NAK_SEQ has been sent for the present gap (R361), or an epoch refusal holds EPSN (R370) -/
  gapNak : Bool := false
  /-- the requester waits before it repeats: an RNR delay or an epoch delay (R357, R371) -/
  holdOff : Bool := false
  /-- the PSN from which the wait resumes (R357, R371) -/
  resume : Option (BitVec 24) := none
  lastCnp : Option W64 := none
  /-- PSNs sent since the queue pair became READY (R361) -/
  sent : Nat := 0
  /-- responses and notifications (none) that wait to be sent, oldest first (R368) -/
  waiting : List (Option Packet) := []
deriving DecidableEq, Repr

/-- The frame of a packet that a quay sends: addresses, VLAN tag, UDP source port and DSCP (R348, R350, R374). -/
structure Frame where
  dmac : BitVec 48
  smac : BitVec 48
  vid : BitVec 12
  pcp : BitVec 3
  ipv6 : Bool
  dip : BitVec 128
  sip : BitVec 128
  sport : BitVec 16
  dscp : BitVec 6
deriving DecidableEq, Repr

/-- A received packet that waits in its class (R366): the OP code of its command, the packet, and where its spilled copy lies in the
class's quarter of the spill region (R367). -/
structure RxEntry where
  kind : BitVec 8
  pkt : Packet
  spill : Option Nat
deriving DecidableEq, Repr

/-- The receive side of a class of a quay (R366 to R368): packets in arrival order, the next place in its spill quarter, and whether the
device has paused the partner. -/
structure RxClass where
  waiting : List RxEntry := []
  tail : Nat := 0
  xoff : Bool := false
deriving DecidableEq, Repr

/-- A report record (R393). -/
structure Record where
  seq : BitVec 32
  code : W16
  kind : Nat
  verdict : Nat
  time : W64
  source : W16
  context : Nat
  queue : Nat
  pc : BitVec 14
  optag : W16
  count : Nat
  step : BitVec 32
  addr : W64
  detail : W64
  epoch : BitVec 32
deriving DecidableEq, Repr

/-- A self-test queued or running (R397): the unit, the code that triggered it, and the address under test. -/
structure Test where
  source : W16
  code : W16
  addr : Nat
deriving DecidableEq, Repr

/-- The fault table of the boot flash (R398, R402, R450). -/
structure FaultTab where
  disabled : List W16 := []
  /-- transient verdicts with their power-on hour -/
  verdicts : List (W16 × Nat) := []
  /-- granules retired, as physical granule numbers (R399) -/
  granules : List Nat := []
  /-- spare rows used, keyed by 64 * stack + pseudo-channel -/
  spares : Tbl Nat := []
  hours : Nat := 0
deriving DecidableEq, Repr

/-- The clock and power state of one die beside its registers (R415 to R427). -/
structure DieSt where
  /-- a clock switch between gating and ungating: the selection it makes -/
  switch : Option (BitVec 3) := none
  /-- the lowest VDD_CORE of the dip under way, in mV (R420) -/
  dip : Option Nat := none
  /-- VDD_CORE lies above the warning level; above it plus 10 mV (R420) -/
  above : Bool := true
  clear : Bool := true
  dipReq : Bool := false
  avsFails : Nat := 0
  tests : List Test := []
  running : Option Test := none
deriving DecidableEq, Repr

/-- A base die's state beside its registers (R325 to R328, R338, R399, R426). -/
structure StackSt where
  /-- failed replays of each flit under way (R325) -/
  flits : Tbl Nat := []
  linkTraining : Bool := false
  /-- per channel: retries of the request under way, and whether its channel has retrained for it -/
  chTries : Tbl Nat := []
  chSecond : List Nat := []
  /-- corrected units that wait for their write-back (R328), as unit addresses -/
  writebacks : List Nat := []
  /-- stack throttle state 0 to 2 (R426) -/
  throttle : Nat := 0
  /-- refresh interval in ns per bank now in force (R338) -/
  interval : Nat := 3900
  /-- refreshes done -/
  refreshes : Nat := 0
  /-- rows being copied to a spare, oldest first: pseudo-channel and address (R399) -/
  repair : List (Nat × Nat) := []
  /-- echo runs under way, by channel: STK_ECHO_CTRL and STK_ECHO_RANGE as they stood at GO (R336) -/
  echo : Tbl (W64 × W64) := []
deriving DecidableEq, Repr

/-- Boot stages (R431, PKG_BOOT.STAGE). -/
inductive Boot where
  | refWait | pll | rom | recovery | firmware | scrub | ready
deriving DecidableEq, Repr

/-- What fuses hold (R5, R443, R444, R449). They keep their values through every reset. -/
structure Fuses where
  ident : W64
  device : Nat
  svn : Nat
  lms : Nat
  revoked : BitVec 4
deriving DecidableEq, Repr

/-- SPDM errors that the device answers (R440, R445, R447, R449). -/
inductive SpdmError where
  | notAccepted | noMeasurement | responseNotReady | unspecified
deriving DecidableEq, Repr

/-- Causes of a reset other than WARM, in the order of R458. -/
inductive RstCause where
  | powerOn | supply | reference | thermal | pin
deriving DecidableEq, Repr

/-- The causes of a reset that meet in one reference cycle (R458), and what stood when it began: whether reset was released and the reference
had started, and PKG_RSTCAUSE.SEEN. -/
structure RstCycle where
  causes : List RstCause
  released : Bool
  started : Bool
  seen : BitVec 7
deriving DecidableEq, Repr

/-- The management processor's state beside its registers (R436, R439 to R451). -/
structure Mgmt where
  session : Bool := false
  key : Option (BitVec 256) := none
  /-- the last SEQ accepted under the key -/
  lastSeq : Option W64 := none
  /-- bytes of the staging area; unlisted bytes are 0xFF -/
  staging : Tbl Byte := []
  /-- bytes of the boot flash by offset; unlisted bytes are 0xFF (R442) -/
  flash : Tbl Byte := []
  /-- the image slot is being written or was left incomplete (R439) -/
  slotBroken : Bool := false
  /-- the image that runs (R443, R452) -/
  image : Option Config.ImageHeader := none
  /-- an image write under way: its command's datagram and the bytes (R439, R443) -/
  writing : Option (Datagram × Tbl Byte) := none
  resetWaits : Bool := false
  /-- requests that wait for the one being handled, oldest first (R436) -/
  requests : List Instr := []
  /-- reserved limit of one-time indices (R448) -/
  limit : Nat := 0
  /-- the digest whose signature waits for a journal entry to be programmed (R448) -/
  waiting : Option (BitVec 256) := none
  /-- next one-time index (R447, R452) -/
  next : Nat := 0
  exhausted : Bool := false
  /-- number of bottom trees built (R447) -/
  trees : Nat := 1
  /-- PLDM sensor values by sensor ID (R451) -/
  sensors : Tbl Nat := []
  /-- the fuses as the boot ROM measured them, and E as the last ADVANCE left it (R445) -/
  measured : Option Fuses := none
  advanced : BitVec 32 := 0
deriving DecidableEq, Repr

/-- What leaves the block: packets, answers, reports and results of reads, newest first. -/
inductive Tx where
  | soxis (qy : Nat) (p : Packet) (f : Frame)
  | cnp (qy : Nat) (qp : Nat) (f : Frame)
  | pause (qy cls : Nat) (xoff : Bool)
  | value (ctx : Nat) (addr : W64) (v : W64)
  | addrInvalid (ctx : Nat) (addr : W64)
  | mgmt (peer : MgmtPeer) (cmd : BitVec 8) (seq : W64) (status : W16) (payload : List Byte) (mac : BitVec 128)
  | record (peer : MgmtPeer) (r : Record) (seq : W64) (mac : BitVec 128)
  | measurement (index : Nat) (v : BitVec 256)
  | signature (q : Nat) (bytes : List Byte)
  | avs (rail mv : Nat)
  | spdmError (e : SpdmError)
  | pldm (id : Nat) (v : Option Nat)
  | secEvent (code : W16)
  | frame (qy : Nat)
deriving DecidableEq, Repr

/-- The machine stops here (no command of this model ends so). -/
inductive Fault where
  /-- Never raised by a command of this model: every effect the manual gives ends in a next state. Safe. -/
  | none
deriving DecidableEq, Repr

/-- The model has no meaning for a command. -/
inductive Refusal where
  /-- Raised by the dispatch of a command that has no meaning yet. Safe: nothing can be proved of it. -/
  | notModelled (mnemonic : String)
deriving DecidableEq, Repr

/-- The state of the block. -/
structure State where
  /-- commands that wait, first in first out -/
  pending : List Instr
  /-- bytes of stacks, gallery shares, chambers and instruction memories, keyed by the local address that context 0's
  identity mapping gives them (R23, R28); unlisted bytes are 0 -/
  mem : List Host.Cell
  /-- units whose stored check tag is not good: stored tag XOR computed tag (R330); 0xFFFF: poisoned -/
  tags : Tbl W16
  /-- control-space registers by control-space offset (R34); unlisted registers hold their reset values -/
  regs : Tbl W64
  /-- queues by 6 * core + queue number -/
  queues : Tbl QState
  /-- logical accumulator buffers by 4 * core + (F0, F1, B0, B1) -/
  bufs : Tbl MxBuf
  /-- the queue that lost the last pick conflict, by core (R164): true for MQB -/
  lastLoser : Tbl Bool
  /-- signals on their way, oldest first -/
  sigs : List Sig
  /-- mailbox messages by 64 * cluster + channel: 64 bytes, and whether their unit arrived with a bad tag (R363) -/
  msgs : Tbl (UnitData × Bool)
  kerb : Tbl KerbSt
  loads : Tbl Load
  rebind : Option Rebind
  /-- a COMPUTE that runs, with its sections and contexts; its digest and HOLE when a fence has come before its end; one that waits;
  ADVANCEs that wait (R387, R389) -/
  compute : Option (BitVec 16 × BitVec 16)
  formed : Option (List Byte × Bool)
  computeWait : Bool
  advanceWait : Nat
  qps : Tbl QpSt
  /-- classes paused on transmit, by 4 * quay + class (R368) -/
  paused : Tbl Bool
  /-- receive buffers, by 4 * quay + class (R366) -/
  rx : Tbl RxClass
  /-- turns of the senders: by 8 * quay + class the queue pair that sent last, by 8 * quay + 4 the class (R365) -/
  turns : Tbl Nat
  ring : List Record
  /-- sequence numbers of the records not yet sent, in order (R396) -/
  unsent : List (BitVec 32)
  lostSince : Nat
  /-- (quay, reason) pairs already reported, with the time (R372) -/
  violations : List (Nat × Nat × W64)
  faults : FaultTab
  /-- the last write of the fault table failed: the previous copy is in force at the next boot (R450) -/
  flashFailed : Bool
  /-- units to be removed from the disabled list at the next reset (R402) -/
  enables : List W16
  /-- units in the first stage of disabling (R400) -/
  disabling : List W16
  /-- units disabled now -/
  disabled : List W16
  dies : Tbl DieSt
  bases : Tbl StackSt
  /-- clusters that a command wakes, with the actions that wait (R429) -/
  waking : Tbl (List Instr)
  boot : Boot
  /-- RESET_N is high and every rail has been up for 1 ms (R458) -/
  released : Bool
  refStarted : Bool
  rstLast : BitVec 3
  rstSeen : BitVec 7
  throtN : Bool
  /-- the reference cycle in which causes of a reset have met; none: no cause yet in this one (R458) -/
  cycle : Option RstCycle
  /-- dies whose thermal trip holds THERMTRIP_N low (R427) -/
  thermtrip : List Nat
  mgmt : Mgmt
  fuses : Fuses
  /-- the timestamp counter of die 0, and that of die 1 (R412) -/
  time : W64
  time1 : W64
  /-- fetches so far: the age stamp of queue heads (R297) -/
  ages : Nat
  /-- instructions issued so far: their ids -/
  ids : Nat
  /-- MODEL FIELD (log 4). Free values drawn so far -/
  draws : Nat
  tx : List Tx
deriving DecidableEq, Repr

/-- The fuses of a part. DESIGN CHOICE (log 12): a grade A part with every cluster enabled and device number 0. -/
def Fuses.shipped : Fuses :=
  { ident := 0x0000FFFF001000E4, device := 0, svn := 0, lms := 0, revoked := 0 }

/-- The machine right after a POWER_ON reset (R430, R431): the boot sequence waits in step 1. -/
def State.reset : State :=
  { pending := [], mem := [], tags := [], regs := [], queues := [], bufs := [], lastLoser := [], sigs := [], msgs := [],
    kerb := [], loads := [], rebind := none, compute := none, formed := none, computeWait := false, advanceWait := 0, qps := [],
    paused := [], rx := [], turns := [], ring := [], unsent := [], lostSince := 0, violations := [], faults := {}, flashFailed := false,
    enables := [], disabling := [], disabled := [], dies := [], bases := [], waking := [], boot := .refWait,
    released := false, refStarted := false, rstLast := 0, rstSeen := 0, throtN := true, cycle := none, thermtrip := [], mgmt := {},
    fuses := Fuses.shipped, time := 0, time1 := 0, ages := 0, ids := 0, draws := 0, tx := [] }

end Sys2Proof.Machine
end

