-- ==== Sys2Proof/Machine/Tables.lean ====
section
/-! DEFINITION. Sparse tables: look-up, insertion and removal. A table that only tset and tdel have built has strictly rising keys. -/

namespace Sys2Proof.Machine

/-- The value that table `t` lists for key `k`. -/
def tget {α : Type} : Tbl α → Nat → Option α
  | [], _ => none
  | (j, v) :: r, k => if j = k then some v else tget r k

/-- `t` with key `k` listed with value `v`. -/
def tset {α : Type} : Tbl α → Nat → α → Tbl α
  | [], k, v => [(k, v)]
  | (j, w) :: r, k, v =>
    if k < j then (k, v) :: (j, w) :: r else if k = j then (k, v) :: r else (j, w) :: tset r k v

/-- `t` without key `k`. -/
def tdel {α : Type} : Tbl α → Nat → Tbl α
  | [], _ => []
  | (j, w) :: r, k => if j = k then tdel r k else (j, w) :: tdel r k

/-- `t` without the keys from `lo` to `hi` - 1. -/
def tdelRange {α : Type} (t : Tbl α) (lo hi : Nat) : Tbl α :=
  t.filter fun p => p.1 < lo || hi ≤ p.1

/-- The value listed for `k`, or `d`. -/
def tgetD {α : Type} (t : Tbl α) (k : Nat) (d : α) : α := (tget t k).getD d

end Sys2Proof.Machine
end

