-- ==== Sys2Proof/Machine/RegMap.lean ====
section
/-! DEFINITION. The registers of the control space: which bits of each are read-write, write-1-to-clear and read-clear, and
their reset values, block by block as the register tables of spec/ give them (R9, R10). Bits in none of the masks are read-only,
write-only or reserved. -/

namespace Sys2Proof.Machine

/-- Bits `hi` to `lo`. -/
def bits (hi lo : Nat) : W64 := maskOf lo (hi - lo + 1)

/-- All 64 bits. -/
def allOnes : W64 := bits 63 0

/-- A row of a block's register table: `n` registers from offset `at_`, `stride` bytes apart. -/
structure RegRow where
  name : String
  at_ : Nat
  n : Nat := 1
  stride : Nat := 8
  rw : W64 := 0
  w1c : W64 := 0
  rc : W64 := 0
  reset : W64 := 0
deriving DecidableEq, Repr

/-- The blocks of the control space (R34), with the global instance number. -/
inductive Blk where
  | pkg | xrd | cfg | mgt | bind
  | die (d : Nat)
  | clu (g : Nat)
  | core (c : Nat)
  | stk (st : Nat)
  | quay (qy : Nat)
deriving DecidableEq, Repr

/-- PKG block (R5, R432). -/
def pkgRows : List RegRow :=
  [ { name := "PKG_IDENT", at_ := 0x0 },
    { name := "PKG_TIME", at_ := 0x100 },
    { name := "PKG_RSTCAUSE", at_ := 0x108, w1c := bits 6 0 },
    { name := "PKG_RST", at_ := 0x110 },
    { name := "PKG_WDOG", at_ := 0x118, rw := bits 15 0 },
    { name := "PKG_BOOT", at_ := 0x120 } ]

/-- XRD block (R320): 32 lines of 0x100 bytes. -/
def xrdRows : List RegRow :=
  [ { name := "XRD_MASK_LO", at_ := 0x0, n := 32, stride := 0x100, rw := bits 63 0 },
    { name := "XRD_MASK_HI", at_ := 0x8, n := 32, stride := 0x100, rw := bits 31 0 },
    { name := "XRD_CTRL", at_ := 0x10, n := 32, stride := 0x100, rc := bits 15 0 },
    { name := "XRD_ARR_LO", at_ := 0x18, n := 32, stride := 0x100 },
    { name := "XRD_ARR_HI", at_ := 0x20, n := 32, stride := 0x100 } ]

/-- CFG block (R390). -/
def cfgRows : List RegRow :=
  [ { name := "CFG_CTRL", at_ := 0x0, rw := bits 31 0, reset := 0xFFFE00FE },
    { name := "CFG_CMD", at_ := 0x8 },
    { name := "CFG_STAT", at_ := 0x10, w1c := bits 61 59 },
    { name := "CFG_EPOCH", at_ := 0x18, rw := bits 31 0 },
    { name := "CFG_DIGEST", at_ := 0x20, n := 4 },
    { name := "CFG_PUBDIG", at_ := 0x40, n := 4 } ]

/-- MGT block (R452). -/
def mgtRows : List RegRow :=
  [ { name := "MGT_CTRL", at_ := 0x0, rw := bits 63 63 ||| bits 31 0, reset := 0x8000000012BA12B9 },
    { name := "MGT_STAT", at_ := 0x8, rc := bits 31 0 },
    { name := "MGT_COLLECT", at_ := 0x10, n := 2, rw := bits 63 0 },
    { name := "MGT_DEVID", at_ := 0x20, n := 2 },
    { name := "MGT_IMAGE", at_ := 0x30 },
    { name := "MGT_SVN", at_ := 0x38 },
    { name := "MGT_LMS", at_ := 0x40 },
    { name := "MGT_SECERR", at_ := 0x48, w1c := bits 63 63, rc := bits 15 0 },
    { name := "MGT_MAC", at_ := 0x50 },
    { name := "MGT_IP", at_ := 0x58, n := 2, rw := bits 63 0 } ]

/-- The entries of one copy of a binding bank (R380), with the read-write masks of the staged copy. -/
def bindCopyRows : List RegRow :=
  [ { name := "BIND_CLUSTER", at_ := 0x0, n := 16, rw := bits 63 63 ||| bits 3 0 },
    { name := "BIND_SHARE", at_ := 0x100, n := 16, rw := bits 63 63 ||| bits 3 0 },
    { name := "BIND_DSEM", at_ := 0x200, n := 2, rw := bits 41 32 ||| bits 8 0 },
    { name := "BIND_LINE", at_ := 0x300, n := 32, rw := bits 63 63 ||| bits 4 0 },
    { name := "BIND_QP", at_ := 0x400, rw := bits 46 32 ||| bits 13 0 },
    { name := "BIND_GRAN", at_ := 0x800, n := 768, rw := bits 63 63 ||| bits 9 0 } ]

/-- BIND registers after the banks (R390). -/
def bindRows : List RegRow :=
  [ { name := "BIND_CMD", at_ := 0x100000 },
    { name := "BIND_STAT", at_ := 0x100008, w1c := bits 62 62, rc := bits 31 0 },
    { name := "BIND_CTRL", at_ := 0x100010, rw := bits 15 0, reset := 0x07D0 } ]

/-- DIE block (R155, R177, R202, R319, R375, R407, R408, R433). -/
def dieRows : List RegRow :=
  [ { name := "DIE_SEM", at_ := 0x200000, n := 512, rw := bits 31 0 },
    { name := "DIE_SEMV", at_ := 0x201000, n := 512, w1c := bits 63 63 },
    { name := "KERB_POLICY", at_ := 0x300000, n := 16, stride := 0x100, rw := bits 63 29 ||| bits 16 0 },
    { name := "KERB_LTBASE", at_ := 0x300008, n := 16, stride := 0x100, rw := bits 45 6 },
    { name := "KERB_PTBASE", at_ := 0x300010, n := 16, stride := 0x100, rw := bits 45 6 },
    { name := "KERB_STBASE", at_ := 0x300018, n := 16, stride := 0x100, rw := bits 45 6 },
    { name := "KERB_REPL", at_ := 0x300020, n := 16, stride := 0x100, rw := bits 63 32 ||| bits 17 4 },
    { name := "KERB_BUDGET", at_ := 0x300028, n := 16, stride := 0x100, rw := bits 63 0, reset := bits 63 0 },
    { name := "KERB_STORM", at_ := 0x300030, n := 16, stride := 0x100, rw := bits 27 12 ||| bits 8 0, reset := 0x40C0 },
    { name := "KERB_STATUS", at_ := 0x300038, n := 16, stride := 0x100, rw := bits 63 32, w1c := bits 6 4 },
    { name := "KERB_TMO", at_ := 0x300040, n := 16, stride := 0x100, rw := bits 31 0 },
    { name := "KERB_STALL", at_ := 0x300048, n := 16, stride := 0x100, w1c := bits 63 63 },
    { name := "KERB_MOVES", at_ := 0x300050, n := 16, stride := 0x100, rc := bits 63 0 },
    { name := "KERB_DENIED", at_ := 0x300058, n := 16, stride := 0x100, rc := bits 63 0 },
    { name := "KERB_STORMS", at_ := 0x300060, n := 16, stride := 0x100, rc := bits 63 0 },
    { name := "KERB_WOULD", at_ := 0x300068, n := 16, stride := 0x100, rc := bits 63 0 },
    { name := "PIPE_SLBASE", at_ := 0x310000, n := 16, stride := 0x100, rw := bits 45 6 ||| bits 0 0 },
    { name := "PIPE_SNAP0", at_ := 0x310008, n := 16, stride := 0x100, rw := bits 55 32 },
    { name := "PIPE_SNAP1", at_ := 0x310010, n := 16, stride := 0x100, rw := bits 55 32 },
    { name := "PIPE_SNAP2", at_ := 0x310018, n := 16, stride := 0x100, rw := bits 55 32 },
    { name := "PIPE_SNAP3", at_ := 0x310020, n := 16, stride := 0x100, rw := bits 55 32 },
    { name := "PIPE_SNAPSTALL", at_ := 0x310028, n := 16, stride := 0x100, rc := bits 63 0 },
    { name := "PIPE_SNAPWAITS", at_ := 0x310030, n := 16, stride := 0x100, rc := bits 63 0 },
    { name := "UPD_GTBASE", at_ := 0x320000, n := 16, stride := 0x100, rw := bits 45 7 },
    { name := "UPD_CTBASE", at_ := 0x320008, n := 16, stride := 0x100, rw := bits 45 7 },
    { name := "UPD_STEP", at_ := 0x320010, n := 16, stride := 0x100, rw := bits 63 32 },
    { name := "UPD_ERR", at_ := 0x320018, n := 16, stride := 0x100, w1c := bits 63 63 },
    { name := "UPD_UPDATED", at_ := 0x320020, n := 16, stride := 0x100, rc := bits 63 0 },
    { name := "UPD_NONFINITE", at_ := 0x320028, n := 16, stride := 0x100, rc := bits 63 0 },
    { name := "UPD_SKIPS", at_ := 0x320030, n := 16, stride := 0x100, rc := bits 63 0 },
    { name := "UPD_FALLBACKS", at_ := 0x320038, n := 16, stride := 0x100, rc := bits 63 0 },
    { name := "UPD_FROZEN", at_ := 0x320040, n := 16, stride := 0x100, rc := bits 63 0 },
    { name := "FAB_RTBASE", at_ := 0x330000, n := 16, stride := 0x100, rw := bits 45 6 },
    { name := "FAB_QPBASE", at_ := 0x330008, rw := bits 45 6 },
    { name := "FAB_QPCMD", at_ := 0x330010, w1c := bits 61 61 },
    { name := "ERR_CTX", at_ := 0x340000, n := 16, stride := 0x100, rw := bits 62 62, w1c := bits 63 63 },
    { name := "ERR_REPLAY", at_ := 0x340008, n := 16, stride := 0x100, w1c := bits 61 61 },
    { name := "ERR_CTX_REPORTS", at_ := 0x340010, n := 16, stride := 0x100, rc := bits 63 0 },
    { name := "ERR_ST_CTRL", at_ := 0x350000, rw := bits 63 62 ||| bits 47 32 ||| bits 7 0, reset := 0xC000001800000003 },
    { name := "ERR_ST_STAT", at_ := 0x350008, rc := bits 31 0 },
    { name := "ERR_RPT", at_ := 0x350010, rc := bits 31 0 },
    { name := "ERR_DISABLE", at_ := 0x350018 },
    { name := "ERR_CORE", at_ := 0x350100, n := 48 },
    { name := "ERR_CLU", at_ := 0x350300 },
    { name := "ERR_STK", at_ := 0x350308 },
    { name := "ERR_GRAN", at_ := 0x350400, n := 6 },
    { name := "ERR_SPARES", at_ := 0x350500, n := 6 },
    { name := "CLK_STAT", at_ := 0x360000, w1c := bits 3 3, rc := bits 31 16 },
    { name := "CLK_SW", at_ := 0x360008, rw := bits 62 62 ||| bits 2 0 },
    { name := "PWR_AVS", at_ := 0x360010, rw := bits 63 63 ||| bits 31 16, w1c := bits 0 0, reset := 0x800002EE000F0000 },
    { name := "PWR_DIP", at_ := 0x360018, rw := bits 63 59 ||| bits 55 30, rc := bits 15 0, reset := 0x40000A0A80000000 },
    { name := "PWR_THERM", at_ := 0x360020, rw := bits 55 32, reset := 0x00647D6200000000 },
    { name := "PWR_THROT", at_ := 0x360028, rw := bits 61 58, rc := bits 31 0, reset := 0x3000000000000000 },
    { name := "PWR_GATE", at_ := 0x360030, rw := bits 15 0 },
    { name := "PWR_VMIN", at_ := 0x360040, n := 8, rc := bits 63 0 } ]

/-- CLU block (R241, R318, R344). -/
def cluRows : List RegRow :=
  [ { name := "CLU_IMG_BASE", at_ := 0x0, rw := bits 45 6 },
    { name := "CLU_IMG_CMD", at_ := 0x8 },
    { name := "CLU_IMG_STATUS", at_ := 0x10, w1c := bits 62 62 },
    { name := "CLU_SEM", at_ := 0x1000, n := 256, rw := bits 31 0 },
    { name := "CLU_SEMV", at_ := 0x1800, n := 256, w1c := bits 63 63 },
    { name := "CLU_GAL_CORR", at_ := 0x2000, rc := bits 63 0 },
    { name := "CLU_GAL_UNCORR", at_ := 0x2008, rc := bits 63 0 },
    { name := "CLU_GAL_ERR", at_ := 0x2010, w1c := bits 63 63 },
    { name := "CLU_MB_CFG", at_ := 0x4000, n := 64, rw := bits 63 62 ||| bits 29 16 ||| bits 6 0 },
    { name := "CLU_MB_STAT", at_ := 0x4200, n := 64 },
    { name := "CLU_MB_DOORBELL", at_ := 0x4400, w1c := bits 31 0 },
    { name := "CLU_MB_DBMASK", at_ := 0x4408, rw := bits 31 0, reset := 0xFFFFFFFF },
    { name := "CLU_MB_DBSEM", at_ := 0x4410, rw := bits 63 63 ||| bits 7 0 },
    { name := "CLU_SYNC_DISCARD", at_ := 0x4418, rc := bits 63 0 } ]

/-- The bank of queue q in the CORE block (R240). -/
def queueRows (b : Nat) : List RegRow :=
  [ { name := "CORE_Q_STAT", at_ := b, rw := bits 13 0 },
    { name := "CORE_Q_FAULT", at_ := b + 0x08, w1c := bits 63 63 },
    { name := "CORE_Q_EVENT", at_ := b + 0x10, rc := bits 63 0 },
    { name := "CORE_Q_LOOP", at_ := b + 0x20, n := 4 },
    { name := "CORE_Q_S", at_ := b + 0x80, n := 16, rw := bits 63 0 } ]

/-- CORE block (R65, R127, R176, R223, R240, R291, R317, R344). -/
def coreRows : List RegRow :=
  [ { name := "CORE_QCTL", at_ := 0x0 },
    { name := "CORE_EXEC", at_ := 0x8, rw := bits 2 0 },
    { name := "CORE_NAN0", at_ := 0x10, w1c := bits 63 63 },
    { name := "CORE_NAN1", at_ := 0x18 },
    { name := "CORE_NANCOUNT", at_ := 0x20, rc := bits 63 0 },
    { name := "CORE_WINDROP", at_ := 0x28, rc := bits 63 0 } ] ++
  queueRows 0x100 ++ queueRows 0x200 ++ queueRows 0x300 ++ queueRows 0x400 ++ queueRows 0x500 ++ queueRows 0x600 ++
  [ { name := "CORE_SEED", at_ := 0x800, n := 5, rw := bits 63 0 },
    { name := "CORE_MX_CHECK", at_ := 0x900, rw := bits 8 0 },
    { name := "CORE_MX_BUF", at_ := 0x908 },
    { name := "CORE_MX_DRAINS", at_ := 0x910, rc := bits 63 0 },
    { name := "CORE_MX_INEXACT", at_ := 0x918, rc := bits 63 0 },
    { name := "CORE_MX_CHECKED", at_ := 0x920, rc := bits 63 0 },
    { name := "CORE_MX_RESFAIL", at_ := 0x928, rc := bits 63 0 },
    { name := "CORE_MX_RESERR", at_ := 0x930, w1c := bits 63 63 },
    { name := "CORE_PICK", at_ := 0xA00, rw := bits 31 16 ||| bits 1 0, reset := 0x400000 },
    { name := "CORE_PICK_WINS", at_ := 0xA08, rc := bits 63 0 },
    { name := "CORE_PICK_FORCED", at_ := 0xA10, rc := bits 63 0 },
    { name := "CORE_FROZEN", at_ := 0xA18, rc := bits 63 0 },
    { name := "CORE_VEC_CHECK", at_ := 0xB00, rw := bits 8 0 },
    { name := "CORE_VEC_OPS", at_ := 0xB08, rc := bits 63 0 },
    { name := "CORE_VEC_LANECYC", at_ := 0xB10, rc := bits 63 0 },
    { name := "CORE_VEC_SAMPLED", at_ := 0xB18, rc := bits 63 0 },
    { name := "CORE_VEC_SHFAIL", at_ := 0xB20, rc := bits 63 0 },
    { name := "CORE_VEC_SHERR", at_ := 0xB28, w1c := bits 63 63 },
    { name := "CORE_DTBASE", at_ := 0xC00, rw := bits 21 14, reset := 0x3FC000 },
    { name := "CORE_MV_WDISC", at_ := 0xC08, rc := bits 63 0 },
    { name := "CORE_MV_TDISC", at_ := 0xC10, rc := bits 63 0 },
    { name := "CORE_MV_IDXCLAMP", at_ := 0xC18, rc := bits 63 0 },
    { name := "CORE_MV_STAGED", at_ := 0xC20, rc := bits 63 0 },
    { name := "CORE_MV_INPLACE", at_ := 0xC28, rc := bits 63 0 },
    { name := "CORE_MEM_ERR", at_ := 0xD00, w1c := bits 63 63 },
    { name := "CORE_MEM_ADDR", at_ := 0xD08 },
    { name := "CORE_MEM_POISON", at_ := 0xD10, rc := bits 63 0 },
    { name := "CORE_CH_CORR", at_ := 0xD18, rc := bits 63 0 },
    { name := "CORE_CH_UNCORR", at_ := 0xD20, rc := bits 63 0 },
    { name := "CORE_SEM", at_ := 0x1000, n := 64, rw := bits 31 0 },
    { name := "CORE_SEMV", at_ := 0x1200, n := 64, w1c := bits 63 63 },
    { name := "CORE_MB_CFG", at_ := 0x1400, rw := bits 31 0, reset := 0x7A120 },
    { name := "CORE_MB_STAT", at_ := 0x1408, w1c := bits 5 0 } ]

/-- STK block (R203, R343). -/
def stkRows : List RegRow :=
  [ { name := "STK_CTRL", at_ := 0x0, rw := bits 7 4 ||| bits 0 0, reset := 0x40 },
    { name := "STK_STAT", at_ := 0x8, w1c := bits 0 0 },
    { name := "STK_THERM", at_ := 0x10 },
    { name := "STK_PATROL", at_ := 0x18, rw := bits 15 0, reset := 0x18 },
    { name := "STK_CORR", at_ := 0x20, rc := bits 63 0 },
    { name := "STK_UNCORR", at_ := 0x28, rc := bits 63 0 },
    { name := "STK_ERR", at_ := 0x30, w1c := bits 63 63 },
    { name := "STK_CH_STAT", at_ := 0x800, n := 32, rc := bits 31 0 },
    { name := "STK_ECHO_CTRL", at_ := 0x1000, n := 32, stride := 0x20, rw := bits 37 0, w1c := bits 61 60, reset := 1 },
    { name := "STK_ECHO_RANGE", at_ := 0x1008, n := 32, stride := 0x20, rw := bits 57 34 ||| bits 29 6 },
    { name := "STK_ECHO_COUNT", at_ := 0x1010, n := 32, stride := 0x20, rc := bits 63 0 },
    { name := "STK_ECHO_ERR", at_ := 0x1018, n := 32, stride := 0x20, w1c := bits 63 63 },
    { name := "STK_UPD_ELEMS", at_ := 0x8000, rc := bits 63 0 },
    { name := "STK_UPD_BUSY", at_ := 0x8008, rc := bits 63 0 },
    { name := "STK_UPD_DESCS", at_ := 0x8010, rc := bits 63 0 } ]

/-- QUAY block (R374). -/
def quayRows : List RegRow :=
  [ { name := "QUAY_CTRL", at_ := 0x0, rw := bits 3 0 },
    { name := "QUAY_STAT", at_ := 0x8, w1c := bits 58 58 },
    { name := "QUAY_MAC", at_ := 0x10, rw := bits 47 0 },
    { name := "QUAY_IP4", at_ := 0x18, rw := bits 31 0 },
    { name := "QUAY_IP6", at_ := 0x20, n := 2, rw := bits 63 0 },
    { name := "QUAY_PFC", at_ := 0x30, rw := bits 63 48 ||| bits 17 0, reset := 0x0064000000000000 },
    { name := "QUAY_BUF", at_ := 0x38, rw := bits 63 63 ||| bits 47 32 ||| bits 15 0, reset := 0x8000786000000100 },
    { name := "QUAY_CC", at_ := 0x40, rw := bits 63 40 ||| bits 31 0, reset := 0x8037320003E80FA0 },
    { name := "QUAY_EPOCH", at_ := 0x48, rw := bits 47 0, reset := 0x0000006400000064 },
    { name := "QUAY_QPERR", at_ := 0x50, w1c := bits 63 63 },
    { name := "QUAY_CNT_DROP", at_ := 0x100, n := 8, rc := bits 63 0 },
    { name := "QUAY_CNT_RXPKT", at_ := 0x140, rc := bits 63 0 },
    { name := "QUAY_CNT_TXPKT", at_ := 0x148, rc := bits 63 0 },
    { name := "QUAY_CNT_RETX", at_ := 0x150, rc := bits 63 0 },
    { name := "QUAY_CNT_REFUSED", at_ := 0x158, rc := bits 63 0 },
    { name := "QUAY_CNT_CNP", at_ := 0x160, rc := bits 63 0 },
    { name := "QUAY_CNT_SPILL", at_ := 0x168, rc := bits 63 0 },
    { name := "QUAY_CNT_FECCORR", at_ := 0x170, rc := bits 63 0 } ]

/-- The row of `rows` that holds a register at offset `o`. -/
def rowAt (o : Nat) : List RegRow → Option RegRow
  | [] => none
  | r :: rs =>
    if r.at_ ≤ o && o < r.at_ + r.n * r.stride && (o - r.at_) % r.stride == 0 then some r else rowAt o rs

/-- The block that holds control-space offset `k`, and the offset in it (R34). A block without a stride reaches to the next
base (DEDUCED, log 13). -/
def blockOf (k : Nat) : Option (Blk × Nat) :=
  if k < 0x10000 then some (.pkg, k)
  else if k < 0x20000 then some (.xrd, k - 0x10000)
  else if k < 0x40000 then some (.cfg, k - 0x20000)
  else if k < 0x100000 then some (.mgt, k - 0x40000)
  else if k < 0x8000000 then some (.bind, k - 0x100000)
  else if k < 0xA000000 then some (.die ((k - 0x8000000) / 0x1000000), (k - 0x8000000) % 0x1000000)
  else if k < 0x10000000 then none
  else if k < 0x11000000 then some (.clu ((k - 0x10000000) / 0x100000), (k - 0x10000000) % 0x100000)
  else if k < 0x20000000 then none
  else if k < 0x20600000 then some (.core ((k - 0x20000000) / 0x10000), (k - 0x20000000) % 0x10000)
  else if k < 0x30000000 then none
  else if k < 0x30C00000 then some (.stk ((k - 0x30000000) / 0x100000), (k - 0x30000000) % 0x100000)
  else if k < 0x40000000 then none
  else if k < 0x40800000 then some (.quay ((k - 0x40000000) / 0x100000), (k - 0x40000000) % 0x100000)
  else none

/-- The row of the register at offset `o` of a block. An active copy's entries are read-only and context 0's bank ignores
writes (R378, R380). -/
def rowOf (b : Blk) (o : Nat) : Option RegRow :=
  match b with
  | .pkg => rowAt o pkgRows
  | .xrd => rowAt o xrdRows
  | .cfg => rowAt o cfgRows
  | .mgt => rowAt o mgtRows
  | .bind =>
    if o < 0x100000 then
      let i := o % 0x10000
      if i < 0x2000 then (rowAt i bindCopyRows).map fun r => { r with rw := 0 }
      else if 0x8000 ≤ i && i < 0xA000 then
        (rowAt (i - 0x8000) bindCopyRows).map fun r => if o < 0x10000 then { r with rw := 0 } else r
      else none
    else rowAt o bindRows
  | .die _ => rowAt o dieRows
  | .clu _ => rowAt o cluRows
  | .core _ => rowAt o coreRows
  | .stk _ => rowAt o stkRows
  | .quay _ => rowAt o quayRows

/-- The row of the register at control-space offset `k`. -/
def rowOfKey (k : Nat) : Option RegRow := (blockOf k).bind fun p => rowOf p.1 p.2

/-- What a register that the state does not list holds: its reset value. -/
def regReset (k : Nat) : W64 := ((rowOfKey k).map (·.reset)).getD 0

/-- Control-space offset `o` of the PKG block. -/
def pkgK (o : Nat) : Nat := o
/-- Offset `o` of line `l` in the XRD block. -/
def xrdK (l o : Nat) : Nat := 0x10000 + 0x100 * l + o
/-- Offset `o` of the CFG block. -/
def cfgK (o : Nat) : Nat := 0x20000 + o
/-- Offset `o` of the MGT block. -/
def mgtK (o : Nat) : Nat := 0x40000 + o
/-- Offset `o` of the active bank of context `ctx` in the BIND block. -/
def bindK (ctx o : Nat) : Nat := 0x100000 + 0x10000 * ctx + o
/-- Offset `o` of the staged bank of context `ctx`. -/
def stageK (ctx o : Nat) : Nat := 0x108000 + 0x10000 * ctx + o
/-- Offset `o` of the BIND registers after the banks, from 0. -/
def bindRegK (o : Nat) : Nat := 0x200000 + o
/-- Offset `o` of the DIE block of die `d`. -/
def dieK (d o : Nat) : Nat := 0x8000000 + 0x1000000 * d + o
/-- Offset `o` of the CLU block of cluster `g`. -/
def cluK (g o : Nat) : Nat := 0x10000000 + 0x100000 * g + o
/-- Offset `o` of the CORE block of core `c`. -/
def coreK (c o : Nat) : Nat := 0x20000000 + 0x10000 * c + o
/-- Offset `o` of the STK block of stack `st`. -/
def stkK (st o : Nat) : Nat := 0x30000000 + 0x100000 * st + o
/-- Offset `o` of the QUAY block of quay `qy`. -/
def quayK (qy o : Nat) : Nat := 0x40000000 + 0x100000 * qy + o
/-- Offset `o` of the kerb bank of a context (R155). The two DIE instances show one bank; its home is die 0's. -/
def kerbK (ctx o : Nat) : Nat := 0x8300000 + 0x100 * ctx + o
/-- Offset `o` of the pipeline bank of a context (R177). -/
def pipeK (ctx o : Nat) : Nat := 0x8310000 + 0x100 * ctx + o
/-- Offset `o` of the update bank of a context (R202). -/
def updK (ctx o : Nat) : Nat := 0x8320000 + 0x100 * ctx + o
/-- Offset `o` of the fabric bank of a context (R375). -/
def fabK (ctx o : Nat) : Nat := 0x8330000 + 0x100 * ctx + o
/-- Offset `o` of the error bank of a context (R407). -/
def errK (ctx o : Nat) : Nat := 0x8340000 + 0x100 * ctx + o

end Sys2Proof.Machine
end

