-- ==== Sys2Proof/Machine/Memory.lean ====
section
/-! DEFINITION. The memories: bytes in canonical form, check tags, dead units, and the translation of local addresses
(01_structure_and_address_map.md, 13_memory_stacks_gallery_chamber.md). -/

namespace Sys2Proof.Machine

/-- The byte of memory `m` at address `a`. An unlisted byte reads 0 (DESIGN CHOICE, log 2). -/
def memByte (m : List Host.Cell) (a : Nat) : Byte := tgetD m a 0

/-- The listed cells of the bytes `bs` from address `a`: zeros are not listed. -/
def cellsOf (a : Nat) : List Byte → List Host.Cell
  | [] => []
  | b :: bs => if b = 0 then cellsOf (a + 1) bs else (a, b) :: cellsOf (a + 1) bs

/-- `m` with the bytes `bs` from address `a`. -/
def memWrite (m : List Host.Cell) (a : Nat) (bs : List Byte) : List Host.Cell :=
  m.filter (fun p => p.1 < a) ++ (cellsOf a bs ++ m.filter (fun p => a + bs.length ≤ p.1))

/-- The `n` bytes of `m` from address `a`. -/
def memRead (m : List Host.Cell) (a n : Nat) : List Byte :=
  let w := m.filter (fun p => a ≤ p.1 && p.1 < a + n)
  (List.range n).map fun i => memByte w (a + i)

/-- Keys strictly rising from above `lo`, and no listed 0. -/
def Memory.wfFrom (lo : Nat) : List Host.Cell → Bool
  | [] => true
  | (a, b) :: r => lo ≤ a && b != 0 && Memory.wfFrom (a + 1) r

/-- The canonical form of memory: addresses strictly rising, and no entry equal to what an unlisted address reads as. -/
def Memory.wf (m : List Host.Cell) : Bool := Memory.wfFrom 0 m

/-- The unsigned value of little-endian bytes (R40). -/
def leNat : List Byte → Nat
  | [] => 0
  | b :: bs => b.toNat + 256 * leNat bs

/-- The `n` little-endian bytes of `v` (R40). -/
def leBytes : Nat → Nat → List Byte
  | 0, _ => []
  | n + 1, v => BitVec.ofNat 8 v :: leBytes n (v / 256)

/-- `n` zero bytes. -/
def zeros (n : Nat) : List Byte := List.replicate n 0

/-- `bs` with its bytes from index `i` replaced by `xs`. -/
def patch (bs : List Byte) (i : Nat) (xs : List Byte) : List Byte :=
  bs.take i ++ xs ++ bs.drop (i + xs.length)

/-- 64 bytes as unit data. -/
def unitOf (bs : List Byte) : UnitData := BitVec.ofNat 512 (leNat bs)

/-- The bytes of unit data. -/
def unitBytes (u : UnitData) : List Byte := leBytes 64 u.toNat

/-- One bit of a CRC whose register is `w` bits wide. -/
def crcBit (w poly : Nat) (c : Nat) (top : Bool) : Nat :=
  let f := (c >>> (w - 1)) % 2 == 1
  let s := (c <<< 1) % 2 ^ w
  if f != top then s ^^^ poly else s

/-- One byte of a CRC, most significant bit first. -/
def crcByte (w poly : Nat) (c : Nat) (b : Byte) : Nat :=
  (List.range 8).foldl (fun c i => crcBit w poly c (b.getLsbD (7 - i))) c

/-- The check tag of the bytes of a unit (R120, R329): CRC-16, polynomial 0x8BB7, initial value 0, no reflection. -/
def checkTag (bs : List Byte) : W16 := BitVec.ofNat 16 (bs.foldl (crcByte 16 0x8BB7) 0)

/-- One byte of the reflected CRC-32 of R148. -/
def crc32Byte (c : Nat) (b : Byte) : Nat :=
  (List.range 8).foldl (fun c _ => if c % 2 == 1 then (c >>> 1) ^^^ 0xEDB88320 else c >>> 1) (c ^^^ b.toNat)

/-- CRC-32 of R148. -/
def crc32 (bs : List Byte) : Nat := bs.foldl crc32Byte 0xFFFFFFFF ^^^ 0xFFFFFFFF

/-- What a check of a unit's tag finds (R330). -/
inductive TagSt where
  | good | poisoned | mismatch
deriving DecidableEq, Repr

/-- A unit as a consumer reads it: its 64 bytes and its tag outcome. -/
structure UnitRd where
  data : List Byte
  tag : TagSt
deriving DecidableEq, Repr

/-- The value of the register at control-space offset `k`. -/
def State.reg (s : State) (k : Nat) : W64 := (tget s.regs k).getD (regReset k)

/-- `s` with the register at control-space offset `k` holding `v`. -/
def State.setReg (s : State) (k : Nat) (v : W64) : State := { s with regs := tset s.regs k v }

/-- `s` with the register at `k` back at its reset value. -/
def State.clearReg (s : State) (k : Nat) : State := { s with regs := tdel s.regs k }

/-- The field of `len` bits at bit `lo` of a register. -/
def State.regFld (s : State) (k lo len : Nat) : Nat := fld (s.reg k) lo len

/-- `s` with a field of a register set. -/
def State.setFld (s : State) (k lo len x : Nat) : State := s.setReg k (putFld (s.reg k) lo len x)

/-- Bit `n` of a register. -/
def State.regBit (s : State) (k n : Nat) : Bool := bitAt (s.reg k) n

/-- `s` with a bit of a register set to `b`. -/
def State.setBit (s : State) (k n : Nat) (b : Bool) : State := s.setReg k (putBit (s.reg k) n b)

/-- `s` with the 64-bit counter at `k` raised by `n`. -/
def State.count (s : State) (k n : Nat) : State :=
  if n = 0 then s else s.setReg k (s.reg k + BitVec.ofNat 64 n)

/-- `s` with the saturating counter field of `len` bits at bit `lo` raised by `n`. -/
def State.countSat (s : State) (k lo len n : Nat) : State :=
  s.setFld k lo len (min (s.regFld k lo len + n) (2 ^ len - 1))

/-- `s` with the first-error register at `k` holding `v`, unless its VALID bit (bit 63) is 1. -/
def State.first (s : State) (k : Nat) (v : W64) : State :=
  if s.regBit k 63 then s else s.setReg k (putBit v 63 true)

/-- Cluster `g` is enabled by the fuses (R2, R5). -/
def State.present (s : State) (g : Nat) : Bool := g < 16 && bitAt s.fuses.ident (32 + g)

/-- Stacks are 12-high: grade C (R4, R5). -/
def State.short (s : State) : Bool := fld s.fuses.ident 16 8 == 0x0C

/-- The unit with identifier `t` (R395) is disabled (R400). -/
def State.isDisabled (s : State) (t : Nat) : Bool := s.disabled.contains (BitVec.ofNat 16 t)

/-- Cluster `g` is neither absent in the grade nor disabled (R3). -/
def State.cluUp (s : State) (g : Nat) : Bool := s.present g && !s.isDisabled (0x7000 + g)

/-- Core `c` is neither absent nor disabled (R300). -/
def State.coreUp (s : State) (c : Nat) : Bool := s.cluUp (c / 6) && !s.isDisabled (0x6000 + c)

/-- Domain `b` of die `d` (0 core, 1 plaza, 2 management) hangs: it ran from the PLL when a legacy switch found that clock stopped, and
receives no clock (R411, R416, R433; what stands still then: DEDUCED, log 95). -/
def State.domHung (s : State) (d b : Nat) : Bool := s.regBit (dieK d 0x360000) 62 && s.regBit (dieK d 0x360000) b

/-- Core `c` receives no clock (R411, R416). -/
def State.coreHung (s : State) (c : Nat) : Bool := s.domHung (c / 48) 0

/-- Base of the stack, gallery, chamber and instruction-memory regions' ends in the local map (R23). -/
def stackEnd : Nat := 0xC000000000
def galBase : Nat := 0x10000000000
def galEnd : Nat := 0x10080000000
def chamBase : Nat := 0x20000000000
def chamEnd : Nat := 0x20018000000
def imemBase : Nat := 0x30000000000
def imemEnd : Nat := 0x30001800000

/-- Physical address of offset `o` of the chamber of core `c`. -/
def chamPa (c o : Nat) : Nat := chamBase + c * 0x400000 + o

/-- Physical address of byte `o` of the instruction memory of core `c`. -/
def imemPa (c o : Nat) : Nat := imemBase + c * 0x40000 + o

/-- The region of R23 that holds a local offset: 0 stacks, 1 gallery, 2 chamber windows, 3 instruction-memory windows (less
their reserved upper 64 KiB, R26); none: reserved. -/
def regionOf (o : Nat) : Option Nat :=
  if o < stackEnd then some 0
  else if galBase ≤ o && o < galEnd then some 1
  else if chamBase ≤ o && o < chamEnd then some 2
  else if imemBase ≤ o && o < imemEnd && o % 0x40000 < 0x30000 then some 3
  else none

/-- The pseudo-channel of a physical stack address (R323). -/
def pchOf (pa : Nat) : Nat :=
  let u := (pa % 0x1000000000) >>> 8
  (u ^^^ (u >>> 6) ^^^ (u >>> 12) ^^^ (u >>> 18) ^^^ (u >>> 24)) % 64

/-- The byte address of a physical stack address within its pseudo-channel (R323). -/
def yOf (pa : Nat) : Nat :=
  let x := pa % 0x1000000000
  (x >>> 14) * 256 + x % 256

/-- The physical stack address of byte `y` of pseudo-channel `p` of stack `st`: R323 read backwards. -/
def paOf (st p y : Nat) : Nat :=
  let v := y >>> 8
  let h := v ^^^ (v >>> 6) ^^^ (v >>> 12) ^^^ (v >>> 18)
  st * 0x1000000000 + (v * 64 + (p ^^^ (h % 64))) * 256 + y % 256

/-- How a memory that does not answer delivers a unit. -/
inductive Dead where
  /-- poisoned zeros; writes are discarded (R325, R326, R400) -/
  | poison
  /-- the same, and discarded writes count in STK_UNCORR (R337) -/
  | offline
  /-- zeros; writes are discarded (R28, R400) -/
  | zero
deriving DecidableEq, Repr

/-- Whether the memory behind physical address `pa` answers, and how it fails to (R28, R325, R326, R337, R400). -/
def State.deadAt (s : State) (pa : Nat) : Option Dead :=
  if pa < stackEnd then
    let st := pa / 0x1000000000
    if s.regBit (stkK st 0) 0 then some .offline
    else if s.regBit (stkK st 0x8) 1 || s.regBit (stkK st 0x8) (32 + pchOf pa / 2) || s.isDisabled (0x9000 + st)
      || s.faults.granules.contains (pa / 0x40000000) then some .poison
    else none
  else if pa < galEnd then
    if s.cluUp ((pa - galBase) / 0x8000000) then none else some .poison
  else if pa < chamEnd then
    if s.coreUp ((pa - chamBase) / 0x400000) then none else some .zero
  else
    if s.coreUp ((pa - imemBase) / 0x40000) then none else some .zero

/-- The tag outcome of the unit that holds `pa` (R330). Instruction memory carries no tags (R329, R342). -/
def State.tagAt (s : State) (pa : Nat) : TagSt :=
  match tgetD s.tags (pa / 64) 0 with
  | 0 => .good
  | 0xFFFF => .poisoned
  | _ => .mismatch

/-- The unit that holds physical address `pa`, as read. -/
def State.readUnit (s : State) (pa : Nat) : UnitRd :=
  match s.deadAt pa with
  | some .zero => { data := zeros 64, tag := .good }
  | some _ => { data := zeros 64, tag := .poisoned }
  | none => { data := memRead s.mem (pa / 64 * 64) 64, tag := s.tagAt pa }

/-- `s` with a whole unit at `pa` written with tag state `x`: stored tag XOR computed tag (R331). A write that reaches the
base die first cancels a pending write-back (R328). -/
def State.writeUnitX (s : State) (pa : Nat) (bs : List Byte) (x : W16) : State :=
  match s.deadAt pa with
  | some .offline => s.count (stkK (pa / 0x1000000000) 0x28) 1
  | some _ => s
  | none =>
    { s with
      mem := memWrite s.mem (pa / 64 * 64) (bs.take 64)
      tags := if x = 0 then tdel s.tags (pa / 64) else tset s.tags (pa / 64) x
      bases := if pa < stackEnd then
          match tget s.bases (pa / 0x1000000000) with
          | some k => tset s.bases (pa / 0x1000000000) { k with writebacks := k.writebacks.filter (· != pa / 64 * 64) }
          | none => s.bases
        else s.bases }

/-- `s` with a whole unit at `pa` written, poisoned or with a good tag (R330, R331). -/
def State.writeUnit (s : State) (pa : Nat) (bs : List Byte) (poison : Bool) : State :=
  s.writeUnitX pa bs (if poison then 0xFFFF else 0)

/-- `s` with the bytes `bs` written at `pa`, all in one unit: a masked write that keeps poison (R332), or a whole-unit write. -/
def State.writePart (s : State) (pa : Nat) (bs : List Byte) (poison : Bool := false) : State :=
  if pa % 64 = 0 && bs.length = 64 then s.writeUnit pa bs poison
  else
    let u := s.readUnit pa
    s.writeUnit pa (patch u.data (pa % 64) bs) (poison || u.tag != .good)

/-- `s` with bytes written from `pa`, unit by unit; `n` bounds the number of units. -/
def State.writeBytesN (s : State) (pa : Nat) (bs : List Byte) : Nat → State
  | 0 => s
  | n + 1 =>
    if bs = [] then s
    else
      let k := 64 - pa % 64
      (s.writePart pa (bs.take k)).writeBytesN (pa + k) (bs.drop k) n

/-- `s` with bytes written from `pa`. -/
def State.writeBytes (s : State) (pa : Nat) (bs : List Byte) : State := s.writeBytesN pa bs (bs.length / 64 + 2)

/-- The worse of two tag outcomes: the first that is not good. -/
def TagSt.or (a b : TagSt) : TagSt := if a = .good then b else a

/-- The units that `n` bytes from `pa` touch. -/
def unitsOf (pa n : Nat) : List Nat :=
  if n = 0 then [] else (List.range ((pa + n - 1) / 64 - pa / 64 + 1)).map fun i => (pa / 64 + i) * 64

/-- `n` bytes from `pa`, with the first bad tag outcome of the units they lie in. -/
def State.readBytes (s : State) (pa n : Nat) : UnitRd :=
  let us := (unitsOf pa n).map s.readUnit
  { data := ((us.map (·.data)).flatten.drop (pa % 64)).take n, tag := us.foldl (fun t u => t.or u.tag) .good }

/-- The global address of the first bad unit of `n` bytes from `pa`, as an offset from `pa`'s unit. -/
def State.firstBad (s : State) (pa n : Nat) : Option Nat :=
  (unitsOf pa n).find? fun u => (s.readUnit u).tag != .good

/-- Where an address leads (R19 to R28). -/
inductive Place where
  /-- physical memory -/
  | mem (pa : Nat)
  /-- a slot that the context has not bound (R27) -/
  | miss
  /-- reserved: ADDR_INVALID (R20, R23) -/
  | bad
  /-- another device -/
  | remote (dev off : Nat)
  /-- control space -/
  | control (off : Nat)
deriving DecidableEq, Repr

/-- The global cluster of virtual cluster `v` of context `ctx` (R25, R28). -/
def State.cluOf (s : State) (ctx v : Nat) : Option Nat :=
  if ctx = 0 then (if v < 16 then some v else none)
  else if v < 16 && s.regBit (bindK ctx (8 * v)) 63 then some (s.regFld (bindK ctx (8 * v)) 0 4) else none

/-- The physical share of virtual share `v` (R24, R28). -/
def State.shareOf (s : State) (ctx v : Nat) : Option Nat :=
  if ctx = 0 then (if v < 16 then some v else none)
  else if v < 16 && s.regBit (bindK ctx (0x100 + 8 * v)) 63 then some (s.regFld (bindK ctx (0x100 + 8 * v)) 0 4) else none

/-- The physical granule of virtual granule `v`. Context 0 sees the identity, less the absent slots of grade C (R28, R29). -/
def State.granOf (s : State) (ctx v : Nat) : Option Nat :=
  if ctx = 0 then (if v < 768 && !(s.short && 48 ≤ v % 64) then some v else none)
  else if v < 768 && s.regBit (bindK ctx (0x800 + 8 * v)) 63 then some (s.regFld (bindK ctx (0x800 + 8 * v)) 0 10)
  else none

/-- The place of local offset `o` in context `ctx` (R23 to R28). -/
def State.localPlace (s : State) (ctx o : Nat) : Place :=
  match regionOf o with
  | some 0 =>
    match s.granOf ctx (o / 0x40000000) with
    | some g => .mem (g * 0x40000000 + o % 0x40000000)
    | none => .miss
  | some 1 =>
    match s.shareOf ctx ((o - galBase) / 0x8000000) with
    | some g => .mem (galBase + g * 0x8000000 + o % 0x8000000)
    | none => .miss
  | some 2 =>
    let n := (o - chamBase) / 0x400000
    match s.cluOf ctx (n / 6) with
    | some g => .mem (chamPa (6 * g + n % 6) (o % 0x400000))
    | none => .miss
  | some _ =>
    let n := (o - imemBase) / 0x40000
    match s.cluOf ctx (n / 6) with
    | some g => .mem (imemPa (6 * g + n % 6) (o % 0x40000))
    | none => .miss
  | none => .bad

/-- The place of a global address in context `ctx` (R19, R20, R22). -/
def State.place (s : State) (ctx : Nat) (a : Nat) : Place :=
  let o := a % 0x400000000000
  let mid := a / 0x400000000000 % 0x10000
  match a / 0x4000000000000000 with
  | 0 => if mid = 0 then s.localPlace ctx o else .bad
  | 1 => if mid = s.fuses.device then s.localPlace ctx o else .remote mid o
  | 2 => if mid = 0 then .control o else .bad
  | _ => .bad

/-- The re-bind under way, when its fence has been passed (R382). -/
def State.fenced (s : State) : Option Rebind := s.rebind.filter fun r => r.phase != .drain

/-- A re-bind has unbound semaphore `i` of die `d`, or queue pair `n`, and its swap has not come (R382). -/
def State.fencedDsem (s : State) (d i : Nat) : Bool :=
  match s.fenced with
  | some r => r.dsems.contains (d, i)
  | none => false
def State.fencedQp (s : State) (n : Nat) : Bool :=
  match s.fenced with
  | some r => r.qps.contains n
  | none => false

/-- The virtual cluster of context `ctx` that names global cluster `g`. -/
def State.vcluOf (s : State) (ctx g : Nat) : Option Nat :=
  (List.range 16).find? fun v => s.cluOf ctx v == some g

/-- The entry of an active binding copy, among the offsets `lo` to `hi` - 1 with the field of `len` low bits, that names
physical unit `x`: its context and slot. -/
def State.binder (s : State) (lo hi len x : Nat) : Option (Nat × Nat) :=
  s.regs.findSome? fun p =>
    let o := p.1 - 0x100000
    if 0x110000 ≤ p.1 && p.1 < 0x200000 && lo ≤ o % 0x10000 && o % 0x10000 < hi && bitAt p.2 63 && fld p.2 0 len == x
    then some (o / 0x10000, (o % 0x10000 - lo) / 8) else none

/-- The context that cluster `g` is bound to; 0 when none of contexts 1 to 15 holds it (R377, R378). -/
def State.ctxOfClu (s : State) (g : Nat) : Nat := ((s.binder 0 0x80 4 g).map (·.1)).getD 0

/-- The context that core `c` works for. -/
def State.ctxOf (s : State) (c : Nat) : Nat := s.ctxOfClu (c / 6)

/-- The context that owns the memory at `pa`; 0 when none of contexts 1 to 15 does. -/
def State.ctxOfPa (s : State) (pa : Nat) : Nat :=
  if pa < stackEnd then ((s.binder 0x800 0x2000 10 (pa / 0x40000000)).map (·.1)).getD 0
  else if pa < galEnd then ((s.binder 0x100 0x180 4 ((pa - galBase) / 0x8000000)).map (·.1)).getD 0
  else if pa < chamEnd then s.ctxOf ((pa - chamBase) / 0x400000)
  else s.ctxOf ((pa - imemBase) / 0x40000)

/-- The global address that names offset `o` of the chamber of core `c` in its own context. -/
def State.chamAddr (s : State) (c o : Nat) : Nat :=
  chamBase + (6 * (s.vcluOf (s.ctxOf c) (c / 6)).getD (c / 6) + c % 6) * 0x400000 + o

/-- The unit at a local address of a context, as the reader of a table takes it: where no binding leads, good zeros (R23, R27). -/
def State.unitAt (s : State) (ctx a : Nat) : UnitRd :=
  match s.localPlace ctx a with
  | .mem pa => s.readUnit pa
  | _ => { data := zeros 64, tag := .good }

/-- Bytes of a context's table at its local address, each unit translated on its own (R32), with the first bad tag outcome. -/
def State.tableRead (s : State) (ctx addr n : Nat) : UnitRd :=
  let us := (unitsOf addr n).map (s.unitAt ctx)
  { data := ((us.map (·.data)).flatten.drop (addr % 64)).take n, tag := us.foldl (fun t u => t.or u.tag) .good }

/-- The first bad unit of a context's table read. -/
def State.firstBadIn (s : State) (ctx addr n : Nat) : Nat :=
  ((unitsOf addr n).find? fun a => (s.unitAt ctx a).tag != .good).getD addr

/-- The first of a list of local addresses that leads to no memory, and where it leads (R23, R27). -/
def State.badPlace (s : State) (ctx : Nat) (as : List Nat) : Option (Nat × Place) :=
  as.findSome? fun a =>
    match s.localPlace ctx a with
    | .mem _ => none
    | p => some (a, p)

end Sys2Proof.Machine
end

