-- ==== Sys2Proof/Machine/Sha.lean ====
section
/-! DEFINITION. SHA-256 over lists of bytes and the MAC built on it (R387, R438): the manual names them by their standards, which give
the constants as fractional parts of roots of primes. -/

namespace Sys2Proof.Machine

/-- The big-endian value of bytes. -/
def beNat (bs : List Byte) : Nat := bs.foldl (fun n b => n * 256 + b.toNat) 0

/-- The `n` big-endian bytes of `v`. -/
def beBytes : Nat → Nat → List Byte
  | 0, _ => []
  | n + 1, v => BitVec.ofNat 8 (v / 256 ^ n) :: beBytes n v

/-- The first `n` pieces of `k` bytes. -/
def pieces (k : Nat) : Nat → List Byte → List (List Byte)
  | 0, _ => []
  | n + 1, bs => bs.take k :: pieces k n (bs.drop k)

/-- The largest `r` below `2 ^ n`, above what is found in `r` already, whose `d`-th power is at most `x`. -/
def rootFrom (d x : Nat) : Nat → Nat → Nat
  | 0, r => r
  | n + 1, r => if (r + 2 ^ n) ^ d ≤ x then rootFrom d x n (r + 2 ^ n) else rootFrom d x n r

/-- The first 32 bits of the fractional part of the `d`-th root of `p`. -/
def rootWord (d p : Nat) : BitVec 32 := BitVec.ofNat 32 (rootFrom d (p * 2 ^ (32 * d)) 38 0)

/-- The primes of which the standard takes roots: its rounds use 64, its initial value 8. -/
def shaPrimes : List Nat := (List.range 312).filter fun p => 2 ≤ p && (List.range 18).all fun d => d < 2 || p == d || p % d != 0

/-- The constants of the rounds, and the initial value. -/
def shaK : List (BitVec 32) := shaPrimes.map (rootWord 3)
def shaInit : List (BitVec 32) := (shaPrimes.take 8).map (rootWord 2)

/-- The XOR of three rotations of a word. -/
def turns (i j k : Nat) (x : BitVec 32) : BitVec 32 := x.rotateRight i ^^^ (x.rotateRight j ^^^ x.rotateRight k)

/-- The XOR of two rotations of a word and its shift. -/
def turnShift (i j k : Nat) (x : BitVec 32) : BitVec 32 := x.rotateRight i ^^^ (x.rotateRight j ^^^ (x >>> k))

/-- `n` more words of the message schedule, whose last sixteen words are `w`, newest first. -/
def shaExpand : Nat → List (BitVec 32) → List (BitVec 32)
  | 0, w => w
  | n + 1, w =>
    let at_ := fun i => w.getD i 0
    shaExpand n ((at_ 15 + turnShift 7 18 3 (at_ 14) + at_ 6 + turnShift 17 19 10 (at_ 1)) :: w)

/-- One round on the working variables, in the order of the standard. `kw`: the sum of the round's constant and its schedule word. -/
def shaRound (v : List (BitVec 32)) (kw : BitVec 32) : List (BitVec 32) :=
  let x := fun i => v.getD i 0
  let pick := x 6 ^^^ (x 4 &&& (x 5 ^^^ x 6))
  let most := (x 0 &&& (x 1 ||| x 2)) ||| (x 1 &&& x 2)
  let t := kw + x 7 + pick + turns 6 11 25 (x 4)
  [t + most + turns 2 13 22 (x 0), x 0, x 1, x 2, t + x 3, x 4, x 5, x 6]

/-- The hash value after one 64-byte block. -/
def shaBlock (h : List (BitVec 32)) (block : List Byte) : List (BitVec 32) :=
  let w := shaExpand 48 (((pieces 4 16 block).map fun p => BitVec.ofNat 32 (beNat p)).reverse)
  h.zipWith (· + ·) ((shaK.zipWith (· + ·) w.reverse).foldl shaRound h)

/-- A message with its padding: a one bit, zeros, and its length in bits. -/
def shaPad (bs : List Byte) : List Byte :=
  bs ++ (0x80 :: List.replicate ((119 - bs.length % 64) % 64) 0) ++ beBytes 8 (8 * bs.length)

/-- The 32 bytes of the SHA-256 digest. -/
def sha256 (bs : List Byte) : List Byte :=
  let p := shaPad bs
  (((pieces 64 (p.length / 64) p).foldl shaBlock shaInit).map fun w => beBytes 4 w.toNat).flatten

/-- The 32 bytes of HMAC-SHA-256 under a 32-byte key. -/
def hmac256 (key msg : List Byte) : List Byte :=
  let k := key ++ List.replicate (64 - key.length) 0
  sha256 (k.map (· ^^^ 0x5C) ++ sha256 (k.map (· ^^^ 0x36) ++ msg))

end Sys2Proof.Machine
end

