-- ==== Sys2Proof/Machine/Ops.lean ====
section
/-! DEFINITION. Named operations shared by the commands: queues, reports, self-test triggers, poison, queue faults
(09_queues_and_program_images.md, 16_error_control_and_recovery.md). -/

namespace Sys2Proof.Machine

/-- The number of a queue (R225). -/
def qnum : Queue → Nat
  | .mqf => 0 | .mqb => 1 | .vec => 2 | .ldm => 3 | .stm => 4 | .upq => 5

/-- The six queues in number order. -/
def allQueues : List Queue := [.mqf, .mqb, .vec, .ldm, .stm, .upq]

/-- The in-flight limit of a queue (R225). -/
def inflightLimit : Queue → Nat
  | .mqf => 2 | .mqb => 2 | .vec => 4 | .ldm => 8 | .stm => 8 | .upq => 16

/-- Queue `q` of core `c`. -/
def State.queue (s : State) (c : Nat) (q : Queue) : QState := tgetD s.queues (6 * c + qnum q) {}

/-- `s` with queue `q` of core `c` replaced. -/
def State.setQueue (s : State) (c : Nat) (q : Queue) (x : QState) : State :=
  { s with queues := tset s.queues (6 * c + qnum q) x }

/-- Control-space offset `o` of the bank of queue `q` of core `c` (R240). -/
def qK (c : Nat) (q : Queue) (o : Nat) : Nat := coreK c (0x100 + 0x100 * qnum q + o)

/-- Scalar register `i` of a queue (R232). -/
def State.sreg (s : State) (c : Nat) (q : Queue) (i : Nat) : W64 := s.reg (qK c q (0x80 + 8 * i))

/-- `s` with scalar register `i` of a queue holding `v`. -/
def State.setSreg (s : State) (c : Nat) (q : Queue) (i : Nat) (v : W64) : State := s.setReg (qK c q (0x80 + 8 * i)) v

/-- The committed step C of a context: UPD_STEP.CSTEP (R202). -/
def State.cstep (s : State) (ctx : Nat) : Nat := s.regFld (updK ctx 0x10) 32 32

/-- The configuration epoch E (R388). -/
def State.epoch (s : State) : BitVec 32 := BitVec.ofNat 32 (s.regFld (cfgK 0x18) 0 32)

/-- What a report names beside its kind, code and source (R393). -/
structure RepInfo where
  context : Nat := 0xFF
  queue : Nat := 0xFF
  pc : BitVec 14 := 0
  optag : W16 := 0
  addr : W64 := 0
  detail : W64 := 0
  verdict : Nat := 0
  count : Nat := 1

/-- Type and index of a unit identifier (R395). -/
def srcType (u : W16) : Nat := u.toNat / 4096
def srcIndex (u : W16) : Nat := u.toNat % 4096
def srcOf (t i : Nat) : W16 := BitVec.ofNat 16 (t * 4096 + i)

/-- The die whose grotto controller tests and lists a unit (R14, R399, R408). -/
def dieOf (u : W16) : Nat :=
  let i := srcIndex u
  match srcType u with
  | 0x7 => i / 8
  | 0x8 => i / 64 / 6
  | 0x9 => i / 6
  | 0xA => i / 4
  | 0xB => 0
  | 0xC => 0
  | _ => i / 48

/-- The timestamp counter of a die (R412). -/
def State.timeOf (s : State) (d : Nat) : W64 := if d = 0 then s.time else s.time1

/-- The record that a report makes (R393), with the next sequence number. -/
def State.recordOf (s : State) (kind : Nat) (code source : W16) (i : RepInfo) : Record :=
  { seq := BitVec.ofNat 32 (s.regFld (dieK 0 0x350010) 32 32 + 1), code := code, kind := kind, verdict := i.verdict,
    time := s.timeOf (dieOf source), source := source, context := i.context, queue := i.queue, pc := i.pc, optag := i.optag,
    count := min i.count 0xFFFF, step := if i.context < 16 then BitVec.ofNat 32 (s.cstep i.context) else 0,
    addr := i.addr, detail := i.detail, epoch := s.epoch }

/-- The management port is up: after boot, or in RECOVERY (R431, R437), while die 0's controller has a clock (R416, R435). -/
def State.portUp (s : State) : Bool := (s.boot == .ready || s.boot == .recovery) && !s.domHung 0 2

/-- Kinds of records that merge (R396). -/
def mergesKind (k : Nat) : Bool := k = 2 || k = 3 || k = 4 || k = 5 || k = 0xA

/-- A record may still merge with a later one: its kind merges, and 1 ms has not passed since its occurrence (R396). -/
def State.mayMerge (s : State) (r : Record) : Bool := mergesKind r.kind && (s.timeOf (dieOf r.source) - r.time).toNat ≤ 500000

/-- The record numbered `q` as the ring holds it. -/
def State.held (s : State) (q : BitVec 32) : Option Record := s.ring.find? (·.seq == q)

/-- The bytes of a management datagram that its MAC covers, for its own MAGIC and VER (R438). -/
def macBytes (cmd : BitVec 8) (seq : W64) (payload : List Byte) : List Byte :=
  [0x4D, 0x47, 0x4D, 0x31, 0x01, cmd] ++ beBytes 2 payload.length ++ beBytes 8 seq.toNat ++ payload

/-- The MAC of a management datagram under a key (R438). -/
def macOf (key : BitVec 256) (cmd : BitVec 8) (seq : W64) (payload : List Byte) : BitVec 128 :=
  BitVec.ofNat 128 (beNat ((hmac256 (beBytes 32 key.toNat) (macBytes cmd seq payload)).take 16))

/-- The MAC of a datagram that the management port sends: zeros when no key is installed (R438). -/
def State.macNow (s : State) (cmd : BitVec 8) (seq : W64) (payload : List Byte) : BitVec 128 :=
  match s.mgmt.key with
  | some k => macOf k cmd seq payload
  | none => 0

/-- The 64 bytes of a report record (R393). -/
def State.recordBytes (s : State) (r : Record) : List Byte :=
  let noq := r.queue = 0xFF
  leBytes 4 r.seq.toNat ++ leBytes 2 r.code.toNat ++ leBytes 1 r.kind ++ leBytes 1 r.verdict ++ leBytes 8 r.time.toNat ++
    leBytes 2 s.fuses.device ++ leBytes 2 r.source.toNat ++ leBytes 1 r.context ++ leBytes 1 r.queue ++
    leBytes 2 (if noq then 0 else r.pc.toNat) ++ leBytes 2 (if noq then 0 else r.optag.toNat) ++ leBytes 2 r.count ++
    leBytes 4 r.step.toNat ++ leBytes 8 r.addr.toNat ++ leBytes 8 r.detail.toNat ++ leBytes 4 r.epoch.toNat ++ zeros 12

/-- The address that a pair of management registers holds: an IPv4 address lies in bits 31 to 0 of the second (R452). -/
def State.addrAt (s : State) (k : Nat) : BitVec 128 := (s.reg k) ++ (s.reg (k + 8))

/-- The collector: MGT_COLLECT_H, MGT_COLLECT_L and MGT_CTRL.CPORT (R441). -/
def State.collector (s : State) : MgmtPeer := { addr := s.addrAt (mgtK 0x10), port := BitVec.ofNat 16 (s.regFld (mgtK 0) 16 16) }

/-- The datagram of a report record, after `n` things have left the block (R438, R441). -/
def State.recordTx (s : State) (n : Nat) (r : Record) : Tx :=
  .record s.collector r (Config.ownSeq n) (s.macNow 0xC0 (Config.ownSeq n) (s.recordBytes r))

/-- `s` with the records of a list of numbers sent as datagrams, up to the first that may still merge (R396). A record keeps its ring
slot under MGT_CTRL.ACKREQ until it is acknowledged (R441). -/
def State.sendFirst (s : State) : List (BitVec 32) → State
  | [] => { s with unsent := [] }
  | q :: l =>
    match s.held q with
    | none => s.sendFirst l
    | some r =>
      if s.mayMerge r then { s with unsent := q :: l }
      else ({ s with ring := if s.regBit (mgtK 0) 63 then s.ring else s.ring.filter (·.seq != q), tx := s.recordTx s.tx.length r :: s.tx } : State).sendFirst l

/-- `s` with every record sent that is due, in SEQ order, once the management port is up (R396, R431, R441). -/
def State.sendDue (s : State) : State := if s.portUp then s.sendFirst s.unsent else s

/-- `s` with a record written, and ERR_RPT.SEQ and ERR_CTX_REPORTS moved on (R393, R407, R408). -/
def State.pushRecord (s : State) (kind : Nat) (code source : W16) (i : RepInfo) : State :=
  let r := s.recordOf kind code source i
  let s := ({ s with ring := s.ring ++ [r], unsent := s.unsent ++ [r.seq] } : State).setFld (dieK 0 0x350010) 32 32 r.seq.toNat
  if i.context < 16 then s.count (errK i.context 0x10) 1 else s

/-- A record raised by one occurrence, when it is the record numbered `q` (R396). -/
def raiseCount (q : BitVec 32) (r : Record) : Record :=
  if r.seq = q then { r with count := min (r.count + 1) 0xFFFF } else r

/-- The unsent record that a report merges into (R396). -/
def State.mergeWith (s : State) (kind : Nat) (code source : W16) : Option Record :=
  s.ring.find? fun r => s.unsent.contains r.seq && r.kind == kind && r.code == code && r.source == source && s.mayMerge r

/-- `s` with a report made: merged into an earlier record of the same kind, code and source within 1 ms, dropped and counted
when the ring is full, or written; the first record that finds space again is preceded by one of kind 0x09 (R396). -/
def State.report (s : State) (kind : Nat) (code source : W16) (i : RepInfo := {}) : State :=
  match s.mergeWith kind code source with
  | some r => { s with ring := s.ring.map (raiseCount r.seq) }
  | none =>
    if 4096 ≤ s.ring.length + (if s.lostSince = 0 then 0 else 1) then
      { s.countSat (dieK 0 0x350010) 0 32 1 with lostSince := s.lostSince + 1 }
    else
      let s := if s.lostSince = 0 then s
        else { s.pushRecord 0x09 0 0xC000 { count := s.lostSince } with lostSince := 0 }
      (s.pushRecord kind code source i).sendDue

/-- Die `d`'s state. -/
def State.die (s : State) (d : Nat) : DieSt := tgetD s.dies d {}
def State.setDie (s : State) (d : Nat) (x : DieSt) : State := { s with dies := tset s.dies d x }

/-- Base die `st`'s state. -/
def State.stack (s : State) (st : Nat) : StackSt := tgetD s.bases st {}
def State.setStack (s : State) (st : Nat) (x : StackSt) : State := { s with bases := tset s.bases st x }

/-- The unit is disabled, by itself or with the core, cluster or stack that holds it (R397 to R400). -/
def State.unitOff (s : State) (u : W16) : Bool :=
  let i := srcIndex u
  match srcType u with
  | 0x7 => !s.cluUp i
  | 0x8 => s.isDisabled (0x9000 + i / 64)
  | 0x1 | 0x2 | 0x3 | 0x4 | 0x5 | 0x6 => s.disabled.contains u || !s.coreUp i
  | _ => s.disabled.contains u

/-- The unit is under self-test now, and takes no instructions (R397). -/
def State.underTest (s : State) (u : W16) : Bool := (s.die (dieOf u)).running.map (·.source) == some u

/-- The first-error register of a unit, as a record's DETAIL copies it (R393): a core has one for each queue, and none of its own (DEDUCED,
log 94). -/
def State.firstError (s : State) (u : W16) : W64 :=
  let i := srcIndex u
  match srcType u with
  | 0x1 | 0x2 => s.reg (coreK i 0x930)
  | 0x3 => s.reg (coreK i 0xB28)
  | 0x7 => s.reg (cluK i 0x2010)
  | 0x8 => s.reg (stkK (i / 64) 0x30)
  | 0x9 => s.reg (stkK i 0x30)
  | 0xA => s.reg (quayK i 0x50)
  | _ => 0

/-- `s` with a record of kind 0x06 about a unit's self-test (R398). -/
def State.verdict (s : State) (u : W16) (v addr : Nat) : State :=
  s.report 0x06 0 u { verdict := v, addr := BitVec.ofNat 64 addr, detail := s.firstError u }

/-- `s` with a transient verdict kept for a unit in the fault table (R398). -/
def State.keepVerdict (s : State) (u : W16) : State :=
  { s with faults := { s.faults with verdicts := s.faults.verdicts ++ [(u, s.faults.hours)] } }

/-- `s` with a trigger of a self-test taken (R397 to R399): queued, or not run with its verdict. -/
def State.trigger (s : State) (u code : W16) (addr : Nat) : State :=
  let d := dieOf u
  let k := s.die d
  if s.unitOff u then s.verdict u 6 addr
  else if (k.tests ++ k.running.toList).any (fun t => t.source == u) then s
  else if !s.regBit (dieK d 0x350000) 63 then
    (s.keepVerdict u).verdict u 5 addr
  else if 64 ≤ k.tests.length then
    ((s.countSat (dieK d 0x350008) 0 32 1).keepVerdict u).verdict u 4 addr
  else s.setDie d { k with tests := k.tests ++ [{ source := u, code := code, addr := addr }] }

/-- The unit that a bad memory unit at physical address `pa` implicates (R397). -/
def memSource (pa : Nat) : W16 :=
  if pa < stackEnd then srcOf 0x8 (pa / 0x1000000000 * 64 + pchOf pa)
  else if pa < galEnd then srcOf 0x7 ((pa - galBase) / 0x8000000)
  else if pa < chamEnd then srcOf 0x6 ((pa - chamBase) / 0x400000)
  else srcOf 0x6 ((pa - imemBase) / 0x40000)

/-- `s` with ERR_CTX.POISONED of a context risen, and PSTEP with it (R403). -/
def State.poisoned (s : State) (ctx : Nat) : State :=
  if s.regBit (errK ctx 0) 63 then s
  else (s.setBit (errK ctx 0) 63 true).setFld (errK ctx 0) 0 32 (s.cstep ctx + 1)

/-- `s` after an engine, mover or vector engine of core `c` has written `n` units poisoned (R333, R403). -/
def State.wrotePoison (s : State) (c n : Nat) : State :=
  if n = 0 then s else (s.count (coreK c 0xD10) n).poisoned (s.ctxOf c)

/-- `s` with the first bad read of a core recorded in CORE_MEM_ERR and CORE_MEM_ADDR: the address of the unit, or of the instruction for a
fetch (KIND 2, R344). -/
def State.memErr (s : State) (c : Nat) (q : Queue) (kind : Nat) (pc : BitVec 14) (optag : W16) (addr : Nat) : State :=
  if s.regBit (coreK c 0xD00) 63 then s
  else
    let v := putFld (putFld (putFld (putFld (putBit 0 63 true) 60 3 (qnum q)) 58 2 kind) 32 14 pc.toNat) 16 16 optag.toNat
    (s.setReg (coreK c 0xD00) v).setReg (coreK c 0xD08) (BitVec.ofNat 64 (if kind = 2 then addr else addr / 64 * 64))

/-- A queue counts as stopped (R226). -/
def QState.stopped (x : QState) : Bool :=
  match x.mode with
  | .idle => x.inflight == []
  | .ready => true
  | .stopped => x.inflight == []
  | .halted => true
  | .faulted => x.inflight == []
  | _ => false

/-- Each of a core's six queues counts as stopped (R226). -/
def State.coreStopped (s : State) (c : Nat) : Bool := allQueues.all fun q => (s.queue c q).stopped

/-- STOP of a queue (R237): no further issue; the wait is abandoned. -/
def QState.stop (x : QState) : QState :=
  match x.mode with
  | .running | .waiting | .held => { x with mode := .stopped, wcause := .none, fetched := none, lineWait := none }
  | _ => x

/-- START of a queue (R237). -/
def QState.start (x : QState) : QState :=
  match x.mode with
  | .ready | .stopped | .held | .faulted => { x with mode := .running, wcause := .none, fetched := none, lineWait := none }
  | _ => x

/-- STOP of a set of queues of a core. -/
def State.stopQueues (s : State) (c : Nat) (qs : List Queue) : State :=
  qs.foldl (fun s q => s.setQueue c q (s.queue c q).stop) s

/-- START of a set of queues of a core. -/
def State.startQueues (s : State) (c : Nat) (qs : List Queue) : State :=
  qs.foldl (fun s q => s.setQueue c q (s.queue c q).start) s

/-- STOP of every queue of a core. -/
def State.stopCore (s : State) (c : Nat) : State := s.stopQueues c allQueues

/-- CORE_Q_FAULT as it records a fault (R240). `det`: a detected error, not a refusal. -/
def faultWord (det : Bool) (code optag : W16) (pc : BitVec 14) : W64 :=
  putFld (putFld (putFld (putBit (putBit 0 63 true) 62 det) 32 16 code.toNat) 16 16 optag.toNat) 0 14 pc.toNat

/-- The unit type of R395 whose queue `q` is: VEC, LDM and STM are units of their own, the other queues belong to the core (DEDUCED,
log 54). -/
def unitType : Queue → Nat
  | .vec => 3
  | .ldm => 4
  | .stm => 5
  | .mqf | .mqb | .upq => 6

/-- `s` with queue `q` of core `c` entering FAULTED (R231): CORE_Q_FAULT keeps the first fault, the other queues stop under
FSTOP, and management gets a record of kind 0x01. `addr` is the bad unit that caused it (R393); `unit` names the source and its
first-error register. -/
def State.enterFault (s : State) (c : Nat) (q : Queue) (det : Bool) (code optag : W16) (pc : BitVec 14) (addr : W64 := 0)
    (unit : Option (W16 × W64) := none) : State :=
  let s := s.setQueue c q { s.queue c q with mode := .faulted, wcause := .none, fetched := none, refusal := none, lineWait := none }
  let s := s.first (qK c q 0x08) (faultWord det code optag pc)
  let s := if s.regBit (coreK c 0x8) 0 then s.stopQueues c (allQueues.filter (· ≠ q)) else s
  s.report 0x01 code ((unit.map (·.1)).getD (srcOf (unitType q) c))
    { context := s.ctxOf c, queue := qnum q, pc := pc, optag := optag, addr := addr, detail := (unit.map (·.2)).getD (s.reg (qK c q 0x08)) }

/-- `s` with an event recorded in CORE_Q_EVENT (R231, R240). -/
def State.event (s : State) (c : Nat) (q : Queue) (code optag : W16) (pc : BitVec 14) : State :=
  let k := qK c q 0x10
  let n := min (s.regFld k 48 16 + 1) 0xFFFF
  s.setReg k (putFld (putFld (putFld (putFld 0 48 16 n) 32 16 code.toNat) 16 16 optag.toNat) 0 14 pc.toNat)

/-- `s` with a list of events recorded, in order. -/
def State.events (s : State) (c : Nat) (q : Queue) (codes : List W16) (optag : W16) (pc : BitVec 14) : State :=
  codes.foldl (fun s e => s.event c q e optag pc) s

/-- `s` with something sent out of the block. -/
def State.send (s : State) (t : Tx) : State := { s with tx := t :: s.tx }

/-- A fresh free value's number, and the state that has drawn it (log 4). -/
def State.draw (s : State) : State := { s with draws := s.draws + 1 }

/-- `s` with an access outside a context's binding logged (R11): a record of kind 0x05, BIND_VIOLATION. -/
def State.violation (s : State) (ctx : Nat) (addr : W64) : State :=
  s.report 0x05 0x6002 0 { context := ctx, addr := addr }

/-- `s` with a window miss logged as a binding violation (R27). -/
def State.missed (s : State) (ctx : Nat) (addr : Nat) : State :=
  s.report 0x05 0x6002 0 { context := ctx, addr := BitVec.ofNat 64 addr }

/-- Logical buffer `i` (F0, F1, B0, B1) of core `c`. -/
def State.buf (s : State) (c i : Nat) : MxBuf := tgetD s.bufs (4 * c + i) {}
def State.setBuf (s : State) (c i : Nat) (b : MxBuf) : State := { s with bufs := tset s.bufs (4 * c + i) b }

/-- The local address in a table register. -/
def tableAddr (r : W64) : Nat := fld r 6 40 * 64

/-- A context's kerb monitor. -/
def State.kerbOf (s : State) (ctx : Nat) : KerbSt := tgetD s.kerb ctx {}
def State.setKerb (s : State) (ctx : Nat) (k : KerbSt) : State := { s with kerb := tset s.kerb ctx k }

/-- A queue pair beside its entry in memory. -/
def State.qp (s : State) (n : Nat) : QpSt := tgetD s.qps n {}
def State.setQp (s : State) (n : Nat) (x : QpSt) : State := { s with qps := tset s.qps n x }

/-- The receive side of a class of a quay (R366). -/
def State.rxOf (s : State) (qy cls : Nat) : RxClass := tgetD s.rx (4 * qy + cls) {}
def State.setRx (s : State) (qy cls : Nat) (x : RxClass) : State := { s with rx := tset s.rx (4 * qy + cls) x }

/-- PWR_GATE of the die of a cluster, and the place of its two-bit field (R429, R433). -/
def gateK (g : Nat) : Nat := dieK (g / 8) 0x360030
def gatePos (g : Nat) : Nat := 2 * (g % 8)

/-- The gate state of a cluster (R429). -/
def State.gate (s : State) (g : Nat) : Nat := s.regFld (gateK g) (16 + gatePos g) 2

/-- `s` with cluster `g` at RUN and its REQ at 00 (R429). -/
def State.toRun (s : State) (g : Nat) : State := (s.setFld (gateK g) (16 + gatePos g) 2 0).setFld (gateK g) (gatePos g) 2 0

/-- The core whose chamber or instruction-memory window holds physical address `pa` (R25). -/
def windowCore (pa : Nat) : Nat := if pa < imemBase then (pa - chamBase) / 0x400000 else (pa - imemBase) / 0x40000

/-- `s` after physical address `pa` has been accessed: a gated cluster whose window it lies in is at RUN (R429). The caller holds the
access back for the wake time (`State.unlessGated`). -/
def State.wakeFor (s : State) (pa : Nat) : State :=
  if pa < chamBase || s.gate (windowCore pa / 6) = 0 then s else s.toRun (windowCore pa / 6)

/-- `s` after accesses at a context's global addresses (R429). -/
def State.wakeAll (s : State) (ctx : Nat) (as : List Nat) : State :=
  if (List.range 16).all fun g => s.gate g == 0 then s
  else as.foldl (fun s a => match s.place ctx a with | .mem pa => s.wakeFor pa | _ => s) s

/-- `s` with the gated ones of a list of clusters waking (R429). -/
def State.rouse (s : State) (gs : List Nat) : State :=
  gs.foldl (fun s g => if s.gate g = 0 then s else { s with waking := tset s.waking g (tgetD s.waking g []) }) s

/-- The clusters that accesses have woken between `s` and `t` (R429). -/
def State.woken (s t : State) : List Nat := (List.range 16).filter fun g => s.gate g != 0 && t.gate g == 0

/-- What accesses lead to, once the clusters that they wake have had their wake time (R429): `t`, which they make of `s`, or `s` with
those clusters waking. -/
def State.unlessGated (s t : State) : State := if s.woken t = [] then t else s.rouse (s.woken t)

/-- `s` after units of a context's tables have been accessed: gated clusters wake, a unit in an unbound slot logs a binding violation,
and one in a reserved range raises ADDR_INVALID (R23, R27, R429; the first such unit speaks for the access, log 36). -/
def State.touchedAt (s : State) (ctx : Nat) (as : List Nat) : State :=
  let t := s.wakeAll ctx as
  match t.badPlace ctx as with
  | some (a, .miss) => t.missed ctx a
  | some (a, _) => t.send (.addrInvalid ctx (BitVec.ofNat 64 a))
  | none => t

/-- `s` after the bytes of a context's table have been accessed. -/
def State.touched (s : State) (ctx addr n : Nat) : State := s.touchedAt ctx (unitsOf addr n)

/-- `s` after a list of ranges of a context's tables has been accessed at once. -/
def State.touchedAll (s : State) (ctx : Nat) (rs : List (Nat × Nat)) : State :=
  s.touchedAt ctx (rs.map fun r => unitsOf r.1 r.2).flatten

/-- The core through whose window a write at `pa` may not pass now, since its queues are not stopped (R26, R236). The chamber of the core
`own` that writes is its own memory and no window to it (DEDUCED, log 74). -/
def State.shutCore (s : State) (own : Option Nat) (pa : Nat) : Option Nat :=
  if pa < chamBase || s.coreStopped (windowCore pa) || (pa < imemBase && own == some (windowCore pa)) then none
  else some (windowCore pa)

/-- `s` after a write at `pa`: performed as `f` says, or discarded at a shut window and counted in its CORE_WINDROP (R26, R236), one for
each unit write (DESIGN CHOICE, log 75). -/
def State.through (s : State) (own : Option Nat) (pa : Nat) (f : State → State) : State :=
  match s.shutCore own pa with
  | some c => s.count (coreK c 0x28) 1
  | none => f s

/-- `s` with bytes of a context's table written, unit by unit; `n` bounds their number. Where no binding leads they are discarded (R27). -/
def State.tableWriteN (s : State) (ctx addr : Nat) (bs : List Byte) : Nat → State
  | 0 => s
  | n + 1 =>
    if bs = [] then s
    else
      let k := 64 - addr % 64
      let t := match s.localPlace ctx addr with
        | .mem pa => s.through none pa fun s => s.writePart pa (bs.take k)
        | _ => s
      t.tableWriteN ctx (addr + k) (bs.drop k) n

/-- `s` with bytes of a context's table written, each unit translated on its own (R32). -/
def State.tableWrite (s : State) (ctx addr : Nat) (bs : List Byte) : State := s.tableWriteN ctx addr bs (bs.length / 64 + 2)

/-- Every instruction in flight on the cores whose cluster a context holds: core, queue, instruction. -/
def State.inflightOf (s : State) (ctx : Nat) : List (Nat × Queue × InFlight) :=
  (s.queues.map fun p =>
    let c := p.1 / 6
    if s.ctxOf c = ctx then
      p.2.inflight.map fun f => (c, (allQueues[p.1 % 6]?).getD .mqf, f)
    else []).flatten

end Sys2Proof.Machine
end

