-- ==== Sys2Proof/Machine/Flags.lean ====
section
/-! DEFINITION. Status codes (R8; tables R126, R156, R204, R224, R292, R321, R345, R376, R391, R434, R453), and the value and
signal arithmetic of the flags that commands set. -/

namespace Sys2Proof.Machine

/-- Refusal. -/
abbrev Code.FORMAT_INVALID : W16 := 0x1001
/-- Refusal. -/
abbrev Code.RND_RESERVED : W16 := 0x1002
/-- Refusal. -/
abbrev Code.QREC_INVALID : W16 := 0x1003
/-- Refusal. -/
abbrev Code.ROT_ALIGN : W16 := 0x1004
/-- Refusal. -/
abbrev Code.TILE_INVALID : W16 := 0x1005
/-- Refusal. -/
abbrev Code.KLEN_INVALID : W16 := 0x1006
/-- Refusal. -/
abbrev Code.ACC_NOT_OPEN : W16 := 0x1007
/-- Refusal. -/
abbrev Code.KACC_LIMIT : W16 := 0x1008
/-- Event. -/
abbrev Code.ACC_DISCARDED : W16 := 0x1009
/-- Event. -/
abbrev Code.SCALE_TABLE_CHANGED : W16 := 0x100A
/-- Detected error. -/
abbrev Code.RESIDUE_MISMATCH : W16 := 0x1010
/-- Event. -/
abbrev Code.NAN_TRAPPED : W16 := 0x1011
/-- Event. -/
abbrev Code.OUTLIER_EXCESS : W16 := 0x1020
/-- Event. -/
abbrev Code.OUTLIER_STALL : W16 := 0x1021
/-- Event. -/
abbrev Code.HELI_UNPAIRED : W16 := 0x1022
/-- Refusal. -/
abbrev Code.LAYER_INVALID : W16 := 0x1023
/-- Refusal. -/
abbrev Code.KSTEP_ORDER : W16 := 0x1024
/-- Event. -/
abbrev Code.LADDER_MOVED : W16 := 0x1025
/-- Event. -/
abbrev Code.LADDER_BUDGET_DENIED : W16 := 0x1026
/-- Event. -/
abbrev Code.LADDER_STORM : W16 := 0x1027
/-- Event. -/
abbrev Code.KERB_REPLICA_MISMATCH : W16 := 0x1028
/-- Event. -/
abbrev Code.KERB_REDUCE_TIMEOUT : W16 := 0x1029
/-- Event. -/
abbrev Code.KERB_RECV_REFUSED : W16 := 0x102A
/-- Refusal. -/
abbrev Code.UPD_DESC_INVALID : W16 := 0x1030
/-- Refusal. -/
abbrev Code.UPD_NOT_OWNER : W16 := 0x1031
/-- Refusal. -/
abbrev Code.UPD_STACK_SPLIT : W16 := 0x1032
/-- Refusal. -/
abbrev Code.UPD_STEP_ORDER : W16 := 0x1033
/-- Event. -/
abbrev Code.UPD_NONFINITE_GRAD : W16 := 0x1034
/-- Event. -/
abbrev Code.UPD_CURVE_INVALID : W16 := 0x1035
/-- Event. -/
abbrev Code.UPD_PRECOND_SKIP : W16 := 0x1036
/-- Event. -/
abbrev Code.UPD_FALLBACK : W16 := 0x1037
/-- Detected error. -/
abbrev Code.UPD_COMMIT_INCOMPLETE : W16 := 0x1038
/-- Event. -/
abbrev Code.UPD_STEP_ABORTED : W16 := 0x1039
/-- Refusal. -/
abbrev Code.VCHAIN_INVALID : W16 := 0x1040
/-- Refusal. -/
abbrev Code.VEC_OPERAND_PLACE : W16 := 0x1041
/-- Refusal. -/
abbrev Code.VEC_SHAPE : W16 := 0x1042
/-- Detected error. -/
abbrev Code.VEC_SHADOW_MISMATCH : W16 := 0x1043
/-- Refusal. -/
abbrev Code.ADDR_INVALID : W16 := 0x3001
/-- Refusal. -/
abbrev Code.DESC_INVALID : W16 := 0x3002
/-- Refusal. -/
abbrev Code.OVERLAP_TOO_LARGE : W16 := 0x3003
/-- Refusal. -/
abbrev Code.MV_PLACE : W16 := 0x3004
/-- Refusal. -/
abbrev Code.OPCODE_RESERVED : W16 := 0x4001
/-- Refusal. -/
abbrev Code.QCLASS_MISMATCH : W16 := 0x4002
/-- Refusal. -/
abbrev Code.INSTR_RESERVED : W16 := 0x4003
/-- Refusal. -/
abbrev Code.PC_RANGE : W16 := 0x4004
/-- Refusal. -/
abbrev Code.LOOP_RANGE : W16 := 0x4005
/-- Refusal. -/
abbrev Code.LOOP_DEPTH : W16 := 0x4006
/-- Refusal. -/
abbrev Code.SYNC_ID_INVALID : W16 := 0x4007
/-- Refusal. -/
abbrev Code.SYNC_ID_UNBOUND : W16 := 0x4008
/-- Refusal. -/
abbrev Code.MB_NOT_SENDER : W16 := 0x4009
/-- Event. -/
abbrev Code.SEM_WRAP : W16 := 0x400A
/-- Event. -/
abbrev Code.SEM_TARGET_ABSENT : W16 := 0x400B
/-- Event. -/
abbrev Code.XR_NOT_MEMBER : W16 := 0x400C
/-- Event. -/
abbrev Code.MB_TIMEOUT : W16 := 0x400D
/-- Report. -/
abbrev Code.MEM_CORRECTED : W16 := 0x2001
/-- Report. -/
abbrev Code.MEM_UNCORRECTABLE : W16 := 0x2002
/-- Detected error. -/
abbrev Code.MEM_POISON_READ : W16 := 0x2003
/-- Detected error; Report from the patrol. -/
abbrev Code.MEM_TAG_MISMATCH : W16 := 0x2004
/-- Refusal of the fetch. -/
abbrev Code.MEM_IFETCH : W16 := 0x2005
/-- Report. -/
abbrev Code.MEM_LINK_RETRY : W16 := 0x2006
/-- Report. -/
abbrev Code.MEM_LINK_FAILED : W16 := 0x2007
/-- Report. -/
abbrev Code.MEM_THERMAL : W16 := 0x2008
/-- Report. -/
abbrev Code.ECHO_MISMATCH : W16 := 0x2009
/-- Refusal. -/
abbrev Code.FAB_NO_ROUTE : W16 := 0x5001
/-- Refusal. -/
abbrev Code.FAB_QP_STATE : W16 := 0x5002
/-- Detected error. -/
abbrev Code.FAB_REFUSED : W16 := 0x5003
/-- Detected error. -/
abbrev Code.FAB_REFUSED_BIND : W16 := 0x5004
/-- Detected error. -/
abbrev Code.FAB_EPOCH_REFUSED : W16 := 0x5005
/-- Detected error. -/
abbrev Code.FAB_TIMEOUT : W16 := 0x5006
/-- Detected error. -/
abbrev Code.FAB_QP_ERROR : W16 := 0x5007
/-- Detected error. -/
abbrev Code.FAB_ATOMIC_LOST : W16 := 0x5008
/-- Report. -/
abbrev Code.FAB_LINK_DOWN : W16 := 0x5009
/-- Report. -/
abbrev Code.FAB_PFC_STORM : W16 := 0x500A
/-- Report. -/
abbrev Code.FAB_PARTNER_VIOLATION : W16 := 0x500B
/-- Report. -/
abbrev Code.FAB_RX_POISON : W16 := 0x500C
/-- Report. -/
abbrev Code.FAB_LINK_UP : W16 := 0x500D
/-- Refusal at issue (ATOM, UPD); detected error when met during a transfer. -/
abbrev Code.BIND_WINDOW_MISS : W16 := 0x6001
/-- Report. -/
abbrev Code.BIND_VIOLATION : W16 := 0x6002
/-- Load result. -/
abbrev Code.IMAGE_BUSY : W16 := 0x6003
/-- Load result. -/
abbrev Code.IMAGE_INVALID : W16 := 0x6004
/-- Load result. -/
abbrev Code.IMAGE_TARGET_ABSENT : W16 := 0x6005
/-- Load result. -/
abbrev Code.IMAGE_CRC : W16 := 0x6006
/-- Load result. -/
abbrev Code.IMAGE_READ_FAULT : W16 := 0x6007
/-- Refusal. -/
abbrev Code.BIND_BUSY : W16 := 0x6008
/-- Refusal. -/
abbrev Code.BIND_CONFLICT : W16 := 0x6009
/-- Refusal. -/
abbrev Code.BIND_ABSENT : W16 := 0x600A
/-- Refusal. -/
abbrev Code.BIND_RESERVED : W16 := 0x600B
/-- Report. -/
abbrev Code.BIND_DRAIN_ABANDONED : W16 := 0x600C
/-- Report. -/
abbrev Code.BIND_SCRUB_FAULT : W16 := 0x600D
/-- Report. -/
abbrev Code.CFG_EPOCH_LOCKED : W16 := 0x600E
/-- Report. -/
abbrev Code.PWR_DROOP : W16 := 0x7001
/-- Report. -/
abbrev Code.PWR_DROOP_THROTTLE : W16 := 0x7002
/-- Report. -/
abbrev Code.PWR_THERMAL_THROTTLE : W16 := 0x7003
/-- Report. -/
abbrev Code.PWR_PIN_THROTTLE : W16 := 0x7004
/-- Report. -/
abbrev Code.PWR_AVS_FAULT : W16 := 0x7005
/-- Report. -/
abbrev Code.CLK_PLL_UNLOCK : W16 := 0x7006
/-- Report. -/
abbrev Code.CLK_SWITCH_REFUSED : W16 := 0x7007
/-- Report. -/
abbrev Code.STK_THROTTLE : W16 := 0x7008
/-- Report. -/
abbrev Code.RESET_REPORTED : W16 := 0x7009
/-- Report. -/
abbrev Code.SEC_IMAGE_INVALID : W16 := 0x8001
/-- Report. -/
abbrev Code.SEC_KEY_REVOKED : W16 := 0x8002
/-- Report. -/
abbrev Code.SEC_ROLLBACK : W16 := 0x8003
/-- Report. -/
abbrev Code.SEC_MGMT_AUTH : W16 := 0x8004
/-- Report. -/
abbrev Code.SEC_LMS_RESYNC : W16 := 0x8005
/-- Report. -/
abbrev Code.SEC_LMS_EXHAUSTED : W16 := 0x8006
/-- Report. -/
abbrev Code.FW_RECOVERY : W16 := 0xF001
/-- Report. -/
abbrev Code.FW_FLASH_FAIL : W16 := 0xF002
/-- Report. -/
abbrev Code.FW_FAULTTAB_LOST : W16 := 0xF003

/-- Every code that the device emits: the codes of the nine classes of R8 that their chapters' tables name. -/
def emittedCodes : List W16 :=
  [Code.FORMAT_INVALID, Code.RND_RESERVED, Code.QREC_INVALID, Code.ROT_ALIGN, Code.TILE_INVALID, Code.KLEN_INVALID,
    Code.ACC_NOT_OPEN, Code.KACC_LIMIT, Code.ACC_DISCARDED, Code.SCALE_TABLE_CHANGED, Code.RESIDUE_MISMATCH, Code.NAN_TRAPPED,
    Code.OUTLIER_EXCESS, Code.OUTLIER_STALL, Code.HELI_UNPAIRED, Code.LAYER_INVALID, Code.KSTEP_ORDER, Code.LADDER_MOVED,
    Code.LADDER_BUDGET_DENIED, Code.LADDER_STORM, Code.KERB_REPLICA_MISMATCH, Code.KERB_REDUCE_TIMEOUT, Code.KERB_RECV_REFUSED,
    Code.UPD_DESC_INVALID, Code.UPD_NOT_OWNER, Code.UPD_STACK_SPLIT, Code.UPD_STEP_ORDER, Code.UPD_NONFINITE_GRAD,
    Code.UPD_CURVE_INVALID, Code.UPD_PRECOND_SKIP, Code.UPD_FALLBACK, Code.UPD_COMMIT_INCOMPLETE, Code.UPD_STEP_ABORTED,
    Code.VCHAIN_INVALID, Code.VEC_OPERAND_PLACE, Code.VEC_SHAPE, Code.VEC_SHADOW_MISMATCH] ++
  [Code.ADDR_INVALID, Code.DESC_INVALID, Code.OVERLAP_TOO_LARGE, Code.MV_PLACE] ++
  [Code.OPCODE_RESERVED, Code.QCLASS_MISMATCH, Code.INSTR_RESERVED, Code.PC_RANGE, Code.LOOP_RANGE, Code.LOOP_DEPTH,
    Code.SYNC_ID_INVALID, Code.SYNC_ID_UNBOUND, Code.MB_NOT_SENDER, Code.SEM_WRAP, Code.SEM_TARGET_ABSENT, Code.XR_NOT_MEMBER,
    Code.MB_TIMEOUT] ++
  [Code.MEM_CORRECTED, Code.MEM_UNCORRECTABLE, Code.MEM_POISON_READ, Code.MEM_TAG_MISMATCH, Code.MEM_IFETCH, Code.MEM_LINK_RETRY,
    Code.MEM_LINK_FAILED, Code.MEM_THERMAL, Code.ECHO_MISMATCH] ++
  [Code.FAB_NO_ROUTE, Code.FAB_QP_STATE, Code.FAB_REFUSED, Code.FAB_REFUSED_BIND, Code.FAB_EPOCH_REFUSED, Code.FAB_TIMEOUT,
    Code.FAB_QP_ERROR, Code.FAB_ATOMIC_LOST, Code.FAB_LINK_DOWN, Code.FAB_PFC_STORM, Code.FAB_PARTNER_VIOLATION,
    Code.FAB_RX_POISON, Code.FAB_LINK_UP] ++
  [Code.BIND_WINDOW_MISS, Code.BIND_VIOLATION, Code.IMAGE_BUSY, Code.IMAGE_INVALID, Code.IMAGE_TARGET_ABSENT, Code.IMAGE_CRC,
    Code.IMAGE_READ_FAULT, Code.BIND_BUSY, Code.BIND_CONFLICT, Code.BIND_ABSENT, Code.BIND_RESERVED, Code.BIND_DRAIN_ABANDONED,
    Code.BIND_SCRUB_FAULT, Code.CFG_EPOCH_LOCKED] ++
  [Code.PWR_DROOP, Code.PWR_DROOP_THROTTLE, Code.PWR_THERMAL_THROTTLE, Code.PWR_PIN_THROTTLE, Code.PWR_AVS_FAULT,
    Code.CLK_PLL_UNLOCK, Code.CLK_SWITCH_REFUSED, Code.STK_THROTTLE, Code.RESET_REPORTED] ++
  [Code.SEC_IMAGE_INVALID, Code.SEC_KEY_REVOKED, Code.SEC_ROLLBACK, Code.SEC_MGMT_AUTH, Code.SEC_LMS_RESYNC,
    Code.SEC_LMS_EXHAUSTED] ++
  [Code.FW_RECOVERY, Code.FW_FLASH_FAIL, Code.FW_FAULTTAB_LOST]

end Sys2Proof.Machine
end

