-- ==== Sys2Proof/Machine/Operands.lean ====
section
/-! DEFINITION. Operand forms of the instructions: operand fields, reserved bits, chamber offsets, semaphore identifiers
(10_instruction_reference.md R242 to R270; 12_synchronisation_and_mailboxes.md R294 to R297). -/

namespace Sys2Proof.Machine

/-- Operand bits `hi` to `lo` of an instruction. -/
def opnd (w : InstrWord) (hi lo : Nat) : Nat := fld w.ops lo (hi - lo + 1)

/-- A mask of operand bits and the flags F3 to F0 that an instruction defines. -/
structure OpForm where
  mask : W64 := 0
  f3 : Bool := false
  f2 : Bool := false
  f1 : Bool := false
  f0 : Bool := false

/-- The operand bits and flags that each instruction defines (R250 to R270). -/
def opForm : Op → OpForm
  | .nop | .end_ => {}
  | .loop => { mask := bits 63 50 ||| bits 15 0, f0 := true }
  | .seed => { mask := allOnes, f0 := true }
  | .smov | .smovh | .sadd | .ssub | .smul | .sand | .sor | .sxor | .sshl | .sshr =>
    { mask := bits 63 52 ||| bits 47 0, f0 := true }
  | .sld | .sst => { mask := bits 63 60 ||| bits 21 0, f3 := true }
  | .dadd => { mask := bits 63 60 ||| bits 7 0 }
  | .semset => { mask := bits 63 60 ||| bits 43 0, f0 := true }
  | .xarr => { mask := bits 7 0, f0 := true }
  | .mbsend => { mask := bits 63 48 ||| bits 38 32 ||| bits 28 24 ||| bits 21 6, f3 := true }
  | .mbrecv => { mask := bits 63 48 ||| bits 21 6, f3 := true }
  | .mma => { mask := allOnes, f3 := true, f1 := true, f0 := true }
  | .mdrn => { mask := bits 63 58 ||| bits 15 0, f3 := true, f1 := true }
  | .vop => { mask := bits 63 24 ||| bits 15 0, f3 := true }
  | .vxadd => { mask := bits 63 16, f3 := true, f0 := true }
  | .ldq => { mask := bits 63 48 ||| bits 31 15, f3 := true }
  | .ldmCopy | .stmCopy => { mask := bits 63 46 }
  | .stq => { mask := bits 63 38 }
  | .atom => { mask := bits 63 52 ||| bits 21 0, f3 := true, f0 := true }
  | .upd => { mask := bits 15 0, f3 := true }
  | .commit => { mask := bits 35 0, f1 := true, f0 := true }
  | .kstep => { mask := bits 35 0, f1 := true }
  | .snap => { mask := bits 63 62 ||| bits 55 32, f1 := true, f0 := true }

/-- The fields that are unused under a flag are 0, and the restrictions of R251 to R270 hold. -/
def usedOk (o : Op) (w : InstrWord) : Bool :=
  match o with
  | .loop => !w.f0 || opnd w 15 4 == 0
  | .seed => !w.f0 || opnd w 63 4 == 0
  | .smov => (if w.f0 then opnd w 55 52 == 0 else opnd w 47 0 == 0) && opnd w 59 56 == 0
  | .smovh => w.f0 && opnd w 55 52 == 0 && opnd w 59 56 == 0 && opnd w 47 16 == 0
  | .sadd | .ssub | .smul | .sand | .sor | .sxor | .sshl | .sshr =>
    if w.f0 then opnd w 55 52 == 0 else opnd w 47 0 == 0
  | .semset => if w.f0 then opnd w 31 0 == 0 else opnd w 63 60 == 0
  | .mbsend => opnd w 38 32 ≤ 64
  | .atom => w.f0 || opnd w 55 52 == 0
  | .commit | .kstep => if w.f1 then opnd w 31 0 == 0 else opnd w 35 32 == 0
  | _ => true

/-- Check 3 of R246: undefined flags, reserved operand bits, unused fields and the identifier fields of R244 are 0. -/
def fieldsOk (o : Op) (w : InstrWord) : Bool :=
  let f := opForm o
  (f.f3 || !w.f3) && (f.f2 || !w.f2) && (f.f1 || !w.f1) && (f.f0 || !w.f0) && (w.ops &&& ~~~f.mask) == 0 && usedOk o w
    && (w.wcond != 0 || w.wsem == 0) && (w.sinc != 0 || w.ssem == 0)

/-- What XR adds to each chamber offset (R249). -/
def State.xr (s : State) (c : Nat) (q : Queue) (w : InstrWord) : W64 := if w.f3 then s.sreg c q 15 else 0

/-- The chamber offset of a field scaled to bytes, with XR, modulo 2^64 (R249). -/
def State.offs (s : State) (c : Nat) (q : Queue) (w : InstrWord) (bytes : Nat) : Nat :=
  (BitVec.ofNat 64 bytes + s.xr c q w).toNat

/-- The chamber offsets of an instruction in bytes before XR, with their alignments (R249, R254 to R267). -/
def chamFields (o : Op) (w : InstrWord) : List (Nat × Nat) :=
  match o with
  | .sld | .sst | .atom => [(opnd w 21 0, 8)]
  | .mbsend | .mbrecv => [(opnd w 21 6 * 64, 64)]
  | .mma => [(opnd w 63 48 * 64, 64), (opnd w 47 32 * 64, 64)]
  | .mdrn | .vop | .upd => [(opnd w 15 0 * 64, 64)]
  | .vxadd => [(opnd w 63 48 * 64, 64), (opnd w 47 32 * 64, 64)]
  | .ldq => [(opnd w 31 15 * 32, 32)]
  | _ => []

/-- Check 4 of R246: every chamber offset lies in the chamber window and is aligned (R249). -/
def State.chamOk (s : State) (c : Nat) (q : Queue) (o : Op) (w : InstrWord) : Bool :=
  (chamFields o w).all fun f => s.offs c q w f.1 < 0x400000 && s.offs c q w f.1 % f.2 == 0

/-- A translated identifier, or the code that refuses the instruction. -/
inductive Ident where
  | home (k : Nat)
  | bad (code : W16)
deriving DecidableEq, Repr

/-- The home of a virtual semaphore identifier in the issuing core's context: the control-space offset of its counter (R294,
R295). `wait`: the identifier of a wait. -/
def State.semHome (s : State) (c : Nat) (id : BitVec 12) (wait : Bool) : Ident :=
  let n := id.toNat
  match n / 1024 with
  | 0 =>
    let k := n / 64 % 8
    if n / 512 % 2 = 1 || k = 6 then .bad Code.SYNC_ID_INVALID
    else
      let t := if k = 7 then c else c / 6 * 6 + k
      if wait && t != c then .bad Code.SYNC_ID_INVALID else .home (coreK t (0x1000 + 8 * (n % 64)))
  | 1 => if n / 256 % 4 = 0 then .home (cluK (c / 6) (0x1000 + 8 * (n % 256))) else .bad Code.SYNC_ID_INVALID
  | 2 =>
    let d := n / 512 % 2
    let v := n % 512
    let ctx := s.ctxOf c
    let b := if ctx = 0 then 0 else s.regFld (bindK ctx (0x200 + 8 * d)) 0 9
    let cnt := if ctx = 0 then 512 else s.regFld (bindK ctx (0x200 + 8 * d)) 32 10
    if v < cnt && (ctx == 0 || !s.fencedDsem d (b + v)) then .home (dieK d (0x200000 + 8 * (b + v))) else .bad Code.SYNC_ID_UNBOUND
  | _ => .bad Code.SYNC_ID_INVALID

/-- The view register of the counter at `k` (R317 to R319). -/
def semView (k : Nat) : Nat :=
  if k < 0x10000000 then k + 0x1000 else if k < 0x20000000 then k + 0x800 else k + 0x200

/-- The value of a semaphore: an unsigned 32-bit counter (R293). -/
def State.sem (s : State) (k : Nat) : Nat := s.regFld k 0 32

/-- The low 32 bits of s13 (R296). -/
def State.s13 (s : State) (c : Nat) (q : Queue) : Nat := fld (s.sreg c q 13) 0 32

/-- Wait conditions (R296). -/
def condHolds (cond : BitVec 4) (v s13 : Nat) : Bool :=
  match cond.toNat with
  | 0 => true
  | 0x9 => v != 0
  | 0xA => v == 0
  | 0xB => s13 ≤ v
  | 0xC => s13 ≤ v
  | 0xD => v == s13
  | 0xE => true
  | 0xF => true
  | n => n ≤ v

/-- What a satisfied wait subtracts (R296). -/
def condTakes (cond : BitVec 4) (s13 : Nat) : Nat :=
  match cond.toNat with
  | 0 => 0
  | 0xC => s13
  | n => if n ≤ 8 then n else 0

/-- The home that an instruction waits on; none: no wait, or an identifier that refuses the instruction. -/
def State.waitHome (s : State) (c : Nat) (w : InstrWord) : Option Nat :=
  if w.wcond = 0 || 0xE ≤ w.wcond.toNat then none
  else match s.semHome c w.wsem true with
    | .home k => some k
    | .bad _ => none

/-- The condition of an instruction's wait holds now (R296). -/
def State.waitHolds (s : State) (c : Nat) (q : Queue) (w : InstrWord) : Bool :=
  match s.waitHome c w with
  | none => true
  | some k => condHolds w.wcond (s.sem k) (s.s13 c q)

/-- An older head waits on the same semaphore with its condition met now: it is evaluated first (R297). -/
def State.olderFirst (s : State) (c : Nat) (q : Queue) (k : Nat) : Bool :=
  s.queues.any fun p =>
    let c' := p.1 / 6
    let q' := (allQueues[p.1 % 6]?).getD .mqf
    p.1 != 6 * c + qnum q && p.2.mode == .waiting && p.2.wcause == .sem && p.2.age < (s.queue c q).age &&
      match p.2.fetched with
      | some b => s.waitHome c' (frameOf b) == some k && s.waitHolds c' q' (frameOf b)
      | none => false

/-- The wait of an instruction is satisfied in this cycle (R228, R297). -/
def State.waitMet (s : State) (c : Nat) (q : Queue) (w : InstrWord) : Bool :=
  match s.waitHome c w with
  | none => true
  | some k => condHolds w.wcond (s.sem k) (s.s13 c q) && !s.olderFirst c q k

/-- `s` with what the wait subtracts taken from the semaphore (R296, R297). -/
def State.takeWait (s : State) (c : Nat) (q : Queue) (w : InstrWord) : State :=
  match s.waitHome c w with
  | none => s
  | some k =>
    let n := condTakes w.wcond (s.s13 c q)
    if n = 0 then s else s.setFld k 0 32 (s.sem k - n)

/-- The identifiers of the frame are valid and bound (R294 to R296), tested as the first of the chapters' own checks. -/
def State.syncCheck (s : State) (c : Nat) (w : InstrWord) : Option W16 :=
  let wait : Option W16 :=
    if w.wcond = 0 then none
    else if 0xE ≤ w.wcond.toNat then some Code.SYNC_ID_INVALID
    else match s.semHome c w.wsem true with
      | .bad e => some e
      | .home _ => none
  match wait with
  | some e => some e
  | none =>
    if w.sinc = 0 then none
    else match s.semHome c w.ssem false with
      | .bad e => some e
      | .home _ => none

/-- The checks of R246 less the chapters' own: class and queue, fields, chamber offsets, then the frame's identifiers. -/
def State.frameCheck (s : State) (c : Nat) (q : Queue) (o : Op) (w : InstrWord) : Option W16 :=
  if w.qclass != opClass o || !opAllows o q then some Code.QCLASS_MISMATCH
  else if !fieldsOk o w then some Code.INSTR_RESERVED
  else if !s.chamOk c q o w then some Code.ADDR_INVALID
  else s.syncCheck c w

end Sys2Proof.Machine
end

