-- ==== Sys2Proof/Machine/Issue.lean ====
section
/-! DEFINITION. How a queue considers its head, refuses, waits, issues and completes (R226 to R234, R246, R297, R298). -/

namespace Sys2Proof.Machine

/-- What an instruction leaves when it issues. -/
structure Issued where
  /-- the state after the instruction's effects at issue -/
  st : State
  work : Work := .done
  events : List W16 := []
  error : Option W16 := none
  errAt : Nat := 0
  post : Option (Nat × W64) := none
  hold : Hold := .none
  step : BitVec 32 := 0
  /-- next PC and loop stack, when they are not those of R233's address step -/
  goto : Option (BitVec 14 × List LoopEntry) := none

/-- A refusal: its code, the bad read that caused it, as CORE_MEM_ERR.KIND and a global address (R333), the address in an unbound slot
that it logs as a binding violation (R27), and the ranges of the context's tables that its checks read. -/
structure Ref where
  code : W16
  bad : Option (Nat × Nat) := none
  miss : Option Nat := none
  tables : List (Nat × Nat) := []
deriving DecidableEq, Repr

/-- The first refusal of a list of checks in order. -/
def firstRef (l : List (Option Ref)) : Option Ref := l.findSome? id

/-- A check that refuses with a code unless it holds. -/
def need (ok : Bool) (code : W16) : Option Ref := if ok then none else some { code := code }

/-- What an instruction's chapter answers for a head whose wait is satisfied. -/
inductive Verdict where
  | refuse (code : W16)
  /-- a refusal that may name a bad read -/
  | refuseRef (r : Ref)
  /-- a device-imposed condition is unmet; nothing changes -/
  | wait (cause : WCause)
  /-- an access wakes gated clusters, and the head waits their wake time (R429) -/
  | rouse (gs : List Nat)
  /-- the head has taken effect and stays at the head until something else completes it (XARR, R304) -/
  | stay (cause : WCause) (st : State)
  | issue (i : Issued)

/-- The address step of R233: the next PC and loop stack after an issue at `pc`. -/
def advance (pc : BitVec 14) : List LoopEntry → BitVec 14 × List LoopEntry
  | [] => (pc + 1, [])
  | e :: r =>
    if pc = e.end_ then
      if 1 < e.left.toNat then (e.start, { e with left := e.left - 1 } :: r) else advance pc r
    else (pc + 1, e :: r)

/-- Instructions whose queue issues nothing later until they complete (R234, R254, R255, R304, R310). -/
def interlocks : Op → Bool
  | .sld | .sst | .dadd | .end_ | .xarr | .mbsend => true
  | _ => false

/-- Instructions that issue only when no earlier instruction of their queue is in flight (R254, R255, R270, R304, R310). -/
def needsDrained : Op → Bool
  | .sld | .sst | .dadd | .xarr | .mbsend | .snap => true
  | _ => false

/-- An instruction in flight lets nothing later of its queue issue (R254). -/
def QState.interlocked (x : QState) : Bool := x.inflight.any fun f => interlocks f.op

/-- The queue is below its in-flight limit, and no interlocking instruction is in flight (R228, R254). -/
def QState.open_ (x : QState) (q : Queue) : Bool := x.inflight.length < inflightLimit q && !x.interlocked

/-- The queue may issue an instruction now (R228, R254). -/
def QState.room (x : QState) (q : Queue) (o : Op) : Bool := x.open_ q && (!needsDrained o || x.inflight == [])

/-- The queue's head is the instruction `o`, `w`, and the queue is considering it (R228). -/
def QState.headIs (x : QState) (o : Op) (w : InstrWord) : Bool :=
  (x.mode == .running || x.mode == .waiting) && x.refusal == none && x.fetched == some (encode o w)

/-- `s` with the head of a queue waiting for a cause (R227). -/
def State.waitFor (s : State) (c : Nat) (q : Queue) (cause : WCause) : State :=
  s.setQueue c q { s.queue c q with mode := .waiting, wcause := cause }

/-- `s` with the head of a queue refused: FAULTED at once, or once earlier instructions have completed (R231). -/
def State.refuse (s : State) (c : Nat) (q : Queue) (code optag : W16) (addr : W64 := 0) : State :=
  if (s.queue c q).inflight = [] then s.enterFault c q false code optag (s.queue c q).pc addr
  else s.setQueue c q { s.queue c q with mode := .running, wcause := .none,
                                          refusal := some { code := code, optag := optag, pc := (s.queue c q).pc, addr := addr } }

/-- `s` with the head of a queue refused, what its checks read and the bad read or the window miss that caused it recorded first (R27,
R333). -/
def State.refuseRef (s : State) (c : Nat) (q : Queue) (r : Ref) (optag : W16) : State :=
  let s := s.touchedAll (s.ctxOf c) r.tables
  let s := match r.miss with
    | some a => s.missed (s.ctxOf c) a
    | none => s
  match r.bad with
  | some (kind, addr) =>
    (s.memErr c q kind (s.queue c q).pc optag addr).refuse c q r.code optag (BitVec.ofNat 64 (addr / 64 * 64))
  | none => s.refuse c q r.code optag

/-- `s` with the head of a queue waiting for clusters that its accesses wake (R429). -/
def State.sleepHead (s : State) (c : Nat) (q : Queue) (gs : List Nat) : State := (s.rouse gs).waitFor c q .resource

/-- `s` with the head of a queue refused, once the clusters are awake whose windows its checks read (R429). -/
def State.turnDown (s : State) (c : Nat) (q : Queue) (r : Ref) (optag : W16) : State :=
  let w := s.woken (s.touchedAll (s.ctxOf c) r.tables)
  if w = [] then s.refuseRef c q r optag else s.sleepHead c q w

/-- A verdict over what the head's checks and its latching read of the context's tables (R23, R27), and over the clusters that its accesses
wake (R429). -/
def Verdict.reading (s : State) (ctx : Nat) (tables : List (Nat × Nat)) : Verdict → Verdict
  | .issue i =>
    let t := i.st.touchedAll ctx tables
    if s.woken t = [] then .issue { i with st := t } else .rouse (s.woken t)
  | .refuse code => .refuseRef { code := code, tables := tables }
  | .refuseRef r => .refuseRef { r with tables := tables }
  | v => v

/-- The in-flight entry of an instruction that issues in state `s` (R229, R230). -/
def State.entry (s : State) (c : Nat) (pc : BitVec 14) (o : Op) (w : InstrWord) (i : Issued) : InFlight :=
  { id := s.ids, op := o, pc := pc, optag := w.optag, sinc := w.sinc.toNat,
    home := match s.semHome c w.ssem false with | .home k => k | .bad _ => 0,
    work := i.work, events := i.events, error := i.error, errAt := BitVec.ofNat 64 (i.errAt / 64 * 64), post := i.post, hold := i.hold, step := i.step }

/-- `s` after an instruction has issued (R228, R233): its entry in flight and the PC stepped. -/
def State.issued (s : State) (c : Nat) (q : Queue) (o : Op) (w : InstrWord) (i : Issued) : State :=
  let x := s.queue c q
  let y := i.st.queue c q
  let p := i.goto.getD (advance x.pc x.loops)
  { i.st.setQueue c q { y with mode := .running, wcause := .none, pc := p.1, loops := p.2, fetched := none, lineWait := none, given := none,
                                inflight := y.inflight ++ [s.entry c x.pc o w i] } with ids := s.ids + 1 }

/-- `s` after the queue has acted on its chapter's verdict. -/
def State.settle (s : State) (c : Nat) (q : Queue) (o : Op) (w : InstrWord) : Verdict → State
  | .refuse code => s.refuse c q code w.optag
  | .refuseRef r => s.turnDown c q r w.optag
  | .wait cause => s.waitFor c q cause
  | .rouse gs => s.sleepHead c q gs
  | .stay cause t => t.waitFor c q cause
  | .issue i => s.issued c q o w i

/-- The head of a queue considered once, while its core has a clock (R228, R416): its semaphore wait, the queue's limits, the checks of R246
and then the instruction's chapter. `early` holds checks that its chapter orders before the device-imposed conditions (R162, R468, R469);
they still come after an instruction that lets nothing later issue (R254). -/
def State.runHead (s : State) (c : Nat) (q : Queue) (o : Op) (w : InstrWord)
    (body : State → Verdict) (early : Option (State → Option Ref) := none) : State :=
  let x := s.queue c q
  if !x.headIs o w || s.coreHung c then s
  else if !s.waitMet c q w then s.waitFor c q .sem
  else
    match (early.filter fun _ => !x.interlocked).bind (fun f => ((s.frameCheck c q o w).map (fun e => ({ code := e } : Ref))).or (f s)) with
    | some r => s.turnDown c q r w.optag
    | none =>
      if !x.room q o then s.waitFor c q .resource
      else
        match s.frameCheck c q o w with
        | some e => s.refuse c q e w.optag
        | none => s.settle c q o w (body (s.takeWait c q w))

/-- The conditions under which a head reaches its chapter's own rules: it is considered, its core has a clock, its wait is met, its queue
has room and every check of R246 before them passes. -/
def State.ready (s : State) (c : Nat) (q : Queue) (o : Op) (w : InstrWord) : Prop :=
  (s.queue c q).headIs o w = true ∧ s.coreHung c = false ∧ s.waitMet c q w = true ∧ (s.queue c q).room q o = true ∧
    s.frameCheck c q o w = none

/-- `s` with the signal of a completed instruction on its way (R298). -/
def State.sendSignal (s : State) (c : Fin 96) (q : Queue) (f : InFlight) : State :=
  if f.sinc = 0 then s
  else { s with sigs := s.sigs ++ [{ src := .queue c q, home := f.home, inc := f.sinc, optag := f.optag, pc := f.pc }] }

/-- `s` with queues held by a completed instruction (R238, R239): a queue that would issue next is HELD. -/
def QState.hold (x : QState) : QState :=
  match x.mode with
  | .running | .waiting => { x with mode := .held, wcause := .none, fetched := none, lineWait := none }
  | _ => x

def State.holdQueues (s : State) (c : Nat) (q : Queue) : Hold → State
  | .none => s
  | .own => s.setQueue c q (s.queue c q).hold
  | .all => allQueues.foldl (fun s q => s.setQueue c q (s.queue c q).hold) s

/-- `s` with a refusal that waited for earlier instructions entering FAULTED once none is in flight: the PC is that of the refused
instruction, whatever was written into it meanwhile (R231; DEDUCED, log 77). -/
def State.dueRefusal (s : State) (c : Nat) (q : Queue) : State :=
  match (s.queue c q).refusal with
  | some r =>
    if (s.queue c q).inflight = [] then
      (s.setQueue c q { s.queue c q with pc := r.pc }).enterFault c q false r.code r.optag r.pc r.addr
    else s
  | none => s

/-- The unit and first-error register that a detected error's report names (R393, R397): the engine or the vector engine of a
self-checking code; none: the unit of the queue. -/
def State.errorUnit (s : State) (c : Nat) (code : W16) : Option (W16 × W64) :=
  if code = Code.RESIDUE_MISMATCH then
    some (srcOf (if s.regBit (coreK c 0x930) 62 then 2 else 1) c, s.reg (coreK c 0x930))
  else if code = Code.VEC_SHADOW_MISMATCH then some (srcOf 3 c, s.reg (coreK c 0xB28))
  else none

/-- `s` with the self-test that a detected error triggers (R397). -/
def State.errorTest (s : State) (c : Nat) (code : W16) : State :=
  match s.errorUnit c code with
  | some u => s.trigger u.1 code 0
  | none => s

/-- `s` with an in-flight entry that has finished its work completed, and no longer in flight (R223, R230, R231). A COMMIT that waited
for another's and is refused (R197) is recorded as a refusal; the queue's PC does not move back (DESIGN CHOICE, log 29). An END
leaves a queue that an earlier instruction faulted FAULTED, so that a START can resume it (R231, R237; DEDUCED, log 52). -/
def State.retire (s : State) (c : Fin 96) (q : Queue) (f : InFlight) : State :=
  let s := s.events c q f.events f.optag f.pc
  let s := if f.op = .vop || f.op = .vxadd then s.count (coreK c 0xB08) 1 else s
  let s := match f.post with
    | some (i, v) => s.setSreg c q i v
    | none => s
  let s := match f.error with
    | some e => (s.enterFault c q (e != Code.UPD_STEP_ORDER) e f.optag f.pc f.errAt (s.errorUnit c e)).errorTest c e
    | none => s.sendSignal c q f
  let s := if f.op = .end_ then
      let x := s.queue c q
      s.setQueue c q { x with mode := if x.mode = .faulted then .faulted else .halted, wcause := .none, loops := [], fetched := none }
    else s
  (s.holdQueues c q f.hold).dueRefusal c q

/-- An instruction in flight has nothing left to wait for but its place in the queue's order (R166, R230). -/
def Work.ended : Work → Bool
  | .done | .null _ => true
  | _ => false

/-- INSTRUCTION_COMPLETE (R230): the oldest instruction in flight completes when its work is done. -/
def execInstructionComplete (c : Fin 96) (q : Queue) (s : State) : Host.Outcome State Fault Refusal :=
  let x := s.queue c q
  match x.inflight with
  | [] => .next s
  | f :: r =>
    if f.work.ended && !s.coreHung c then .next ((s.setQueue c q { x with inflight := r }).retire c q f) else .next s

/-- `s` with one in-flight entry of a queue changed, found by its id. -/
def State.mapFlight (s : State) (c : Nat) (q : Queue) (id : Nat) (g : InFlight → InFlight) : State :=
  let x := s.queue c q
  s.setQueue c q { x with inflight := x.inflight.map fun f => if f.id = id then g f else f }

/-- The global address of an instruction in the instruction-memory window (R25, R344). -/
def State.imemAddr (s : State) (c : Nat) (pc : BitVec 14) : Nat :=
  imemBase + (6 * (s.vcluOf (s.ctxOf c) (c / 6)).getD (c / 6) + c % 6) * 0x40000 + 16 * pc.toNat

/-- The 128 bits of the instruction at an address of a core's instruction memory (R243). -/
def State.imemWord (s : State) (c : Nat) (pc : BitVec 14) : BitVec 128 :=
  BitVec.ofNat 128 (leNat (memRead s.mem (imemPa c (16 * pc.toNat)) 16))

/-- The logical buffer that an instruction of a matrix queue names (R108, R259, R260). -/
def bufOf (q : Queue) (w : InstrWord) : Nat := (if q = .mqb then 2 else 0) + (if w.f1 then 1 else 0)

/-- SLOT of an MMA (R259). -/
def slotOf (w : InstrWord) : Nat := opnd w 4 0

/-- The slot table entry whose MB the pick scheduler reads for a head, as a range of the context's table (R164, R170): the slot that the
buffer of an MDRN or a continuing MMA latched, or a fresh MMA's own; none while PIPE_SLBASE.EN is 0. -/
def State.mbRange (s : State) (c : Nat) (q : Queue) (o : Op) (w : InstrWord) : Option (Nat × Nat) :=
  let base := s.reg (pipeK (s.ctxOf c) 0)
  if (o = .mma || o = .mdrn) && bitAt base 0 then
    some (tableAddr base + 32 * (if o = .mma && !w.f0 then slotOf w else (s.buf c (bufOf q w)).slot.toNat) + 4, 4)
  else none

/-- `s` with MB read for an instruction that has just become the head (R164). The reading waits for no gated cluster (log 58). -/
def State.latchMb (s : State) (c : Nat) (q : Queue) (o : Op) (w : InstrWord) : State :=
  match s.mbRange c q o w with
  | some r =>
    (s.touched (s.ctxOf c) r.1 r.2).setQueue c q
      { s.queue c q with mb := leNat (s.tableRead (s.ctxOf c) r.1 r.2).data }
  | none => s

/-- `s` with an instruction word fetched as the head of a queue (R228, R297, R342). -/
def State.becomeHead (s : State) (c : Nat) (q : Queue) (b : BitVec 128) : State :=
  let t := { s.setQueue c q { s.queue c q with fetched := some b, age := s.ages, given := none } with ages := s.ages + 1 }
  match opOf (opField b) with
  | some o => t.latchMb c q o (frameOf b)
  | none => t

/-- `s` after a head with a reserved opcode has been considered: its wait, the queue's limits, then the refusal (R228, R246). -/
def State.reservedHead (s : State) (c : Nat) (q : Queue) (w : InstrWord) : State :=
  if !s.waitMet c q w then s.waitFor c q .sem
  else if !(s.queue c q).open_ q then s.waitFor c q .resource
  else s.refuse c q Code.OPCODE_RESERVED w.optag

/-- INSTRUCTION_FETCH (R228, R234, R342): the head at the PC is fetched. Beyond 12,287 and an uncorrectable word are refusals of
the fetch; a reserved opcode is considered at once, since no other command considers it (R246). -/
def execInstructionFetch (c : Fin 96) (q : Queue) (e : Ecc) (s : State) : Host.Outcome State Fault Refusal :=
  let x := s.queue c q
  if !(x.mode == .running || x.mode == .waiting) || x.refusal != none || x.inflight.any (·.op == .end_) || s.coreHung c then
    .next s
  else if 12288 ≤ x.pc.toNat then .next (s.refuse c q Code.PC_RANGE 0)
  else if e = .uncorrectable then
    .next (((s.memErr c q 2 x.pc 0 (s.imemAddr c x.pc)).refuse c q Code.MEM_IFETCH 0 (BitVec.ofNat 64 (s.imemAddr c x.pc))).trigger
      (srcOf 6 c) Code.MEM_IFETCH (imemPa c (16 * x.pc.toNat)))
  else
    let b := x.fetched.getD (s.imemWord c x.pc)
    let s := if x.fetched = none then s.becomeHead c q b else s
    match opOf (opField b) with
    | some _ => .next s
    | none => .next (s.reservedHead c q (frameOf b))

end Sys2Proof.Machine
end

