-- ==== Sys2Proof/Machine/Scalar.lean ====
section
/-! DEFINITION. The general instructions: NOP, END, LOOP, SEED, the scalar instructions, SLD, SST and DADD (R233, R234, R250 to
R255). -/

namespace Sys2Proof.Machine

/-- NOP (R250). -/
def execNop (c : Fin 96) (q : Queue) (w : InstrWord) (s : State) : Host.Outcome State Fault Refusal :=
  .next (s.runHead c q .nop w fun s => .issue { st := s })

/-- END (R234): HALTED follows at its completion. -/
def execEnd (c : Fin 96) (q : Queue) (w : InstrWord) (s : State) : Host.Outcome State Fault Refusal :=
  .next (s.runHead c q .end_ w fun s => .issue { st := s })

/-- The count of a LOOP (R233, R251). -/
def State.loopCount (s : State) (c : Nat) (q : Queue) (w : InstrWord) : BitVec 32 :=
  if w.f0 then BitVec.ofNat 32 (s.sreg c q (opnd w 3 0)).toNat else BitVec.ofNat 32 (opnd w 15 0)

/-- LOOP at `pc` with count `n` and end address `e` over a loop stack, top first (R233). -/
def loopVerdict (s : State) (pc : BitVec 14) (loops : List LoopEntry) (n : BitVec 32) (e : BitVec 14) : Verdict :=
  if e.toNat < pc.toNat + 1 || 12287 < e.toNat || (match loops with | t :: _ => t.end_.toNat < e.toNat | [] => false) then
    .refuse Code.LOOP_RANGE
  else if n = 0 then .issue { st := s, goto := some (advance e loops) }
  else if loops.length = 4 then .refuse Code.LOOP_DEPTH
  else .issue { st := s, goto := some (pc + 1, { start := pc + 1, end_ := e, left := n } :: loops) }

/-- LOOP (R233, R251). -/
def execLoop (c : Fin 96) (q : Queue) (w : InstrWord) (s : State) : Host.Outcome State Fault Refusal :=
  .next (s.runHead c q .loop w fun s =>
    loopVerdict s (s.queue c q).pc (s.queue c q).loops (s.loopCount c q w) (BitVec.ofNat 14 (opnd w 63 50)))

/-- The seed register of a queue (R65). -/
def seedK (c : Nat) (q : Queue) : Nat := coreK c (0x800 + 8 * qnum q)

/-- SEED (R252). -/
def execSeed (c : Fin 96) (q : Queue) (w : InstrWord) (s : State) : Host.Outcome State Fault Refusal :=
  .next (s.runHead c q .seed w fun s =>
    .issue { st := s.setReg (seedK c q) (if w.f0 then s.sreg c q (opnd w 3 0) else w.ops) })

/-- Operand a of a scalar instruction (R253). -/
def State.opA (s : State) (c : Nat) (q : Queue) (w : InstrWord) : W64 := s.sreg c q (opnd w 59 56)

/-- Operand b of a scalar instruction: the sign-extended immediate, or a register (R253). -/
def State.opB (s : State) (c : Nat) (q : Queue) (w : InstrWord) : W64 :=
  if w.f0 then (BitVec.ofNat 48 (opnd w 47 0)).signExtend 64 else s.sreg c q (opnd w 55 52)

/-- A scalar instruction whose result is `v` (R232, R253). -/
def State.scalar (s : State) (c : Nat) (q : Queue) (w : InstrWord) (v : W64) : Verdict :=
  .issue { st := s.setSreg c q (opnd w 63 60) v }

/-- SMOV (R253). -/
def execSmov (c : Fin 96) (q : Queue) (w : InstrWord) (s : State) : Host.Outcome State Fault Refusal :=
  .next (s.runHead c q .smov w fun s => s.scalar c q w (s.opB c q w))

/-- SMOVH (R253). -/
def execSmovh (c : Fin 96) (q : Queue) (w : InstrWord) (s : State) : Host.Outcome State Fault Refusal :=
  .next (s.runHead c q .smovh w fun s =>
    s.scalar c q w (putFld (s.sreg c q (opnd w 63 60)) 48 16 (opnd w 15 0)))

/-- SADD (R253). -/
def execSadd (c : Fin 96) (q : Queue) (w : InstrWord) (s : State) : Host.Outcome State Fault Refusal :=
  .next (s.runHead c q .sadd w fun s => s.scalar c q w (s.opA c q w + s.opB c q w))

/-- SSUB (R253). -/
def execSsub (c : Fin 96) (q : Queue) (w : InstrWord) (s : State) : Host.Outcome State Fault Refusal :=
  .next (s.runHead c q .ssub w fun s => s.scalar c q w (s.opA c q w - s.opB c q w))

/-- SMUL (R253). -/
def execSmul (c : Fin 96) (q : Queue) (w : InstrWord) (s : State) : Host.Outcome State Fault Refusal :=
  .next (s.runHead c q .smul w fun s => s.scalar c q w (s.opA c q w * s.opB c q w))

/-- SAND (R253). -/
def execSand (c : Fin 96) (q : Queue) (w : InstrWord) (s : State) : Host.Outcome State Fault Refusal :=
  .next (s.runHead c q .sand w fun s => s.scalar c q w (s.opA c q w &&& s.opB c q w))

/-- SOR (R253). -/
def execSor (c : Fin 96) (q : Queue) (w : InstrWord) (s : State) : Host.Outcome State Fault Refusal :=
  .next (s.runHead c q .sor w fun s => s.scalar c q w (s.opA c q w ||| s.opB c q w))

/-- SXOR (R253). -/
def execSxor (c : Fin 96) (q : Queue) (w : InstrWord) (s : State) : Host.Outcome State Fault Refusal :=
  .next (s.runHead c q .sxor w fun s => s.scalar c q w (s.opA c q w ^^^ s.opB c q w))

/-- SSHL (R253). -/
def execSshl (c : Fin 96) (q : Queue) (w : InstrWord) (s : State) : Host.Outcome State Fault Refusal :=
  .next (s.runHead c q .sshl w fun s => s.scalar c q w (s.opA c q w <<< ((s.opB c q w).toNat % 64)))

/-- SSHR, logical (R253). -/
def execSshr (c : Fin 96) (q : Queue) (w : InstrWord) (s : State) : Host.Outcome State Fault Refusal :=
  .next (s.runHead c q .sshr w fun s => s.scalar c q w (s.opA c q w >>> ((s.opB c q w).toNat % 64)))

/-- The detected error of a bad unit that an instruction reads (R333, R345). -/
def tagError : TagSt → Option W16
  | .good => none
  | .poisoned => some Code.MEM_POISON_READ
  | .mismatch => some Code.MEM_TAG_MISMATCH

/-- `s` after the head of a queue has read memory at `pa`, named by global address `addr`, with a tag outcome: the core records
the first bad read (R333), and a mismatch triggers the self-test of R397. -/
def State.tookTag (s : State) (c : Nat) (q : Queue) (optag : W16) (addr pa : Nat) (t : TagSt) : State :=
  match t with
  | .good => s
  | .poisoned => s.memErr c q 0 (s.queue c q).pc optag addr
  | .mismatch => (s.memErr c q 1 (s.queue c q).pc optag addr).trigger (memSource pa) Code.MEM_TAG_MISMATCH pa

/-- The address that a bad unit gives the fault record of the instruction that read it; 0 for a good one (R393). -/
def badAddr (t : TagSt) (addr : Nat) : Nat := if t = .good then 0 else addr

/-- SLD (R254): 8 bytes of the chamber reach s[DREG] at completion; a bad unit gives 0 and a detected error (R333). -/
def execSld (c : Fin 96) (q : Queue) (w : InstrWord) (s : State) : Host.Outcome State Fault Refusal :=
  .next (s.runHead c q .sld w fun s =>
    let o := s.offs c q w (opnd w 21 0)
    let r := s.readBytes (chamPa c o) 8
    .issue { st := s.tookTag c q w.optag (s.chamAddr c o) (chamPa c o) r.tag,
             post := some (opnd w 63 60, if r.tag = .good then BitVec.ofNat 64 (leNat r.data) else 0),
             error := tagError r.tag, errAt := badAddr r.tag (s.chamAddr c o) })

/-- SST (R254). -/
def execSst (c : Fin 96) (q : Queue) (w : InstrWord) (s : State) : Host.Outcome State Fault Refusal :=
  .next (s.runHead c q .sst w fun s =>
    .issue { st := s.writePart (chamPa c (s.offs c q w (opnd w 21 0))) (leBytes 8 (s.sreg c q (opnd w 63 60)).toNat) })

/-- The chamber offset of descriptor `d` (R275, R291). -/
def State.descOff (s : State) (c d : Nat) : Nat := s.regFld (coreK c 0xC00) 14 8 * 0x4000 + 64 * d

/-- DADD (R255): adds to the base of a descriptor, unless the descriptor's unit is bad (R333). -/
def execDadd (c : Fin 96) (q : Queue) (w : InstrWord) (s : State) : Host.Outcome State Fault Refusal :=
  .next (s.runHead c q .dadd w fun s =>
    let o := s.descOff c (opnd w 7 0)
    let r := s.readBytes (chamPa c o) 8
    let s' := s.tookTag c q w.optag (s.chamAddr c o) (chamPa c o) r.tag
    .issue { st := if r.tag = .good then
                s'.writePart (chamPa c o) (leBytes 8 (BitVec.ofNat 64 (leNat r.data) + s.sreg c q (opnd w 63 60)).toNat)
              else s',
             error := tagError r.tag, errAt := badAddr r.tag (s.chamAddr c o) })

end Sys2Proof.Machine
end

