-- ==== Sys2Proof/Machine/FabReq.lean ====
section
/-! DEFINITION. Queue pairs, routes and the sending of Soxis requests (14_quays_and_soxis_fabric.md R350 to R368). -/

namespace Sys2Proof.Machine

/-- A unit write: the nibbles of one 64-byte unit that a run of element writes covers (R283, R356). `mask` holds one bit per
nibble, nibble 2i the low half of byte i; `data` the 64 bytes, unwritten nibbles 0. -/
structure UnitWr where
  addr : Nat
  mask : Nat
  data : Nat
  poison : Bool
deriving DecidableEq, Repr

/-- Every nibble of a unit. -/
def fullMask : Nat := 2 ^ 128 - 1

/-- Local address of word `i` of a queue pair's entry (R350). -/
def State.qpPlace (s : State) (n i : Nat) : Place :=
  s.localPlace 0 (s.regFld (fabK 0 8) 6 40 * 64 + 64 * n + 8 * i)

/-- Word `i` of a queue pair's entry. -/
def State.qpWord (s : State) (n i : Nat) : W64 :=
  match s.qpPlace n i with
  | .mem pa => BitVec.ofNat 64 (leNat (s.readBytes pa 8).data)
  | _ => 0

/-- `s` with word `i` of a queue pair's entry written. -/
def State.setQpWord (s : State) (n i : Nat) (v : W64) : State :=
  match s.qpPlace n i with
  | .mem pa => s.writePart pa (leBytes 8 v.toNat)
  | _ => s

def State.qpFld (s : State) (n i lo len : Nat) : Nat := fld (s.qpWord n i) lo len
def State.setQpFld (s : State) (n i lo len x : Nat) : State := s.setQpWord n i (putFld (s.qpWord n i) lo len x)

/-- STATE of a queue pair: 0 RESET, 1 READY, 2 ERROR (R350). -/
def State.qpState (s : State) (n : Nat) : Nat := s.qpFld n 0 61 3
/-- The quay of a queue pair. -/
def State.qpQuay (s : State) (n : Nat) : Nat := s.qpFld n 0 58 3
/-- The PFC class of a queue pair. -/
def State.qpClass (s : State) (n : Nat) : Nat := s.qpFld n 0 56 2

/-- Most data units of one packet (R355). -/
def State.qpUnits (s : State) (n : Nat) : Nat :=
  match s.qpFld n 0 54 2 with
  | 0 => 14
  | 1 => 30
  | _ => 61

/-- The context that a queue pair is bound to: one of 1 to 15, or context 0 (R21, R351, R378). -/
def State.qpCtx (s : State) (n : Nat) : Nat :=
  if s.fencedQp n then 0
  else ((s.regs.findSome? fun p =>
    let o := p.1 - 0x100000
    let b := fld p.2 0 14
    if 0x110000 ≤ p.1 && p.1 < 0x200000 && o % 0x10000 == 0x400 && b ≤ n && n < b + fld p.2 32 15
    then some (o / 0x10000) else none)).getD 0

/-- Local address of a device's entry in a context's route table (R352). -/
def State.routeAt (s : State) (ctx dev : Nat) : Nat := tableAddr (s.reg (fabK ctx 0)) + 4 * dev

/-- The queue pair that a context's route table gives for a device, or the refusal (R352). -/
def State.route (s : State) (ctx dev : Nat) : Ident :=
  let e := leNat (s.tableRead ctx (s.routeAt ctx dev) 4).data
  let n := e % 0x4000
  if e / 0x80000000 % 2 = 0 || s.qpCtx n ≠ ctx then .bad Code.FAB_NO_ROUTE
  else if s.qpState n ≠ 1 then .bad Code.FAB_QP_STATE
  else .home n

/-- The queue pair that a context's route table names for a device. -/
def State.routeQp (s : State) (ctx dev : Nat) : Nat := leNat (s.tableRead ctx (s.routeAt ctx dev) 4).data % 0x4000

/-- A verdict over the route table entries of the devices that an instruction names: read when the route is checked, which is last, so by
a refusal of the route and by an instruction that issues (R27, R352, R429). -/
def Verdict.routed (s : State) (ctx : Nat) (devs : List Nat) (v : Verdict) : Verdict :=
  let t := v.reading s ctx (devs.map fun d => (s.routeAt ctx d, 4))
  match v with
  | .refuse code => if code = Code.FAB_NO_ROUTE || code = Code.FAB_QP_STATE then t else v
  | .refuseRef r => if r.code = Code.FAB_NO_ROUTE || r.code = Code.FAB_QP_STATE then t else v
  | _ => t

/-- A fabric-space address. -/
def fabAddr (dev off : Nat) : W64 := BitVec.ofNat 64 (0x4000000000000000 + dev * 0x400000000000 + off)

/-- A unit as the transmit path sends it: its stored tag, or the complement of the computed one when that is not good (R363). -/
def soxUnit (bs : List Byte) (good : Bool) : SoxUnit :=
  { data := unitOf bs, tag := if good then checkTag bs else ~~~ checkTag bs }

/-- The header of a packet for a queue pair (R350, R353). -/
def State.packet (s : State) (n : Nat) (op : BitVec 8) (psn : BitVec 24) : Packet :=
  { qp := s.qpFld n 0 0 24, psn := psn, pkey := BitVec.ofNat 16 (s.qpFld n 0 29 16), op := op, epoch := s.epoch,
    sdev := BitVec.ofNat 16 s.fuses.device }

/-- The packet of a request (R353 to R355). -/
def State.reqPacket (s : State) (n : Nat) (r : Req) : Packet :=
  { s.packet n r.op r.psn with
    flags := if r.retx then 1 else 0
    tdev := BitVec.ofNat 16 (r.addr.toNat / 0x400000000000 % 0x10000)
    nunits := BitVec.ofNat 8 r.nunits
    addr := r.addr
    opa := r.opa
    opb := r.opb
    units := r.units }

/-- The frame of what queue pair `n` sends (R348, R350, R374). -/
def State.frameFor (s : State) (n : Nat) : Frame :=
  let qy := s.qpQuay n
  let v6 := s.qpFld n 0 53 1 == 1
  let two := fun (h l : W64) => h.setWidth 128 <<< 64 ||| l.setWidth 128
  { dmac := BitVec.ofNat 48 (s.qpFld n 1 0 48), smac := BitVec.ofNat 48 (s.regFld (quayK qy 0x10) 0 48),
    vid := BitVec.ofNat 12 (s.qpFld n 1 52 12), pcp := BitVec.ofNat 3 (s.regFld (quayK qy 0x30) (3 * s.qpClass n) 3), ipv6 := v6,
    dip := if v6 then two (s.qpWord n 2) (s.qpWord n 3) else BitVec.ofNat 128 (s.qpFld n 3 0 32),
    sip := if v6 then two (s.reg (quayK qy 0x20)) (s.reg (quayK qy 0x28)) else BitVec.ofNat 128 (s.regFld (quayK qy 0x18) 0 32),
    sport := BitVec.ofNat 16 (s.qpFld n 4 48 16), dscp := BitVec.ofNat 6 (s.qpFld n 4 42 6) }

/-- `s` with a packet of queue pair `n`, or a congestion notification (none), sent on its quay (R364). -/
def State.emit (s : State) (n : Nat) : Option Packet → State
  | some p => (s.count (quayK (s.qpQuay n) 0x148) 1).send (.soxis (s.qpQuay n) p (s.frameFor n))
  | none => ((s.count (quayK (s.qpQuay n) 0x160) 1).count (quayK (s.qpQuay n) 0x148) 1).send (.cnp (s.qpQuay n) n (s.frameFor n))

/-- The class of a quay is paused on transmit: paused, enabled for PFC and not in a storm (R368, R369). -/
def State.classPaused (s : State) (qy cls : Nat) : Bool :=
  tgetD s.paused (4 * qy + cls) false && s.regBit (quayK qy 0x30) (12 + cls) && !s.regBit (quayK qy 0x8) (59 + cls)

/-- The class of a queue pair may send now: its quay's link is up, and it is not paused (R347, R368). -/
def State.canSend (s : State) (n : Nat) : Bool :=
  s.regBit (quayK (s.qpQuay n) 0x8) 63 && !s.classPaused (s.qpQuay n) (s.qpClass n)

/-- `s` with a response or a notification of a queue pair sent, or waiting behind those that its class may not send yet (R368). -/
def State.sendOut (s : State) (n : Nat) (o : Option Packet) : State :=
  if s.canSend n && (s.qp n).waiting == [] then s.emit n o
  else s.setQp n { s.qp n with waiting := (s.qp n).waiting ++ [o] }

/-- Bytes that a request holds in the transmit buffer (R366). -/
def reqBytes (r : Req) : Nat := if r.op = 1 then 0 else 40 + 64 * r.units.length

/-- Bytes held in the transmit buffer of a quay. -/
def State.txBytes (s : State) (qy : Nat) : Nat :=
  (s.qps.map fun p => if s.qpQuay p.1 = qy then (p.2.outstanding.map reqBytes).sum else 0).sum

/-- The limits of a queue pair and of the transmit buffer let a new request go (R356, R366). -/
def State.mayStart (s : State) (n : Nat) (r : Req) : Bool :=
  let x := s.qp n
  x.outstanding.length < 128
    && (r.op != 1 || (x.outstanding.filter (·.op == 1)).length < 32)
    && (!(r.op == 4 || r.op == 5) || (x.outstanding.filter (fun o => o.op == 4 || o.op == 5)).length < 16)
    && s.txBytes (s.qpQuay n) + reqBytes r ≤ 0x200000

/-- `s` with a new request of a queue pair sent, under its next PSN. -/
def State.startReq (s : State) (n : Nat) (r : Req) (rest : List Req) : State :=
  let r := { r with psn := BitVec.ofNat 24 (s.qpFld n 5 24 24) }
  let t := s.setQpFld n 5 24 24 (r.psn.toNat + 1)
  let t := t.setQp n { t.qp n with queued := rest, outstanding := (t.qp n).outstanding ++ [r], sent := (t.qp n).sent + 1 }
  t.emit n (some (t.reqPacket n r))

/-- `s` with an outstanding request sent again, with RETX and the current epoch (R361, R362). -/
def State.resend1 (s : State) (n : Nat) (r : Req) : State :=
  let t := s.setQp n { s.qp n with outstanding := (s.qp n).outstanding.map fun o =>
    if o.psn = r.psn then { o with due := false, tries := o.tries + 1 } else o }
  (t.count (quayK (t.qpQuay n) 0x150) 1).emit n (some (t.reqPacket n { r with retx := true }))

/-- The state after one packet of a queue pair has gone out; none: it is not ready to send. What answers others goes first, then what is to
be sent again, then new requests. -/
def State.turn1 (s : State) (n : Nat) : Option State :=
  let x := s.qp n
  if !s.canSend n then none
  else match x.waiting with
    | o :: r => some ((s.setQp n { x with waiting := r }).emit n o)
    | [] =>
      if s.qpState n != 1 || x.holdOff then none
      else match x.outstanding.find? (·.due), x.queued with
        | some r, _ => some (s.resend1 n r)
        | none, r :: rest => if s.mayStart n r then some (s.startReq n r rest) else none
        | none, [] => none

/-- The queue pairs of a class of a quay, from the one after the last that sent (R365). -/
def State.inTurn (s : State) (qy cls : Nat) : List Nat :=
  let l := (s.qps.map (·.1)).filter fun n => s.qpQuay n == qy && s.qpClass n == cls
  let last := tgetD s.turns (8 * qy + cls) 16384
  l.filter (last < ·) ++ l.filter (· ≤ last)

/-- The classes of a quay, from the one after the last that sent. -/
def State.classTurn (s : State) (qy : Nat) : List Nat :=
  let last := tgetD s.turns (8 * qy + 4) 3
  (List.range 4).map fun i => (last + 1 + i) % 4

/-- One turn of a quay: the classes in turn, since they have equal weight, and in each its queue pairs in round-robin turn (R365). -/
def State.turn (s : State) (qy : Nat) : Option State :=
  (s.classTurn qy).findSome? fun cls =>
    (s.inTurn qy cls).findSome? fun n =>
      (s.turn1 n).map fun t => { t with turns := tset (tset t.turns (8 * qy + cls) n) (8 * qy + 4) cls }

/-- `s` after at most `n` turns of a quay. -/
def State.turns_ (s : State) (qy : Nat) : Nat → State
  | 0 => s
  | n + 1 => match s.turn qy with
    | some t => t.turns_ qy n
    | none => s

/-- Packets that the queue pairs could send. -/
def QpSt.backlog (x : QpSt) : Nat := x.waiting.length + (x.outstanding.filter (·.due)).length + x.queued.length

/-- `s` with what waits at a quay sent as far as may be (R356, R365, R368). -/
def State.pumpQuay (s : State) (qy : Nat) : State := s.turns_ qy (s.qps.map fun p => p.2.backlog).sum

/-- QUAY_QPERR of a failure (R374). -/
def qpErrWord (n : Nat) (reason : Nat) (code : W16) (psn : BitVec 24) : W64 :=
  putFld (putFld (putFld (putFld (putBit 0 63 true) 55 8 reason) 41 14 n) 25 16 code.toNat) 0 24 psn.toNat

/-- `s` with a request recorded that failed before it was sent, its queue pair not being READY (R362): it has the next PSN. -/
def State.failEarly (s : State) (n : Nat) : State :=
  s.first (quayK (s.qpQuay n) 0x50) (qpErrWord n 0 Code.FAB_QP_ERROR (BitVec.ofNat 24 (s.qpFld n 5 24 24)))

/-- `s` with requests handed to a queue pair. On one that is not READY they fail: a kerb record is then lost (R352, R362); instructions
hand requests only to the READY queue pair that their route names. -/
def State.request (s : State) (n : Nat) (rs : List Req) : State :=
  if s.qpState n ≠ 1 then (if rs = [] then s else s.failEarly n)
  else (s.setQp n { s.qp n with queued := (s.qp n).queued ++ rs }).pumpQuay (s.qpQuay n)

/-- A new request. -/
def newReq (owner : Owner) (op : BitVec 8) (addr : W64) : Req :=
  { owner := owner, psn := 0, op := op, addr := addr, opa := 0, opb := 0, nunits := 0, units := [], retx := false,
    tries := 0, refusals := 0, due := false }

/-- READ requests for units given by their offsets at the target: a unit joins the packet of the unit just before it when it
lies directly above it, within the limit and a 4,096-byte page (R356). -/
def readReqs (owner : Owner) (dev limit : Nat) (last : Option Req) : List Nat → List Req
  | [] => last.toList
  | u :: us =>
    let one := { newReq owner 1 (fabAddr dev u) with nunits := 1 }
    match last with
    | some r =>
      if r.addr + BitVec.ofNat 64 (64 * r.nunits) = fabAddr dev u && r.nunits < limit && u % 4096 ≠ 0 then
        readReqs owner dev limit (some { r with nunits := r.nunits + 1 }) us
      else r :: readReqs owner dev limit (some one) us
    | none => readReqs owner dev limit (some one) us

/-- The bits of one half of each byte in a nibble mask: 0 low halves, 1 high halves. -/
def halfMask (mask half : Nat) : W64 :=
  (List.range 64).foldl (fun v i => putBit v i (mask.testBit (2 * i + half))) 0

/-- The data unit of a unit write, tag over the 64 bytes sent (R356, R363). -/
def wrUnit (u : UnitWr) : SoxUnit := soxUnit (leBytes 64 u.data) (!u.poison)

/-- WRITE and WRITE_MASKED requests of unit writes in order (R356). -/
def writeReqs (owner : Owner) (dev limit : Nat) (last : Option Req) : List UnitWr → List Req
  | [] => last.toList
  | u :: us =>
    let off := u.addr % 0x400000000000
    if u.mask = fullMask then
      let one := { newReq owner 2 (fabAddr dev off) with nunits := 1, units := [wrUnit u] }
      match last with
      | some r =>
        if r.addr + BitVec.ofNat 64 (64 * r.nunits) = fabAddr dev off && r.nunits < limit && off % 4096 ≠ 0 then
          writeReqs owner dev limit (some { r with nunits := r.nunits + 1, units := r.units ++ [wrUnit u] }) us
        else r :: writeReqs owner dev limit (some one) us
      | none => writeReqs owner dev limit (some one) us
    else
      last.toList ++ { newReq owner 3 (fabAddr dev off) with nunits := 1, units := [wrUnit u], opa := halfMask u.mask 0,
                                                              opb := halfMask u.mask 1 }
        :: writeReqs owner dev limit none us

/-- Requests of an owner are still outstanding or waiting. -/
def State.owes (s : State) (o : Owner) : Bool :=
  s.qps.any fun p => p.2.outstanding.any (·.owner == o) || p.2.queued.any (·.owner == o)

end Sys2Proof.Machine
end

