-- ==== Sys2Proof/Machine/Formats.lean ====
section
/-! DEFINITION. Number formats, rounding modes and conversions (02_number_formats.md). Values are exact: a signed integer times
a power of two. -/

namespace Sys2Proof.Machine

/-- A value that a pattern stands for. `fin m e` is m * 2^e; there is no negative zero (R49, R50). -/
inductive Num where
  | nan
  | inf (neg : Bool)
  | fin (m : Int) (e : Int)
deriving DecidableEq, Repr

/-- Zero. -/
def Num.zero : Num := .fin 0 0

/-- Rounding modes of the RND field (R56). -/
inductive Rnd where
  | rne | rtz | sr
deriving DecidableEq, Repr

/-- The mode of a RND code; none: RND_RESERVED (R56). -/
def rndOf : Nat → Option Rnd
  | 0 => some .rne
  | 1 => some .rtz
  | 2 => some .sr
  | _ => none

/-- Number of significant bits of `m`. -/
def bitLen (m : Nat) : Nat := if m = 0 then 0 else Nat.log2 m + 1

/-- A magnitude m * 2^e cut to a target of `p` significant bits whose smallest step is 2^qmin: the target's code toward zero
(its magnitudes in ascending order), and the discarded part with its width in bits. -/
def cut (p : Nat) (qmin : Int) (m : Nat) (e : Int) : Nat × Nat × Nat :=
  let q := max ((bitLen m : Int) + e - p) qmin
  let base := (q - qmin).toNat * 2 ^ (p - 1)
  if m = 0 then (0, 0, 0)
  else if q ≤ e then (base + m * 2 ^ (e - q).toNat, 0, 0)
  else
    let s := (q - e).toNat
    (base + m / 2 ^ s, m % 2 ^ s, s)

/-- The 16 bits directly below the target's last bit (R58). -/
def frac16 (rem width : Nat) : Nat :=
  if 16 ≤ width then rem / 2 ^ (width - 16) else rem * 2 ^ (16 - width)

/-- SR rounds up (R58). -/
def srUp (f r : Nat) : Bool := 0xFFFF < f + r

/-- Whether a cut magnitude rounds up under a mode, with the 16 random bits `r` (R57, R58). -/
def roundsUp (mode : Rnd) (r code rem width : Nat) : Bool :=
  match mode with
  | .rtz => false
  | .sr => srUp (frac16 rem width) r
  | .rne => rem ≠ 0 && (2 ^ width < 2 * rem || (2 * rem = 2 ^ width && code % 2 = 1))

/-- A rounded magnitude: its code, and whether the exact magnitude lay above the largest finite one (R68). -/
structure Mag where
  code : Nat
  sat : Bool
deriving DecidableEq, Repr

/-- Rounding to a saturating target whose largest finite code is `top` (R57, R58). -/
def roundSat (p : Nat) (qmin : Int) (top : Nat) (mode : Rnd) (r m : Nat) (e : Int) : Mag :=
  let (c, rem, width) := cut p qmin m e
  if top < c || (c = top && rem ≠ 0) then { code := top, sat := true }
  else { code := c + (if roundsUp mode r c rem width then 1 else 0), sat := false }

/-- Rounding to a target with infinities, code `top` + 1 (R57, R58). -/
def roundInf (p : Nat) (qmin : Int) (top : Nat) (mode : Rnd) (r m : Nat) (e : Int) : Mag :=
  let (c, rem, width) := cut p qmin m e
  let sat := decide (top < c) || (c = top && rem ≠ 0)
  if mode = .rtz then { code := min c top, sat := sat }
  else if top < c then { code := top + 1, sat := sat }
  else { code := c + (if roundsUp mode r c rem width then 1 else 0), sat := sat }

/-- The element formats of codes 0x0 to 0x8 (R38). -/
inductive Fmt where
  | e2m1 | int4 | e4m3 | e5m2 | bf16 | fp32 | e8m0 | e8m3 | u32
deriving DecidableEq, Repr

/-- The format of a code; none: reserved (R38). -/
def fmtOf : Nat → Option Fmt
  | 0 => some .e2m1 | 1 => some .int4 | 2 => some .e4m3 | 3 => some .e5m2 | 4 => some .bf16 | 5 => some .fp32
  | 6 => some .e8m0 | 7 => some .e8m3 | 8 => some .u32 | _ => none

/-- Element size in bits; E8M3 in its container (R38). -/
def Fmt.bits : Fmt → Nat
  | .e2m1 | .int4 => 4
  | .e4m3 | .e5m2 | .e8m0 => 8
  | .bf16 | .e8m3 => 16
  | .fp32 | .u32 => 32

/-- A signed value from a sign and a magnitude. -/
def signed (neg : Bool) (m : Nat) (e : Int) : Num := .fin (if neg then -(m : Int) else m) e

/-- The finite magnitude that an ascending code stands for, `p` significant bits above step 2^qmin. -/
def magOf (p : Nat) (qmin : Int) (code : Nat) : Nat × Int :=
  let h := 2 ^ (p - 1)
  if code < 2 * h then (code, qmin) else (h + code % h, qmin + (code / h : Nat) - 1)

/-- The value of a pattern of a format (R41 to R47, R49). -/
def Fmt.value (f : Fmt) (x : Nat) : Num :=
  match f with
  | .e2m1 => let (m, e) := magOf 2 (-1) (x % 8); signed (x / 8 % 2 = 1) m e
  | .int4 => .fin (if x % 16 < 8 then (x % 16 : Nat) else (x % 16 : Nat) - 16) 0
  | .e4m3 =>
    if x % 128 = 0x7F then .nan else let (m, e) := magOf 4 (-9) (x % 128); signed (x / 128 % 2 = 1) m e
  | .e5m2 =>
    if 0x7C < x % 128 then .nan else if x % 128 = 0x7C then .inf (x / 128 % 2 = 1)
    else let (m, e) := magOf 3 (-16) (x % 128); signed (x / 128 % 2 = 1) m e
  | .bf16 =>
    let a := x % 0x8000
    let n := decide (x / 0x8000 % 2 = 1)
    if 0x7F80 < a then .nan else if a = 0x7F80 then .inf n else let (m, e) := magOf 8 (-133) a; signed n m e
  | .fp32 =>
    let a := x % 0x80000000
    let n := decide (x / 0x80000000 % 2 = 1)
    if 0x7F800000 < a then .nan else if a = 0x7F800000 then .inf n else let (m, e) := magOf 24 (-149) a; signed n m e
  | .e8m0 => if x % 256 = 255 then .nan else .fin 1 ((x % 256 : Nat) - 127)
  | .e8m3 =>
    let a := x % 4096
    if 0x7F8 ≤ a then .nan else let (m, e) := magOf 4 (-129) a; .fin m e
  | .u32 => .fin (x % 2 ^ 32 : Nat) 0

/-- The canonical NaN of a format (R52); 0 for the formats that hold none. -/
def Fmt.nanPat : Fmt → Nat
  | .fp32 => 0x7FC00000 | .bf16 => 0x7FC0 | .e5m2 => 0x7E | .e4m3 => 0x7F | .e8m0 => 0xFF | .e8m3 => 0x7F8
  | _ => 0

/-- Infinity of a format, as R67 writes it. -/
def Fmt.infPat (f : Fmt) (neg : Bool) : Nat :=
  match f with
  | .fp32 => if neg then 0xFF800000 else 0x7F800000
  | .bf16 => if neg then 0xFF80 else 0x7F80
  | .e5m2 => if neg then 0xFC else 0x7C
  | f => f.nanPat

/-- A pattern written, and whether the conversion was a saturation (R68). -/
structure Pat where
  bits : Nat
  sat : Bool := false
deriving DecidableEq, Repr

/-- A magnitude code with its sign applied; a zero has no sign (R50). -/
def withSign (signBit : Nat) (neg : Bool) (m : Mag) : Pat :=
  { bits := if neg && m.code ≠ 0 then m.code + signBit else m.code, sat := m.sat }

/-- A finite value rounded to an element format (R57, R58, R67). -/
def Fmt.roundFin (f : Fmt) (mode : Rnd) (r : Nat) (m e : Int) : Pat :=
  let a := m.natAbs
  let neg := decide (m < 0)
  match f with
  | .e2m1 => withSign 8 neg (roundSat 2 (-1) 7 mode r a e)
  | .int4 =>
    let x := roundSat 64 0 (if neg then 8 else 7) mode r a e
    { bits := if neg then (16 - x.code) % 16 else x.code, sat := x.sat }
  | .e4m3 => withSign 0x80 neg (roundSat 4 (-9) 0x7E mode r a e)
  | .e5m2 => withSign 0x80 neg (roundSat 3 (-16) 0x7B mode r a e)
  | .bf16 => withSign 0x8000 neg (roundInf 8 (-133) 0x7F7F mode r a e)
  | .fp32 => withSign 0x80000000 neg (roundInf 24 (-149) 0x7F7FFFFF mode r a e)
  | .e8m0 =>
    if a = 0 then { bits := 0 }
    else
      let x := (bitLen a : Int) + e - (if a = 2 ^ (bitLen a - 1) then 1 else 0) + 127
      { bits := min x.toNat 0xFE, sat := decide (0xFE < x) }
  | .e8m3 =>
    let (c, rem, _) := cut 4 (-129) a e
    let c' := c + (if rem = 0 then 0 else 1)
    { bits := min c' 0x7F7, sat := decide (0x7F7 < c') }
  | .u32 => { bits := a % 2 ^ 32 }

/-- A value converted to a format (R67). Scale formats round the magnitude upward and ignore the mode (R59). -/
def Fmt.conv (f : Fmt) (mode : Rnd) (r : Nat) : Num → Pat
  | .nan => { bits := f.nanPat }
  | .inf n => { bits := f.infPat n }
  | .fin m e => f.roundFin mode r m e

/-- Round to odd into the 40 significant bits of the wide intermediate (R60). -/
def wide : Num → Num
  | .fin m e =>
    let a := m.natAbs
    let l := bitLen a
    if l ≤ 40 then .fin m e
    else
      let s := l - 40
      let c := a / 2 ^ s
      let c := if a % 2 ^ s ≠ 0 && c % 2 = 0 then c + 1 else c
      .fin (if m < 0 then -(c : Int) else c) (e + s)
  | x => x

/-- The exact sum of two finite values. -/
def finAdd (m e n f : Int) : Num :=
  let g := min e f
  .fin (m * 2 ^ (e - g).toNat + n * 2 ^ (f - g).toNat) g

/-- The sign of a finite difference m * 2^e - n * 2^f. -/
def finCmp (m e n f : Int) : Int :=
  let g := min e f
  m * 2 ^ (e - g).toNat - n * 2 ^ (f - g).toNat

/-- Negation. -/
def Num.neg : Num → Num
  | .nan => .nan
  | .inf n => .inf !n
  | .fin m e => .fin (-m) e

/-- Magnitude. -/
def Num.abs : Num → Num
  | .inf _ => .inf false
  | .fin m e => .fin (m.natAbs : Int) e
  | .nan => .nan

/-- The exact sum: infinities of opposite sign give NaN (IEEE 754, R113). -/
def Num.add : Num → Num → Num
  | .nan, _ => .nan
  | _, .nan => .nan
  | .inf a, .inf b => if a = b then .inf a else .nan
  | .inf a, _ => .inf a
  | _, .inf b => .inf b
  | .fin m e, .fin n f => finAdd m e n f

/-- The exact product: zero times infinity gives NaN. -/
def Num.mul : Num → Num → Num
  | .nan, _ => .nan
  | _, .nan => .nan
  | .inf a, .inf b => .inf (a != b)
  | .inf a, .fin m _ => if m = 0 then .nan else .inf (a != decide (m < 0))
  | .fin m _, .inf b => if m = 0 then .nan else .inf (b != decide (m < 0))
  | .fin m e, .fin n f => .fin (m * n) (e + f)

/-- The value is zero. -/
def Num.isZero : Num → Bool
  | .fin m _ => m == 0
  | _ => false

/-- The value is finite. -/
def Num.isFin : Num → Bool
  | .fin _ _ => true
  | _ => false

/-- Strictly less; false when a NaN takes part. -/
def Num.lt : Num → Num → Bool
  | .nan, _ => false
  | _, .nan => false
  | .inf a, .inf b => a && !b
  | .inf a, .fin _ _ => a
  | .fin _ _, .inf b => !b
  | .fin m e, .fin n f => decide (finCmp m e n f < 0)

/-- Equal values; false when a NaN takes part. -/
def Num.eqv : Num → Num → Bool
  | .inf a, .inf b => a == b
  | .fin m e, .fin n f => finCmp m e n f == 0
  | _, _ => false

/-- The FP32 pattern of a value rounded to nearest even. -/
def f32 (x : Num) : Nat := (Fmt.fp32.conv .rne 0 x).bits

/-- The value of an FP32 pattern. -/
def v32 (p : Nat) : Num := Fmt.fp32.value p

/-- The quotient a / b of positive integers with at least 66 significant bits; the last bit is sticky. -/
def quoMag (a b : Nat) : Nat × Int :=
  let k := 66 + bitLen b
  let n := a * 2 ^ k
  let q := n / b
  (2 * q + (if n % b = 0 then 0 else 1), -(k : Int) - 1)

/-- Exact division of finite values, `b` not zero, to at least 66 bits with a sticky last bit: any rounding of at most 64 bits
of it is the rounding of the exact quotient. -/
def finDiv (m e n f : Int) : Num :=
  let (q, x) := quoMag m.natAbs n.natAbs
  .fin (if (m < 0) = (n < 0) then (q : Int) else -(q : Int)) (x + e - f)

/-- One step of the integer square root, from the bit 2^k down. -/
def sqrtStep (n : Nat) : Nat → Nat → Nat
  | 0, r => if (r + 1) * (r + 1) ≤ n then r + 1 else r
  | k + 1, r => let t := r + 2 ^ (k + 1); sqrtStep n k (if t * t ≤ n then t else r)

/-- The integer square root. -/
def isqrt (n : Nat) : Nat := sqrtStep n (bitLen n / 2 + 1) 0

/-- The square root of a positive value to at least 66 bits with a sticky last bit. -/
def finSqrt (m : Nat) (e : Int) : Num :=
  let k : Nat := 140 + (if e % 2 = 0 then 0 else 1)
  let n := m * 2 ^ k
  let r := isqrt n
  .fin (2 * r + (if r * r = n then 0 else 1) : Nat) ((e - k) / 2 - 1)

/-- The random bits of one rounding (R62). -/
def srBits (seed : W64) (tag : W16) (stage idx : Nat) : Nat :=
  let c : W64 := (BitVec.ofNat 64 tag.toNat <<< 48) ||| (BitVec.ofNat 64 (stage % 16) <<< 44)
    ||| BitVec.ofNat 64 (idx % 0x100000000000)
  let z : W64 := seed + (c + 1) * 0x9E3779B97F4A7C15
  let z := (z ^^^ (z >>> 30)) * 0xBF58476D1CE4E5B9
  let z := (z ^^^ (z >>> 27)) * 0x94D049BB133111EB
  let z := z ^^^ (z >>> 31)
  (z >>> 48).toNat

/-- Consecutive pieces of `n` elements. -/
def chunks {α : Type} (n : Nat) (xs : List α) : List (List α) :=
  (List.range ((xs.length + n - 1) / n)).map fun i => (xs.drop (i * n)).take n

end Sys2Proof.Machine
end

