-- ==== Sys2Proof/Machine/Desc.lean ====
section
/-! DEFINITION. Tensor descriptors: fields, checks, element addresses, element reads, and the grouping and landing of element
writes (11_tensor_descriptors_and_movers.md R273 to R288, R333, R356). -/

namespace Sys2Proof.Machine

/-- A latched descriptor (R273). -/
structure Desc where
  base : Nat
  ext : List Nat
  str : List Int
  fmt : Nat
  ndim : Nat
  padw : Bool
  padz : Bool
  idxen : Bool
  idxdim : Nat
  idxd : Nat
  resv : Nat
  org : Nat
deriving DecidableEq, Repr

/-- A signed 48-bit integer. -/
def s48 (x : Nat) : Int := if x < 2 ^ 47 then (x : Int) else (x : Int) - 2 ^ 48

/-- The fields of 64 descriptor bytes (R273). -/
def descOf (u : UnitData) : Desc :=
  let b := fun lo len => (u.toNat >>> (8 * lo)) % 2 ^ (8 * len)
  let c := b 0x3A 6
  { base := b 0 8
    ext := [b 0x08 4, b 0x0C 4, b 0x10 4, b 0x14 4, b 0x18 4]
    str := [s48 (b 0x1C 6), s48 (b 0x22 6), s48 (b 0x28 6), s48 (b 0x2E 6), s48 (b 0x34 6)]
    fmt := c / 2 ^ 44
    ndim := c / 2 ^ 41 % 8
    padw := c.testBit 40
    padz := c.testBit 39
    idxen := c.testBit 38
    idxdim := c / 2 ^ 35 % 8
    idxd := c / 2 ^ 27 % 256
    resv := c / 2 ^ 24 % 8
    org := c % 2 ^ 24 }

/-- Extent and stride of a dimension. -/
def Desc.extent (d : Desc) (i : Nat) : Nat := d.ext.getD i 0
def Desc.stride (d : Desc) (i : Nat) : Int := d.str.getD i 0

/-- The CTRL codes of R274. -/
def Desc.ctrlOk (d : Desc) : Bool :=
  1 ≤ d.ndim && d.ndim ≤ 5 && d.resv == 0 && (if d.idxen then d.idxdim < d.ndim else d.idxdim == 0 && d.idxd == 0)

/-- A tensor: its descriptor, its index tensor's descriptor, and the index entries as read, each with the code of a bad unit. -/
structure Tensor where
  d : Desc
  ix : Option Desc := none
  idx : List (Nat × W16) := []
deriving DecidableEq, Repr

/-- The model's own code for the 64-byte exact partials of an RD (R217). -/
def partialFmt : Nat := 0x100

/-- The size of an element in nibbles (R217, R276). -/
def Desc.nibs (d : Desc) : Nat := if d.fmt = partialFmt then 128 else match fmtOf d.fmt with | some f => f.bits / 4 | none => 2

/-- Elements to bytes: the first byte of an element offset (R276). -/
def Desc.byteOf (d : Desc) (o : Int) : Int := if d.nibs = 1 then o >>> 1 else o * (d.nibs / 2 : Nat)

/-- The extent that an iteration sees in a dimension (R279). -/
def Tensor.iterExt (t : Tensor) (i : Nat) : Nat :=
  match t.ix with
  | some x => if i = t.d.idxdim then x.extent 0 else t.d.extent i
  | none => t.d.extent i

/-- The iteration extents of a tensor, innermost first. -/
def Tensor.shape (t : Tensor) : List Nat := (List.range t.d.ndim).map t.iterExt

/-- Some dimension, or the index tensor, has extent 0 (R285). -/
def Tensor.empty (t : Tensor) : Bool :=
  (List.range t.d.ndim).any (fun i => t.d.extent i == 0) || t.shape.any (· == 0)

/-- The least and greatest element offsets of a descriptor without zero extents (R277). -/
def Desc.span (d : Desc) : Int × Int :=
  (List.range d.ndim).foldl (fun p i =>
    let x := d.stride i * ((d.extent i : Int) - 1)
    if x < 0 then (p.1 + x, p.2) else (p.1, p.2 + x)) (0, 0)

/-- The first and last byte of the hull; none: empty (R277). -/
def Desc.hull (d : Desc) : Option (Int × Int) :=
  if (List.range d.ndim).any (fun i => d.extent i == 0) then none
  else
    let (lo, hi) := d.span
    let w : Int := if d.nibs = 1 then 0 else (d.nibs / 2 : Nat) - 1
    some ((d.base : Int) + d.byteOf lo, (d.base : Int) + d.byteOf hi + w)

/-- A base's space, bits 61-46 and offset (R19). -/
def spaceOf (a : Nat) : Nat := a / 0x4000000000000000
def midOf (a : Nat) : Nat := a / 0x400000000000 % 0x10000
def offOf (a : Nat) : Nat := a % 0x400000000000

/-- The base names another device (R22, R278). -/
def State.isRemote (s : State) (d : Desc) : Bool := spaceOf d.base == 1 && midOf d.base != s.fuses.device

/-- The base read as local when it names the issuing device (R22, R286). -/
def State.normBase (s : State) (d : Desc) : Nat :=
  if spaceOf d.base = 1 && midOf d.base = s.fuses.device then offOf d.base else d.base

/-- BASE alignment, space and hull (R20, R276, R277). `unit`: elements of 64 bytes (R217). -/
def hullOk (d : Desc) : Bool :=
  d.base % (if d.nibs = 1 then 1 else d.nibs / 2) == 0 &&
  (spaceOf d.base == 1 || (spaceOf d.base == 0 && midOf d.base == 0)) &&
  match d.hull with
  | none => true
  | some (lo, hi) =>
    let b : Int := (d.base : Int) - offOf d.base
    let lo := lo - b
    let hi := hi - b
    0 ≤ lo && (match regionOf lo.toNat, regionOf hi.toNat with
      | some r, some r' => r == r' && (r != 3 || lo.toNat / 0x40000 == hi.toNat / 0x40000)
      | _, _ => false)

/-- The hull lies in the issuing core's chamber window (R209, R278). An empty hull of a local BASE passes (R277, R285;
DEDUCED, log 56). -/
def State.inChamber (s : State) (c : Nat) (d : Desc) : Bool :=
  let b := s.chamAddr c 0
  spaceOf (s.normBase d) == 0 &&
  match d.hull with
  | none => true
  | some (lo, hi) =>
    let k : Int := (s.normBase d : Int) - d.base
    (b : Int) ≤ lo + k && hi + k < b + 0x400000

/-- The part of two hulls that overlaps, in bytes (R286). -/
def State.overlap (s : State) (a b : Desc) : Nat :=
  match a.hull, b.hull with
  | some (l, h), some (l', h') =>
    let k : Int := (s.normBase a : Int) - a.base
    let k' : Int := (s.normBase b : Int) - b.base
    (min (h + k) (h' + k') - max (l + k) (l' + k') + 1).toNat
  | _, _ => 0

/-- A descriptor of a core's table as latched with one chamber read: its unit, bad when the unit is (R275, R333). -/
def State.descUnit (s : State) (c i : Nat) : UnitRd := s.readUnit (chamPa c (s.descOff c i))

/-- What a byte range delivers to a mover: little-endian value, the code of a bad unit or a window miss, and where. -/
structure Rd where
  val : Nat := 0
  err : W16 := 0
  addr : Nat := 0
deriving DecidableEq, Repr

/-- The code of a tag outcome; 0: good. -/
def tagCode (t : TagSt) : W16 := (tagError t).getD 0

/-- `n` bytes at a global address in a context: unbound bytes read as zeros with BIND_WINDOW_MISS (R27). -/
def State.readAt (s : State) (ctx addr n : Nat) : Rd :=
  match s.place ctx addr with
  | .mem pa =>
    let r := s.readBytes pa n
    { val := leNat r.data, err := tagCode r.tag, addr := addr }
  | .miss => { err := Code.BIND_WINDOW_MISS, addr := addr }
  | _ => { addr := addr }

/-- The entries of an index tensor (R280). -/
def State.indexEntries (s : State) (ctx : Nat) (x : Desc) : List (Nat × W16) :=
  (List.range (x.extent 0)).map fun (i : Nat) =>
    let r := s.readAt ctx ((x.base : Int) + 4 * ((i : Int) * x.stride 0)).toNat 4
    (r.val, r.err)

/-- A tensor of a core from its latched units, its index entries read. -/
def State.tensor (s : State) (ctx : Nat) (u : UnitData) (ix : Option UnitData) : Tensor :=
  match ix with
  | some v => { d := descOf u, ix := some (descOf v), idx := s.indexEntries ctx (descOf v) }
  | none => { d := descOf u }

/-- The coordinates of linear index `n` over extents, innermost first (R63, R282). -/
def coordsOf : List Nat → Nat → List Nat
  | [], _ => []
  | e :: es, n => (n % e) :: coordsOf es (n / e)

/-- The number of elements of an iteration space. -/
def volume (shape : List Nat) : Nat := shape.foldl (· * ·) 1

/-- Where a tensor's element at a coordinate lies. -/
structure Elem where
  /-- byte address and half (R276) -/
  addr : Nat
  half : Nat
  /-- outside the tensor in some dimension (R281) -/
  pad : Bool
  /-- an index value at or above its bound (R280) -/
  past : Bool
  /-- the code of a bad index entry, and the entry's address -/
  err : W16
  errAt : Nat
deriving DecidableEq, Repr

/-- The coordinate of dimension `i` after clamping and indexing, whether it was outside, whether its index was over, and the
index entry's code (R280, R281). -/
def Tensor.coord (t : Tensor) (c : List Nat) (i : Nat) : Nat × Bool × Bool × W16 :=
  let x := c.getD i 0
  let e := t.iterExt i
  let y := min x (e - 1)
  if t.ix.isSome && i = t.d.idxdim then
    let (u, err) := t.idx.getD y (0, 0)
    (min u (t.d.extent i - 1), decide (e ≤ x), decide (t.d.extent i ≤ u), err)
  else (y, decide (e ≤ x), false, 0)

/-- The address of the index entry that an iteration coordinate uses; 0 without an index tensor (R280). -/
def Tensor.entryAt (t : Tensor) (c : List Nat) : Nat :=
  match t.ix with
  | some x => ((x.base : Int) + 4 * ((min (c.getD t.d.idxdim 0) (t.iterExt t.d.idxdim - 1) : Nat) * x.stride 0)).toNat
  | none => 0

/-- What the index entry of an element reads as, for the record of a bad unit (R333). -/
def Elem.entry (e : Elem) : Rd := { err := e.err, addr := e.errAt }

/-- The element of a tensor that an iteration coordinate visits (R276, R279 to R281). -/
def Tensor.elem (t : Tensor) (c : List Nat) : Elem :=
  let cs := (List.range t.d.ndim).map fun i => (i, t.coord c i)
  let o := cs.foldl (fun o p => o + (p.2.1 : Int) * t.d.stride p.1) 0
  { addr := ((t.d.base : Int) + t.d.byteOf o).toNat
    half := if t.d.nibs = 1 then (o % 2).toNat else 0
    pad := cs.any (·.2.2.1)
    past := cs.any (·.2.2.2.1)
    err := cs.foldl (fun e p => if e = 0 then p.2.2.2.2 else e) 0
    errAt := t.entryAt c }

/-- An element as a unit reads it. -/
structure ElemRd where
  pat : Nat
  pad : Bool
  past : Bool
  rd : Rd
deriving DecidableEq, Repr

/-- The pattern of an element at a byte address within a value of whole bytes. -/
def pickNib (d : Desc) (half v : Nat) : Nat := if d.nibs = 1 then v / 16 ^ half % 16 else v

/-- The received bytes of a remote unit; a failed read is +0 (R288, R362, R363). -/
def remoteRead (us : List RemoteUnit) (addr n : Nat) : Rd :=
  match us.find? (fun r => r.addr == addr / 64 * 64) with
  | some { unit := some x, .. } =>
    let bs := unitBytes x.data
    let v := leNat ((bs.drop (addr % 64)).take n)
    let t := checkTag bs
    if x.tag = t then { val := v, addr := addr }
    else { val := v, err := if x.tag = ~~~ t then Code.MEM_POISON_READ else Code.MEM_TAG_MISMATCH, addr := addr }
  | _ => { addr := addr }

/-- The element of a tensor that an iteration coordinate visits, as read (R276 to R281, R288). `us` holds the units received
for a remote tensor. -/
def State.readElem (s : State) (ctx : Nat) (t : Tensor) (us : List RemoteUnit) (c : List Nat) : ElemRd :=
  let e := t.elem c
  let n := max 1 (t.d.nibs / 2)
  let r := if s.isRemote t.d then remoteRead us e.addr n else s.readAt ctx e.addr n
  let r := if e.err = 0 then r else { r with err := e.err, addr := e.errAt }
  if e.pad && t.d.padz then { pat := 0, pad := true, past := e.past, rd := { r with val := 0, err := e.err } }
  else { pat := pickNib t.d e.half r.val, pad := e.pad, past := e.past, rd := r }

/-- An element write: byte address and half, nibbles, pattern, and whether it depends on bad data. -/
structure ElemWr where
  addr : Nat
  half : Nat
  nibs : Nat
  pat : Nat
  bad : Bool
deriving DecidableEq, Repr

/-- A unit write with one more element write merged in. -/
def UnitWr.put (u : UnitWr) (e : ElemWr) : UnitWr :=
  let n := e.addr % 64 * 2 + e.half
  let m := 2 ^ e.nibs - 1
  let old := u.data >>> (4 * n) % 16 ^ e.nibs
  { u with mask := u.mask ||| (m <<< n), data := u.data - old * 16 ^ n + e.pat % 16 ^ e.nibs * 16 ^ n,
           poison := u.poison || e.bad }

/-- Element writes in order, grouped into unit writes: a maximal run in one unit is one unit write (R356). -/
def groupWrites : List ElemWr → List UnitWr
  | es =>
    (es.foldl (fun acc e =>
      match acc with
      | u :: r => if u.addr = e.addr / 64 * 64 then u.put e :: r
                  else UnitWr.put { addr := e.addr / 64 * 64, mask := 0, data := 0, poison := false } e :: acc
      | [] => [UnitWr.put { addr := e.addr / 64 * 64, mask := 0, data := 0, poison := false } e]) []).reverse

/-- A byte merged under its two mask bits. -/
def mergeByte (u : UnitWr) (i : Nat) (old : Byte) : Byte :=
  let new := u.data >>> (8 * i) % 256
  let lo := if u.mask.testBit (2 * i) then new % 16 else old.toNat % 16
  let hi := if u.mask.testBit (2 * i + 1) then new / 16 else old.toNat / 16
  BitVec.ofNat 8 (lo + 16 * hi)

/-- `s` with a unit write landed at physical address `pa`: whole, or as a masked write that keeps poison (R283, R331, R332). -/
def State.landUnit (s : State) (pa : Nat) (u : UnitWr) : State :=
  if u.mask = fullMask then s.writeUnit pa (leBytes 64 u.data) u.poison
  else
    let r := s.readUnit pa
    s.writeUnit pa ((List.range 64).map fun i => mergeByte u i (r.data.getD i 0)) (u.poison || r.tag != .good)

/-- `s` with a unit write of a context landed where its address leads, and whether it met an unbound slot, which each such write logs
(R27). `own`: the core that writes (R26, R236). -/
def State.landWrite (s : State) (ctx : Nat) (own : Option Nat) (u : UnitWr) : State × Bool :=
  match s.place ctx u.addr with
  | .mem pa => ((s.wakeFor pa).through own pa fun s => s.landUnit pa u, false)
  | .miss => (s.missed ctx u.addr, true)
  | _ => (s, false)

/-- `s` with unit writes of a context landed in order, and whether one met an unbound slot. -/
def State.landAll (s : State) (ctx : Nat) (own : Option Nat) (us : List UnitWr) : State × Bool :=
  us.foldl (fun p u => let q := p.1.landWrite ctx own u; (q.1, p.2 || q.2)) (s, false)

end Sys2Proof.Machine
end

