-- ==== Sys2Proof/Machine/Fail.lean ====
section
/-! DEFINITION. Memory failures shared by several commands: what a memory records and reports when a unit is corrected or
uncorrectable, and the first stage of disabling a unit (13_memory_stacks_gallery_chamber.md R328, R340;
16_error_control_and_recovery.md R397, R400, R403). -/

namespace Sys2Proof.Machine

/-- The cores that disabling a unit stops (R397, R400). -/
def coresOf (u : W16) : List Nat :=
  let i := srcIndex u
  match srcType u with
  | 0x1 | 0x2 | 0x3 | 0x4 | 0x5 | 0x6 => if i < 96 then [i] else []
  | 0x7 => if i < 16 then (List.range 6).map (6 * i + ·) else []
  | _ => []

/-- `s` with the queues of a list of cores stopped (R237). -/
def State.stopCores (s : State) (cs : List Nat) : State := cs.foldl State.stopCore s

/-- `s` after the first stage of disabling a unit (R400): its cores' queues get STOP, and the unit waits to be marked. -/
def State.startDisable (s : State) (u : W16) : State :=
  if s.unitOff u || s.disabling.contains u then s
  else { s.stopCores (coresOf u) with disabling := s.disabling ++ [u] }

/-- ERR_ST_CTRL.AUTODIS of the die that handles a unit (R400, R408). -/
def State.autoDis (s : State) (u : W16) : Bool := s.regBit (dieK (dieOf u) 0x350000) 62

/-- The first-error register of the unit behind a physical address, as a report copies it (R393). -/
def State.memDetail (s : State) (pa : Nat) : W64 :=
  if pa < stackEnd then s.reg (stkK (pa / 0x1000000000) 0x30)
  else if pa < galEnd then s.reg (cluK ((pa - galBase) / 0x8000000) 0x2010)
  else 0

/-- `s` with a Memory-class report about the unit at a physical address (R345, R393, R394). The address is the one that context 0's
identity mapping gives it (DESIGN CHOICE, log 35). -/
def State.memReport (s : State) (code : W16) (pa : Nat) : State :=
  s.report 0x03 code (memSource pa)
    { context := s.ctxOfPa pa, addr := BitVec.ofNat 64 (pa / 64 * 64), detail := s.memDetail pa }

/-- STK_ERR of an uncorrectable unit (R343). -/
def stkErrWord (scrub : Bool) (code : W16) (pa : Nat) : W64 :=
  putFld (putFld (putFld (putBit (putBit 0 63 true) 62 scrub) 46 16 code.toNat) 40 6 (pchOf pa)) 6 24 (yOf pa / 64)

/-- CLU_GAL_ERR of an uncorrectable unit (R344). -/
def galErrWord (scrub : Bool) (pa : Nat) : W64 :=
  putFld (putBit (putBit 0 63 true) 62 scrub) 6 21 ((pa - galBase) % 0x8000000 / 64)

/-- `s` with the counters of a corrected unit moved on and reported (R328, R340). -/
def State.unitCorrected (s : State) (pa : Nat) : State :=
  let s := if pa < stackEnd then s.count (stkK (pa / 0x1000000000) 0x20) 1
    else if pa < galEnd then s.count (cluK ((pa - galBase) / 0x8000000) 0x2000) 1
    else s.count (coreK ((pa - chamBase) / 0x400000) 0xD18) 1
  s.memReport Code.MEM_CORRECTED pa

/-- `s` with the records of an uncorrectable unit: counter, first-error register, report, self-test trigger, and POISONED of the
context that holds the granule or share (R328, R340, R344, R397, R403). -/
def State.unitUncorr (s : State) (pa : Nat) (scrub : Bool) : State :=
  let s := if pa < stackEnd then
      (s.count (stkK (pa / 0x1000000000) 0x28) 1).first (stkK (pa / 0x1000000000) 0x30)
        (stkErrWord scrub Code.MEM_UNCORRECTABLE pa)
    else if pa < galEnd then
      (s.count (cluK ((pa - galBase) / 0x8000000) 0x2008) 1).first (cluK ((pa - galBase) / 0x8000000) 0x2010) (galErrWord scrub pa)
    else s.count (coreK ((pa - chamBase) / 0x400000) 0xD20) 1
  let s := if pa < galEnd then s.poisoned (s.ctxOfPa pa) else s
  (s.memReport Code.MEM_UNCORRECTABLE pa).trigger (memSource pa) Code.MEM_UNCORRECTABLE pa

/-- Physical address `pa` lies in a stack, the gallery or a chamber. -/
def dataPa (pa : Nat) : Bool :=
  match regionOf pa with
  | some r => r < 3
  | none => false

end Sys2Proof.Machine
end

