-- ==== Sys2Proof/Machine/Movers.lean ====
section
/-! DEFINITION. COPY, STQ and ATOM (R264 to R266, R286 to R292, R92, R470). -/

namespace Sys2Proof.Machine

/-- CORE_MEM_ERR.KIND of a bad unit's code. -/
def badKind (e : W16) : Nat := if e = Code.MEM_TAG_MISMATCH then 1 else 0

/-- A latched unit of a descriptor, or DESC_INVALID when its unit is bad (R333). -/
def State.latchOk (s : State) (c i : Nat) : Option Ref :=
  let u := s.descUnit c i
  if u.tag = .good then none
  else some { code := Code.DESC_INVALID, bad := some (badKind (tagCode u.tag), s.chamAddr c (s.descOff c i)) }

/-- The unit data of descriptor `i`. -/
def State.descData (s : State) (c i : Nat) : UnitData := unitOf (s.descUnit c i).data

/-- Step 1 of R292 for one descriptor: CTRL codes, and those of its index tensor (R274, R280). -/
def State.ctrlCheck (s : State) (c i : Nat) : Option Ref :=
  let d := descOf (s.descData c i)
  firstRef
    [ s.latchOk c i, need d.ctrlOk Code.DESC_INVALID,
      if d.idxen then
        let x := descOf (s.descData c d.idxd)
        firstRef [s.latchOk c d.idxd, need (x.ctrlOk && x.ndim == 1 && !x.idxen) Code.DESC_INVALID]
      else none ]

/-- The unit of a descriptor's index tensor, if it has one. -/
def State.indexUnit (s : State) (c i : Nat) : Option UnitData :=
  let d := descOf (s.descData c i)
  if d.idxen then some (s.descData c d.idxd) else none

/-- Descriptor `i` as a tensor, its index entries read. -/
def State.tensorAt (s : State) (c i : Nat) : Tensor := s.tensor (s.ctxOf c) (s.descData c i) (s.indexUnit c i)

/-- Steps 2 to 4 of R292 that concern an index tensor: its format, hull and placement. -/
def indexFmt (t : Tensor) : Option Ref := need (match t.ix with | some x => x.fmt == 8 | none => true) Code.FORMAT_INVALID
def hullCheck (t : Tensor) : Option Ref :=
  firstRef [need (hullOk t.d) Code.ADDR_INVALID, need (match t.ix with | some x => hullOk x | none => true) Code.ADDR_INVALID]
def State.placeCheck (s : State) (c : Nat) (t : Tensor) : Option Ref :=
  need (match t.ix with | some x => s.inChamber c x | none => true) Code.MV_PLACE

/-- The route of a remote operand: FAB_NO_ROUTE or FAB_QP_STATE (R352). -/
def State.routeCheck (s : State) (ctx : Nat) (d : Desc) : Option Ref :=
  if s.isRemote d then
    match s.route ctx (midOf d.base) with
    | .bad e => some { code := e }
    | .home _ => none
  else none

/-- The formats of a COPY (R264). -/
def copyFormats (f g : Nat) : Bool := f ≤ 5 && (2 ≤ g && g ≤ 5 || f == g)

/-- A source coordinate of the iteration space lies outside the source: there are padding elements (R281). -/
def padsIn (src dst : Tensor) : Bool :=
  (List.range (min src.d.ndim dst.d.ndim)).any fun i => src.iterExt i < dst.iterExt i

/-- The first row of R286 (element-wise in place). -/
def State.inPlace (s : State) (a b : Tensor) : Bool :=
  s.normBase a.d == s.normBase b.d && a.d.ndim == b.d.ndim &&
    (List.range a.d.ndim).all (fun i => a.d.stride i == b.d.stride i) && a.d.nibs == b.d.nibs &&
    !a.d.idxen && !b.d.idxen && !padsIn a b

/-- The second row of R286 (square transpose in place). -/
def State.square (s : State) (a b : Tensor) : Bool :=
  let one := fun (d : Desc) => 2 ≤ d.ndim && (List.range d.ndim).all (fun i => i < 2 || d.extent i == 1) && d.extent 0 == d.extent 1
  s.normBase a.d == s.normBase b.d && a.d.nibs == b.d.nibs && !a.d.idxen && !b.d.idxen && one a.d && one b.d &&
    b.d.stride 0 == a.d.stride 1 && b.d.stride 1 == a.d.stride 0

/-- What R286 makes of the overlap of a source with destinations. -/
inductive Over where
  | none | inPlace | square | staged (bytes : Nat) | tooLarge
deriving DecidableEq, Repr

/-- The first row of R286 that applies. A tensor that is empty only through its index tensor has a hull and meets the checks (R277, R285);
it stages nothing. `copy`: the instruction is a COPY. -/
def State.overlapCase (s : State) (copy : Bool) (a : Tensor) (bs : List Tensor) : Over :=
  let n := (bs.map fun b => s.overlap a.d b.d).sum
  if n = 0 then .none
  else if copy && bs.all (fun b => s.inPlace a b) then .inPlace
  else if copy && bs.all (fun b => s.square a b) then .square
  else if n ≤ 0x100000 then .staged (if a.empty || bs.any (·.empty) then 0 else n)
  else .tooLarge

/-- `s` with the counters of R286 and R287 moved on. -/
def State.countOverlap (s : State) (c : Nat) : Over → State
  | .square => s.count (coreK c 0xC28) 1
  | .staged n => s.count (coreK c 0xC20) n
  | _ => s

/-- Bad data: a poisoned or mismatched unit (R333). A window miss delivers good zeros (R27). -/
def isBad (e : W16) : Bool := e = Code.MEM_POISON_READ || e = Code.MEM_TAG_MISMATCH

/-- What a transfer's reads met: the first error, the first bad unit (R333) and the first unbound slot (R27). -/
structure Errs where
  first : Rd := {}
  bad : Rd := {}
  miss : Option Nat := none
deriving DecidableEq, Repr

/-- One more read met. -/
def Errs.see (x : Errs) (r : Rd) : Errs :=
  if r.err = 0 then x
  else
    { first := if x.first.err = 0 then r else x.first
      bad := if x.bad.err = 0 && isBad r.err then r else x.bad
      miss := if r.err = Code.BIND_WINDOW_MISS then x.miss.or (some r.addr) else x.miss }

/-- A list of reads met, in order. -/
def errsOf (l : List Rd) : Errs := l.foldl Errs.see {}

/-- The address that a transfer's errors give its fault record: that of the first bad unit, when one caused the first error (R393). -/
def Errs.at_ (x : Errs) : Nat := if isBad x.first.err then x.first.addr else 0

/-- What a transfer leaves: its element writes, counters, and the errors it met. -/
structure Xfer where
  writes : List ElemWr := []
  clamped : Nat := 0
  discarded : Nat := 0
  errs : Errs := {}
deriving DecidableEq, Repr

/-- One more read of a transfer. -/
def Xfer.see (x : Xfer) (r : Rd) : Xfer := { x with errs := x.errs.see r }

/-- A pattern that COPY moves unchanged (R264), but that no output is ever a negative zero (R50; DEDUCED, log 76). -/
def unchanged (f : Fmt) (pat : Nat) : Nat := if (f.value pat).isZero then 0 else pat

/-- The whole source is read before anything is written (R286, R287; log 21). -/
def State.copyElems (s : State) (ctx : Nat) (w : InstrWord) (seed : W64) (src dst : Tensor) (us : List RemoteUnit) : Xfer :=
  if src.empty || dst.empty then {}
  else
    let shape := dst.shape
    let mode := (rndOf (opnd w 47 46)).getD .rne
    let f := (fmtOf src.d.fmt).getD .fp32
    let g := (fmtOf dst.d.fmt).getD .fp32
    (List.range (volume shape)).foldl (fun x n =>
      let co := coordsOf shape n
      let e := s.readElem ctx src us co
      let t := dst.elem co
      let x := if e.past && !(e.pad && src.d.padz) then { x with clamped := x.clamped + 1 } else x
      let x := (x.see e.rd).see t.entry
      if e.pad && !dst.d.padw then x
      else if t.past then { x with discarded := x.discarded + 1 }
      else
        let pat := if f = g && f.bits = 4 then unchanged f e.pat else (g.conv mode (srBits seed w.optag 0 n) (f.value e.pat)).bits
        { x with writes := { addr := t.addr, half := t.half, nibs := dst.d.nibs, pat := pat,
                              bad := isBad e.rd.err || isBad t.err } :: x.writes }) {}

/-- `s` after what a mover's reads met has been recorded: the first bad unit in CORE_MEM_ERR, with the self-test that a mismatch triggers
(R333, R397), and the first unbound slot, once for the transfer, as a binding violation (R27; DESIGN CHOICE, log 75). -/
def State.tookErrs (s : State) (c : Nat) (q : Queue) (pc : BitVec 14) (optag : W16) (ctx : Nat) (x : Errs) : State :=
  let s := match x.miss with
    | some a => s.missed ctx a
    | none => s
  if x.bad.err = 0 then s
  else
    let s := s.memErr c q (badKind x.bad.err) pc optag x.bad.addr
    match x.bad.err == Code.MEM_TAG_MISMATCH, s.place ctx x.bad.addr with
    | true, .mem pa => s.trigger (memSource pa) x.bad.err pa
    | _, _ => s

/-- A mover's unit writes landed, or sent to their device: the state, whether requests are outstanding, and the error. -/
def State.deliverWrites (s : State) (c : Nat) (q : Queue) (ctx id : Nat) (us : List UnitWr) : State × Bool × Option W16 :=
  let s := if us.any (·.poison) then s.poisoned ctx else s
  let far := fun (u : UnitWr) => spaceOf u.addr == 1 && midOf u.addr != s.fuses.device
  let (s, miss) := s.landAll ctx (some c) (us.filter fun u => !far u)
  let out := us.filter far
  let devs := (out.map fun u => midOf u.addr).eraseDups
  let s := devs.foldl (fun s dv =>
    match s.route ctx dv with
    | .home n => s.request n (writeReqs (.instr c q id) dv (s.qpUnits n) none (out.filter fun u => midOf u.addr = dv))
    | .bad _ => s) s
  (s, !out.isEmpty, if miss then some Code.BIND_WINDOW_MISS else none)

/-- A mover's work at the end of its reads: writes delivered, counters moved, and what is left to wait for. -/
def State.finishMove (s : State) (c : Nat) (q : Queue) (pc : BitVec 14) (optag : W16) (ctx id : Nat) (x : Xfer)
    (us : List UnitWr) : State × Work × Option W16 :=
  let s := (s.count (coreK c 0xC18) x.clamped).count (coreK c 0xC08) x.discarded
  let s := s.tookErrs c q pc optag ctx x.errs
  let (s, out, e) := s.deliverWrites c q ctx id us
  (s, if out then .acks else .done, if x.errs.first.err ≠ 0 then some x.errs.first.err else e)

/-- The whole units that cover a remote tensor's elements, as offsets at the target in the order of the iteration (R356). -/
def unitsNeeded (src : Tensor) (shape : List Nat) : List Nat :=
  let l := (List.range (volume shape)).map fun n => src.elem (coordsOf shape n)
  ((l.filter fun e => !(e.pad && src.d.padz)).map fun e => offOf e.addr / 64 * 64).eraseDups

/-- `s` with the READs of a remote source sent, and the work that waits for them. -/
def State.startGather (s : State) (c : Nat) (q : Queue) (ctx : Nat) (src : Tensor) (shape : List Nat) (job : Job) : State × Work :=
  match s.route ctx (midOf src.d.base) with
  | .home n =>
    let rs := readReqs (.instr c q s.ids) (midOf src.d.base) (s.qpUnits n) none (unitsNeeded src shape)
    (s.request n rs, .gather job)
  | .bad _ => (s, .done)

/-- A job with nothing in it but its operation. -/
def jobOf (o : Op) (w : InstrWord) (ctx : Nat) (descs : List UnitData) (idx : List (List (Nat × W16))) (seed : W64) : Job :=
  { op := o, w := w, ctx := ctx, descs := descs, idx := idx, record := 0, rung := 0, seed := seed, oset := [], step := 0,
    units := [] }

/-- A tensor back from a job's latched units. -/
def jobTensor (j : Job) (i k : Nat) : Tensor :=
  let d := descOf (j.descs.getD i 0)
  { d := d, ix := if d.idxen then some (descOf (j.descs.getD (i + k) 0)) else none, idx := j.idx.getD i [] }

/-- The checks of a COPY in the order of R246 step 5 and R292. -/
def State.copyCheck (s : State) (c : Nat) (w : InstrWord) : Option Ref :=
  let a := s.tensorAt c (opnd w 63 56)
  let b := s.tensorAt c (opnd w 55 48)
  let ctx := s.ctxOf c
  firstRef
    [ need ((rndOf (opnd w 47 46)).isSome) Code.RND_RESERVED,
      s.ctrlCheck c (opnd w 63 56), s.ctrlCheck c (opnd w 55 48),
      need (copyFormats a.d.fmt b.d.fmt) Code.FORMAT_INVALID, indexFmt a, indexFmt b,
      hullCheck a, hullCheck b,
      s.placeCheck c a, s.placeCheck c b, need (!(s.isRemote a.d && s.isRemote b.d)) Code.MV_PLACE,
      need (s.overlapCase true a [b] != .tooLarge) Code.OVERLAP_TOO_LARGE,
      s.routeCheck ctx a.d, s.routeCheck ctx b.d ]

/-- A COPY that issues (R264). -/
def State.copyIssue (s : State) (o : Op) (c : Nat) (q : Queue) (w : InstrWord) : Issued :=
  let ctx := s.ctxOf c
  let a := s.tensorAt c (opnd w 63 56)
  let b := s.tensorAt c (opnd w 55 48)
  let seed := s.reg (seedK c q)
  let s := s.countOverlap c (s.overlapCase true a [b])
  if s.isRemote a.d && !a.empty && !b.empty && !(unitsNeeded a b.shape).isEmpty then
    let j := jobOf o w ctx [s.descData c (opnd w 63 56), s.descData c (opnd w 55 48),
      (s.indexUnit c (opnd w 63 56)).getD 0, (s.indexUnit c (opnd w 55 48)).getD 0] [a.idx, b.idx] seed
    let (t, work) := s.startGather c q ctx a b.shape j
    { st := t, work := work }
  else
    let x := s.copyElems ctx w seed a b []
    let s := s.wakeAll ctx (unitsNeeded a b.shape)
    let (t, work, e) := s.finishMove c q (s.queue c q).pc w.optag ctx s.ids x (groupWrites x.writes.reverse)
    { st := t, work := work, error := e, errAt := x.errs.at_ }

/-- The other devices that a list of descriptors of a core names. -/
def State.devsOf (s : State) (c : Nat) (ds : List Nat) : List Nat :=
  ((ds.map fun i => descOf (s.descData c i)).filter s.isRemote).map fun d => midOf d.base

/-- COPY in either mover. -/
def State.copyVerdict (o : Op) (c : Nat) (q : Queue) (w : InstrWord) (s : State) : Verdict :=
  (match s.copyCheck c w with
    | some r => Verdict.refuseRef r
    | none => .issue (s.copyIssue o c q w)).routed s (s.ctxOf c) (s.devsOf c [opnd w 63 56, opnd w 55 48])

/-- COPY in the LDM queue (R264). -/
def execLdmCopy (c : Fin 96) (q : Queue) (w : InstrWord) (s : State) : Host.Outcome State Fault Refusal :=
  .next (s.runHead c q .ldmCopy w (State.copyVerdict .ldmCopy c q w))

/-- COPY in the STM queue (R264). -/
def execStmCopy (c : Fin 96) (q : Queue) (w : InstrWord) (s : State) : Host.Outcome State Fault Refusal :=
  .next (s.runHead c q .stmCopy w (State.copyVerdict .stmCopy c q w))

/-- The scale of a row or line: its largest magnitude over QMAX, through round to odd, rounded upward (R85, R92). -/
def scaleOf (f : Fmt) (amax : Num) (qmax : Nat) : Nat :=
  match amax with
  | .fin m e => if m = 0 then 0 else (f.conv .rne 0 (wide (finDiv m e qmax 0))).bits
  | _ => f.nanPat

/-- The larger magnitude; a NaN or infinity wins as itself. -/
def amaxOf (a b : Num) : Num :=
  match a, b with
  | .nan, _ => .nan
  | _, .nan => .nan
  | .inf _, _ => .inf false
  | _, .inf _ => .inf false
  | a, b => if a.abs.lt b.abs then b.abs else a.abs

/-- A value divided by a scale, rounded to odd (R84). -/
def divScale (v sc : Num) : Num :=
  match v, sc with
  | .fin m e, .fin n f => if n = 0 then .zero else if m = 0 then .zero else wide (finDiv m e n f)
  | _, _ => .nan

/-- One row of an STQ: its elements as read with their coordinates' linear index, giving the scale code and element codes. A row with a NaN
or infinity gets the NaN scale and codes 0 (R89, R92), where R67 has such an element carry its value (DEDUCED, log 88). -/
def quantRow (mode : Rnd) (seed : W64) (tag : W16) (vals : List (Nat × Num)) : Nat × List Nat :=
  let amax := vals.foldl (fun a p => amaxOf a p.2) .zero
  let code := scaleOf .e8m3 amax 448
  let sc := Fmt.e8m3.value code
  (code, vals.map fun p => if amax.isFin then (Fmt.e4m3.conv mode (srBits seed tag 0 p.1) (divScale p.2 sc)).bits else 0)

/-- The element and scale writes of one row of an STQ (R92). Padding elements that DSTD does not write count for no amax: a row of nothing
else has scale 0x000 (DEDUCED, log 87). -/
def State.stqRow (s : State) (ctx : Nat) (w : InstrWord) (seed : W64) (src dst scd : Tensor) (us : List RemoteUnit)
    (x : Xfer × List ElemWr) (row : Nat) : Xfer × List ElemWr :=
  let shape := dst.shape
  let n0 := shape.headD 1
  let f := (fmtOf src.d.fmt).getD .fp32
  let mode := (rndOf (opnd w 39 38)).getD .rne
  let els := (List.range n0).map fun i =>
    let n := row * n0 + i
    let co := coordsOf shape n
    (n, s.readElem ctx src us co, dst.elem co)
  let kept := els.filter fun e => !(e.2.1.pad && !dst.d.padw)
  let (code, codes) := quantRow mode seed w.optag (kept.map fun e => (e.1, f.value e.2.1.pat))
  let bad := kept.any fun e => isBad e.2.1.rd.err
  let y := els.foldl (fun y e =>
    let y := if e.2.1.past && !(e.2.1.pad && src.d.padz) then { y with clamped := y.clamped + 1 } else y
    (y.see e.2.1.rd).see e.2.2.entry) x.1
  let y := (kept.zip codes).foldl (fun y p =>
    let t := p.1.2.2
    if t.past then { y with discarded := y.discarded + 1 }
    else { y with writes := { addr := t.addr, half := 0, nibs := 2, pat := p.2, bad := bad || isBad t.err } :: y.writes }) y
  let cs := match (coordsOf shape (row * n0)).tail with | [] => [0] | l => l
  let t := scd.elem cs
  let rowPad := els.all (·.2.1.pad)
  let y := y.see t.entry
  if rowPad && !scd.d.padw then (y, x.2)
  else if t.past then ({ y with discarded := y.discarded + 1 }, x.2)
  else (y, { addr := t.addr, half := 0, nibs := 4, pat := code, bad := bad || isBad t.err } :: x.2)

/-- Every row of an STQ. -/
def State.stqElems (s : State) (ctx : Nat) (w : InstrWord) (seed : W64) (src dst scd : Tensor) (us : List RemoteUnit) :
    Xfer × List ElemWr :=
  if src.empty || dst.empty || scd.empty then ({}, [])
  else (List.range (volume dst.shape.tail)).foldl (s.stqRow ctx w seed src dst scd us) ({}, [])

/-- The extents of SCD are those of DSTD without the innermost dimension (R265, R470). -/
def scdShape (dst scd : Tensor) : Option Ref :=
  if dst.d.ndim = 1 then need (scd.d.ndim == 1 && scd.d.extent 0 == 1) Code.DESC_INVALID
  else need (scd.shape == dst.shape.tail) Code.FORMAT_INVALID

/-- The checks of an STQ (R265, R292, R470). -/
def State.stqCheck (s : State) (c : Nat) (w : InstrWord) : Option Ref :=
  let a := s.tensorAt c (opnd w 63 56)
  let b := s.tensorAt c (opnd w 55 48)
  let k := s.tensorAt c (opnd w 47 40)
  let ctx := s.ctxOf c
  firstRef
    [ need ((rndOf (opnd w 39 38)).isSome) Code.RND_RESERVED,
      s.ctrlCheck c (opnd w 63 56), s.ctrlCheck c (opnd w 55 48), s.ctrlCheck c (opnd w 47 40),
      if b.d.ndim = 1 then scdShape b k else none,
      need (2 ≤ a.d.fmt && a.d.fmt ≤ 5 && b.d.fmt == 2 && k.d.fmt == 7) Code.FORMAT_INVALID, scdShape b k,
      need (b.iterExt 0 ≤ 16384) Code.FORMAT_INVALID,
      indexFmt a, indexFmt b, indexFmt k, hullCheck a, hullCheck b, hullCheck k,
      s.placeCheck c a, s.placeCheck c b, s.placeCheck c k,
      need (!(s.isRemote a.d && (s.isRemote b.d || s.isRemote k.d))) Code.MV_PLACE,
      need (s.overlapCase false a [b, k] != .tooLarge) Code.OVERLAP_TOO_LARGE,
      s.routeCheck ctx a.d, s.routeCheck ctx b.d, s.routeCheck ctx k.d ]

/-- An STQ that issues (R265). -/
def State.stqIssue (s : State) (c : Nat) (q : Queue) (w : InstrWord) : Issued :=
  let ctx := s.ctxOf c
  let a := s.tensorAt c (opnd w 63 56)
  let b := s.tensorAt c (opnd w 55 48)
  let k := s.tensorAt c (opnd w 47 40)
  let seed := s.reg (seedK c q)
  let s := s.countOverlap c (s.overlapCase false a [b, k])
  if s.isRemote a.d && !a.empty && !b.empty && !k.empty && !(unitsNeeded a b.shape).isEmpty then
    let u := fun i => (s.indexUnit c i).getD 0
    let j := jobOf .stq w ctx [s.descData c (opnd w 63 56), s.descData c (opnd w 55 48), s.descData c (opnd w 47 40),
      u (opnd w 63 56), u (opnd w 55 48), u (opnd w 47 40)] [a.idx, b.idx, k.idx] seed
    let (t, work) := s.startGather c q ctx a b.shape j
    { st := t, work := work }
  else
    let (x, sc) := s.stqElems ctx w seed a b k []
    let s := s.wakeAll ctx (unitsNeeded a b.shape)
    let (t, work, e) := s.finishMove c q (s.queue c q).pc w.optag ctx s.ids x
      (groupWrites x.writes.reverse ++ groupWrites sc.reverse)
    { st := t, work := work, error := e, errAt := x.errs.at_ }

/-- STQ (R92, R265). -/
def execStq (c : Fin 96) (q : Queue) (w : InstrWord) (s : State) : Host.Outcome State Fault Refusal :=
  .next (s.runHead c q .stq w fun s =>
    (match s.stqCheck c w with
      | some r => Verdict.refuseRef r
      | none => .issue (s.stqIssue c q w)).routed s (s.ctxOf c) (s.devsOf c [opnd w 63 56, opnd w 55 48, opnd w 47 40]))

/-- The result of a fetch-add or a compare-and-swap (R266). -/
def atomNew (cas : Bool) (old b c : W64) : W64 := if cas then (if old = b then c else old) else old + b

/-- The atomic on a local target at `pa` (R266, R333). -/
def State.atomLocal (s : State) (c : Nat) (q : Queue) (w : InstrWord) (addr pa : Nat) : Issued :=
  let r := s.readBytes pa 8
  let s := s.wakeFor pa
  let old : W64 := BitVec.ofNat 64 (leNat r.data)
  let res := chamPa c (s.offs c q w (opnd w 21 0))
  if r.tag = .good then
    let v := atomNew w.f0 old (s.sreg c q (opnd w 59 56)) (s.sreg c q (opnd w 55 52))
    { st := (s.through (some c) pa fun s => s.writePart pa (leBytes 8 v.toNat)).writePart res (leBytes 8 old.toNat) }
  else
    { st := ((s.tookTag c q w.optag addr pa r.tag).writePart res (leBytes 8 old.toNat) true).poisoned (s.ctxOf c),
      error := tagError r.tag, errAt := addr }

/-- The atomic on another device's word: a FADD or CAS request (R266, R356). -/
def State.atomRemote (s : State) (c : Nat) (q : Queue) (w : InstrWord) (dev off n : Nat) : Issued :=
  let r := { newReq (.instr c q s.ids) (if w.f0 then 5 else 4) (fabAddr dev off) with
              opa := s.sreg c q (opnd w 59 56), opb := if w.f0 then s.sreg c q (opnd w 55 52) else 0 }
  { st := s.request n [r], work := .atomic (s.offs c q w (opnd w 21 0)) }

/-- ATOM (R266): the address checks, then the operation. -/
def atomVerdict (s : State) (c : Nat) (q : Queue) (w : InstrWord) : Verdict :=
  let a := (s.sreg c q (opnd w 63 60)).toNat
  let ctx := s.ctxOf c
  let reg := regionOf (offOf a)
  if a % 8 ≠ 0 || 2 ≤ spaceOf a || reg = none || reg = some 3 then .refuse Code.ADDR_INVALID
  else match s.place ctx a with
    | .mem pa => (Verdict.issue (s.atomLocal c q w a pa)).reading s ctx []
    | .miss => .refuseRef { code := Code.BIND_WINDOW_MISS, miss := some a }
    | .remote dev off =>
      (match s.route ctx dev with
        | .home n => Verdict.issue (s.atomRemote c q w dev off n)
        | .bad e => .refuse e).routed s ctx [dev]
    | _ => .refuse Code.ADDR_INVALID

/-- ATOM (R266). -/
def execAtom (c : Fin 96) (q : Queue) (w : InstrWord) (s : State) : Host.Outcome State Fault Refusal :=
  .next (s.runHead c q .atom w fun s => atomVerdict s c q w)

end Sys2Proof.Machine
end

