-- ==== Sys2Proof/Machine/Sync.lean ====
section
/-! DEFINITION. Semaphores, crossroads lines and mailbox channels (12_synchronisation_and_mailboxes.md). -/

namespace Sys2Proof.Machine

/-- `s` with the view of the semaphore at `k` showing its last signaller (R317). -/
def State.lastSignal (s : State) (k core queue pc : Nat) : State :=
  let v := s.reg (semView k)
  s.setReg (semView k) (putFld (putFld (putFld (putBit v 26 true) 19 7 core) 16 3 queue) 0 14 pc)

/-- `s` with the semaphore at `k` set (R301). `core` 0x7E: a control-space write. -/
def State.setSem (s : State) (k v core queue pc : Nat) : State :=
  (s.setFld k 0 32 v).lastSignal k core queue pc

/-- SEMSET (R256, R301). -/
def execSemset (c : Fin 96) (q : Queue) (w : InstrWord) (s : State) : Host.Outcome State Fault Refusal :=
  .next (s.runHead c q .semset w fun s =>
    match s.semHome c (BitVec.ofNat 12 (opnd w 43 32)) false with
    | .bad e => .refuse e
    | .home k =>
      let v := if w.f0 then fld (s.sreg c q (opnd w 63 60)) 0 32 else opnd w 31 0
      .issue { st := s.setSem k v c (qnum q) (s.queue c q).pc.toNat })

/-- The core that holds the semaphore at `k`, when its home is a core. -/
def homeCore (k : Nat) : Option Nat := if 0x20000000 ≤ k then some ((k - 0x20000000) / 0x10000) else none

/-- The core, queue number and cluster that a signaller shows (R300, R312, R317). -/
def srcCore : SigSrc → Nat
  | .queue c _ => c
  | .controller _ => 0x7F
def srcQueue : SigSrc → Nat
  | .queue _ q => qnum q
  | .controller _ => 0
def srcCluster : SigSrc → Nat
  | .queue c _ => c / 6
  | .controller g => g

/-- `s` with an event of a signaller recorded: a controller records none. -/
def State.sigEvent (s : State) (x : Sig) (code : W16) : State :=
  match x.src with
  | .queue c q => s.event c q code x.optag x.pc
  | .controller _ => s

/-- `s` with a signal applied at its home (R298, R300). -/
def State.applySignal (s : State) (x : Sig) : State :=
  if (match homeCore x.home with | some c => !s.coreUp c | none => false) then
    (s.count (cluK (srcCluster x.src) 0x4418) 1).sigEvent x Code.SEM_TARGET_ABSENT
  else
    let v := s.sem x.home + x.inc
    let t := (s.setFld x.home 0 32 v).lastSignal x.home (srcCore x.src) (srcQueue x.src) x.pc.toNat
    if 2 ^ 32 ≤ v then (t.setBit (semView x.home) 63 true).sigEvent x Code.SEM_WRAP else t

/-- SIGNAL (R298): the oldest signal of a source arrives at its semaphore's home. -/
def execSignal (src : SigSrc) (s : State) : Host.Outcome State Fault Refusal :=
  match s.sigs.find? (fun x => x.src == src) with
  | none => .next s
  | some x => .next ({ s with sigs := s.sigs.erase x }.applySignal x)

/-- The mask and the arrive bits of a line, bit i for core i (R302). -/
def State.lineMask (s : State) (l : Nat) : Nat := (s.reg (xrdK l 0)).toNat + (s.reg (xrdK l 8)).toNat * 2 ^ 64
def State.lineArr (s : State) (l : Nat) : Nat := (s.reg (xrdK l 0x18)).toNat + (s.reg (xrdK l 0x20)).toNat * 2 ^ 64

/-- Core `c` counts as arrived on line `l` (R304, R306). -/
def State.arrived (s : State) (l c : Nat) : Bool :=
  (s.lineArr l).testBit c || ((s.lineMask l).testBit c && !s.coreUp c)

/-- Every member of the line counts as arrived (R302). -/
def State.lineComplete (s : State) (l : Nat) : Bool :=
  s.lineMask l != 0 && (List.range 96).all fun c => !(s.lineMask l).testBit c || s.arrived l c

/-- The queues whose head waits on a line. -/
def State.lineWaiters (s : State) (l : Nat) : List (Nat × Queue) :=
  (s.queues.filter fun p => p.2.lineWait == some l).map fun p => (p.1 / 6, (allQueues[p.1 % 6]?).getD .mqf)

/-- `s` with the XARR at the head of a queue issued by the release of its line (R305). -/
def State.lineDone (s : State) (cq : Nat × Queue) : State :=
  match (s.queue cq.1 cq.2).fetched with
  | some b => s.issued cq.1 cq.2 .xarr (frameOf b) { st := s }
  | none => s

/-- `s` with a line released (R305): arrive bits cleared, GEN raised, waiting XARRs completed. -/
def State.releaseLine (s : State) (l : Nat) : State :=
  let t := (s.setReg (xrdK l 0x18) 0).setReg (xrdK l 0x20) 0
  let t := t.setFld (xrdK l 0x10) 32 32 (t.regFld (xrdK l 0x10) 32 32 + 1)
  (t.lineWaiters l).foldl State.lineDone t

/-- `s` with a line released if it is complete (R305, R306). -/
def State.checkLine (s : State) (l : Nat) : State := if s.lineComplete l then s.releaseLine l else s

/-- The physical line of a virtual line (R303). -/
def State.lineOf (s : State) (ctx l : Nat) : Option Nat :=
  if ctx = 0 then (if l < 32 then some l else none)
  else if l < 32 && s.regBit (bindK ctx (0x300 + 8 * l)) 63 then some (s.regFld (bindK ctx (0x300 + 8 * l)) 0 5) else none

/-- `s` with core `c`'s arrive bit set on line `l`; a second arrival counts in REARRIVE (R304). -/
def State.arrive (s : State) (c l : Nat) : State :=
  if (s.lineArr l).testBit c then s.countSat (xrdK l 0x10) 0 8 1
  else if c < 64 then s.setBit (xrdK l 0x18) c true else s.setBit (xrdK l 0x20) (c - 64) true

/-- `s` with the head of a queue marked as waiting on a line. -/
def State.setLineWait (s : State) (c : Nat) (q : Queue) (l : Nat) : State :=
  s.setQueue c q { s.queue c q with lineWait := some l }

/-- XARR on physical line `l` (R304, R305). -/
def xarrVerdict (s : State) (c : Nat) (q : Queue) (wait : Bool) (l : Nat) : Verdict :=
  if !(s.lineMask l).testBit c then .issue { st := s, events := [Code.XR_NOT_MEMBER] }
  else
    let t := s.arrive c l
    if t.lineComplete l then .issue { st := t.releaseLine l }
    else if wait then .stay .line (t.setLineWait c q l)
    else .issue { st := t }

/-- XARR (R257, R303, R304). A head that has arrived and waits stays as it is until the release. -/
def execXarr (c : Fin 96) (q : Queue) (w : InstrWord) (s : State) : Host.Outcome State Fault Refusal :=
  if (s.queue c q).lineWait.isSome then .next s
  else .next (s.runHead c q .xarr w fun s =>
    if 32 ≤ opnd w 7 0 then .refuse Code.SYNC_ID_INVALID
    else match s.lineOf (s.ctxOf c) (opnd w 7 0) with
      | none => .refuse Code.SYNC_ID_UNBOUND
      | some l => xarrVerdict s c q w.f0 l)

/-- The virtual core number of a core in the context of its cluster (R25). -/
def State.vcoreOf (s : State) (ctx c : Nat) : Option Nat := (s.vcluOf ctx (c / 6)).map fun v => 6 * v + c % 6

/-- The global core that virtual core `n` of a context names (R25). -/
def State.coreOf (s : State) (ctx n : Nat) : Option Nat := (s.cluOf ctx (n / 6)).map fun g => 6 * g + n % 6

/-- `s` with doorbell bit `b` of cluster `g` rung (R312). -/
def State.ring_ (s : State) (g b : Nat) : State :=
  let was := s.regBit (cluK g 0x4400) b
  let t := s.setBit (cluK g 0x4400) b true
  if !was && !s.regBit (cluK g 0x4408) b && s.regBit (cluK g 0x4410) 63 && g < 16 then
    { t with sigs := t.sigs ++
        [{ src := .controller (Fin.ofNat 16 g), home := cluK g (0x1000 + 8 * s.regFld (cluK g 0x4410) 0 8), inc := 1,
           optag := 0, pc := 0 }] }
  else t

/-- Who sent a message (R310). -/
inductive Sender where
  | core (ctx c : Nat) (q : Queue)
  | qp (dev ctx n : Nat)
deriving DecidableEq, Repr

/-- CLU_MB_STAT of a channel that a message has just reached (R310, R318). -/
def mbStat (dev : Nat) (f : Sender) (len dbit : Nat) : W64 :=
  let v := putFld (putFld (putBit 0 63 true) 56 7 len) 5 5 dbit
  match f with
  | .core ctx c q => putFld (putFld (putFld (putFld (putFld v 54 2 1) 38 16 dev) 34 4 ctx) 13 7 c) 10 3 (qnum q)
  | .qp d ctx n => putFld (putFld (putFld (putFld v 54 2 2) 38 16 d) 34 4 ctx) 20 14 n

/-- The channel's full flag. -/
def State.mbFull (s : State) (g ch : Nat) : Bool := s.regBit (cluK g (0x4200 + 8 * ch)) 63

/-- `s` with a message delivered into a channel: identity, LEN, full flag, doorbell (R310). -/
def State.deliver (s : State) (g ch : Nat) (f : Sender) (len dbit : Nat) (msg : UnitData) (bad : Bool := false) : State :=
  let t := s.setReg (cluK g (0x4200 + 8 * ch)) (mbStat s.fuses.device f len dbit)
  { t with msgs := tset t.msgs (64 * g + ch) (msg, bad) }.ring_ g dbit

/-- `s` with the timeout flag of a sender's queue set (R310, R314). -/
def State.mbTimedOut (s : State) (c : Nat) (q : Queue) : State := s.setBit (coreK c 0x1408) (qnum q) true

/-- The channel of cluster `g` is configured for core `c`: a virtual core of the context that owns the cluster (R308, R318). -/
def State.mbMine (s : State) (c g ch : Nat) : Bool :=
  s.regFld (cluK g (0x4000 + 8 * ch)) 62 2 == 1 && s.ctxOf c == s.ctxOfClu g &&
    s.vcoreOf (s.ctxOfClu g) c == some (s.regFld (cluK g (0x4000 + 8 * ch)) 0 7)

/-- MBSEND to channel `ch` of cluster `g` (R309 to R311, R314, R333). -/
def mbsendVerdict (s : State) (c : Nat) (q : Queue) (w : InstrWord) (g ch : Nat) : Verdict :=
  let ctx := s.ctxOf c
  let len := opnd w 38 32
  let dbit := opnd w 28 24
  let o := s.offs c q w (opnd w 21 6 * 64)
  let r := s.readBytes (chamPa c o) len
  if !s.cluUp g then .issue { st := s.mbTimedOut c q, events := [Code.MB_TIMEOUT] }
  else if !s.mbMine c g ch then .refuse Code.MB_NOT_SENDER
  else if r.tag ≠ .good then
    .issue { st := s.tookTag c q w.optag (s.chamAddr c o) (chamPa c o) r.tag, error := tagError r.tag, errAt := badAddr r.tag (s.chamAddr c o) }
  else if len = 0 then .issue { st := s.ring_ g dbit }
  else
    let msg := unitOf (r.data ++ zeros (64 - len))
    if s.mbFull g ch then .issue { st := s, work := .mbsend g ch dbit len msg }
    else .issue { st := s.deliver g ch (.core ctx c q) len dbit msg }

/-- MBSEND (R258, R309, R310). -/
def execMbsend (c : Fin 96) (q : Queue) (w : InstrWord) (s : State) : Host.Outcome State Fault Refusal :=
  .next (s.runHead c q .mbsend w fun s =>
    if opnd w 59 54 ≠ 0 then .refuse Code.SYNC_ID_INVALID
    else match s.cluOf (s.ctxOf c) (opnd w 63 60) with
      | none => .refuse Code.SYNC_ID_UNBOUND
      | some g => mbsendVerdict s c q w g (opnd w 53 48))

/-- The message that an MBSEND of a queue still holds back. -/
def heldMessage (x : QState) : Option (InFlight × Nat × Nat × Nat × Nat × UnitData) :=
  x.inflight.findSome? fun f =>
    match f.work with
    | .mbsend g ch dbit len msg => some (f, g, ch, dbit, len, msg)
    | _ => none

/-- `s` with a held message given up: the timeout flag and the event MB_TIMEOUT (R310, R314). -/
def State.mbGiveUp (s : State) (c : Nat) (q : Queue) (f : InFlight) : State :=
  (s.mbTimedOut c q).mapFlight c q f.id fun f => { f with work := .done, events := f.events ++ [Code.MB_TIMEOUT] }

/-- MB_DELIVERY (R310): a message held back by a full channel is placed once the channel is empty and still its sender's (R308). One that
has been closed or given away holds the message back until its timeout (DEDUCED, log 78). -/
def execMbDelivery (c : Fin 96) (q : Queue) (s : State) : Host.Outcome State Fault Refusal :=
  match heldMessage (s.queue c q) with
  | none => .next s
  | some (f, g, ch, dbit, len, msg) =>
    if !s.cluUp g then .next (s.mbGiveUp c q f)
    else if s.mbFull g ch || !s.mbMine c g ch then .next s
    else .next ((s.deliver g ch (.core (s.ctxOf c) c q) len dbit msg).mapFlight c q f.id fun f => { f with work := .done })

/-- MB_TIMEOUT (R310): after CORE_MB_CFG.TICKS counts a held message is discarded; TICKS = 0 means no timeout. -/
def execMbTimeout (c : Fin 96) (q : Queue) (s : State) : Host.Outcome State Fault Refusal :=
  match heldMessage (s.queue c q) with
  | none => .next s
  | some (f, _) => if s.regFld (coreK c 0x1400) 0 32 = 0 then .next s else .next (s.mbGiveUp c q f)

/-- An older MBRECV of the cluster waits for the same channel (R313). -/
def State.olderRecv (s : State) (c : Nat) (q : Queue) (w : InstrWord) : Bool :=
  s.queues.any fun p =>
    p.1 != 6 * c + qnum q && p.1 / 36 == c / 6 && p.2.mode == .waiting && p.2.wcause == .resource &&
      p.2.age < (s.queue c q).age && p.2.room ((allQueues[p.1 % 6]?).getD .mqf) .mbrecv &&
      match p.2.fetched with
      | some b => opOf (opField b) == some .mbrecv && opnd (frameOf b) 53 48 == opnd w 53 48
      | none => false

/-- The message of a channel, and whether its unit is bad. -/
def State.msg (s : State) (g ch : Nat) : UnitData × Bool := tgetD s.msgs (64 * g + ch) (0, false)

/-- MBRECV (R258, R309, R313). A message that arrived with a bad tag is written poisoned (R363). -/
def execMbrecv (c : Fin 96) (q : Queue) (w : InstrWord) (s : State) : Host.Outcome State Fault Refusal :=
  .next (s.runHead c q .mbrecv w fun s =>
    let g := c.val / 6
    let ch := opnd w 53 48
    if opnd w 59 54 ≠ 0 || s.vcluOf (s.ctxOf c) g != some (opnd w 63 60) then .refuse Code.SYNC_ID_INVALID
    else if !s.mbFull g ch || s.olderRecv c q w then .wait .resource
    else
      .issue { st := (s.writeUnit (chamPa c (s.offs c q w (opnd w 21 6 * 64))) (unitBytes (s.msg g ch).1) (s.msg g ch).2).setBit
                       (cluK g (0x4200 + 8 * ch)) 63 false })

end Sys2Proof.Machine
end

