-- ==== Sys2Proof/Machine/Stats.lean ====
section
/-! DEFINITION. What the quantising instructions share with the kerb monitor and the NaN trap: layer table look-up, ladder wait,
statistics records, NaN reports (05_outliers_and_precision_ladder.md R136 to R146; 09_queues_and_program_images.md R239). -/

namespace Sys2Proof.Machine

/-- The kerb registers of a context now (R145). -/
def State.kerbRegs (s : State) (ctx : Nat) : KerbSample :=
  { policy := s.reg (kerbK ctx 0), ltbase := s.reg (kerbK ctx 0x8), ptbase := s.reg (kerbK ctx 0x10),
    stbase := s.reg (kerbK ctx 0x18), repl := s.reg (kerbK ctx 0x20), budget := s.reg (kerbK ctx 0x28),
    storm := s.reg (kerbK ctx 0x30) }

/-- The kerb registers in effect: as last sampled, and before the first close as written (R137, R155). -/
def State.kerbNow (s : State) (ctx : Nat) : KerbSample := (s.kerbOf ctx).sample.getD (s.kerbRegs ctx)

/-- KERB_POLICY.LAYERS; larger values act as 65,536 (R155). -/
def layersOf (policy : W64) : Nat := min (fld policy 0 17) 65536

/-- Local address of the layer table entry of a layer (R137). -/
def State.layerAddr (s : State) (ctx layer : Nat) : Nat := tableAddr (s.kerbNow ctx).ltbase + 16 * layer

/-- Word 0 of a layer's entry, as read (R137). -/
def State.layerWord (s : State) (ctx layer : Nat) : UnitRd := s.tableRead ctx (s.layerAddr ctx layer) 8

/-- Word 0 of a layer's entry. -/
def State.layerVal (s : State) (ctx layer : Nat) : W64 := BitVec.ofNat 64 (leNat (s.layerWord ctx layer).data)

/-- RUNG, WFROZ and OVF of a layer table entry (R137). -/
def rungOf (v : W64) : Nat := fld v 54 2
def wfrozOf (v : W64) : Bool := bitAt v 48
def ovfOf (v : W64) : Bool := bitAt v 47

/-- The last closed step: KERB_STATUS.STEP. -/
def State.kstepNow (s : State) (ctx : Nat) : Nat := s.regFld (kerbK ctx 0x38) 32 32

/-- The open step of a context (R142). -/
def State.openStep (s : State) (ctx : Nat) : BitVec 32 := BitVec.ofNat 32 (s.kstepNow ctx + 1)

/-- LAG as sampled at the last close (R146). -/
def State.lagNow (s : State) (ctx : Nat) : Bool := bitAt (s.kerbNow ctx).policy 29

/-- The decision that R146 needs for an LDQ of the open step is outstanding; also KERB_STATUS.PENDING. -/
def State.ladderBusy (s : State) (ctx : Nat) : Bool :=
  (s.kerbOf ctx).closings.any fun k => !s.lagNow ctx || k.step.toNat != s.kstepNow ctx

/-- A sum that saturates at the largest value of `n` bits (R141). -/
def satSum (n a b : Nat) : Nat := min (a + b) (2 ^ n - 1)

/-- Two statistics records merged (R141). -/
def KStat.merge (a b : KStat) : KStat :=
  { elems := satSum 64 a.elems b.elems, sat := satSum 32 a.sat b.sat, uflow := satSum 32 a.uflow b.uflow,
    excess := satSum 32 a.excess b.excess, slots := satSum 32 a.slots b.slots, nansc := satSum 32 a.nansc b.nansc,
    zerosc := satSum 32 a.zerosc b.zerosc, autogrp := satSum 32 a.autogrp b.autogrp, inexact := satSum 32 a.inexact b.inexact,
    tiles := satSum 32 a.tiles b.tiles, slotmax := max a.slotmax b.slotmax, amaxPre := max a.amaxPre b.amaxPre,
    amaxPost := max a.amaxPost b.amaxPost, heli := satSum 32 a.heli b.heli, drains := satSum 32 a.drains b.drains }

/-- The key of a statistics record: step, die and layer (R142, R143). -/
def statKey (step : BitVec 32) (die layer : Nat) : Nat := (step.toNat * 2 + die) * 65536 + layer

/-- `s` with counts added to the record of a layer at a step, from the die of core `c` (R142, R143). -/
def State.addStat (s : State) (ctx c layer : Nat) (step : BitVec 32) (k : KStat) : State :=
  let m := s.kerbOf ctx
  let i := statKey step (c / 48) layer
  s.setKerb ctx { m with stats := tset m.stats i ((tgetD m.stats i {}).merge k) }

/-- CORE_NAN0 of a report (R239, R240). -/
def nanWord (q : Queue) (source origin : Nat) (pc : BitVec 14) (optag : W16) : W64 :=
  putFld (putFld (putFld (putFld (putFld (putBit 0 63 true) 60 3 (qnum q)) 58 2 source) 55 3 origin) 32 14 pc.toNat) 16 16
    optag.toNat

/-- `s` with a report taken by the core's NaN trap (R239). -/
def State.nanTrap (s : State) (c : Nat) (q : Queue) (source origin : Nat) (pc : BitVec 14) (optag : W16) (coord : Nat) : State :=
  if s.regBit (coreK c 0x10) 63 then s.count (coreK c 0x20) 1
  else (s.setReg (coreK c 0x10) (nanWord q source origin pc optag)).setReg (coreK c 0x18) (BitVec.ofNat 64 coord)

/-- The report fills the trap's record (R239). -/
def State.nanFills (s : State) (c : Nat) : Bool := !s.regBit (coreK c 0x10) 63

/-- The hold that a report which fills the record causes (R239). -/
def State.nanHold (s : State) (c : Nat) : Hold :=
  match s.regFld (coreK c 0x8) 1 2 with
  | 1 => .own
  | 2 => .all
  | _ => .none

/-- Two causes of a hold. -/
def Hold.or : Hold → Hold → Hold
  | .all, _ => .all
  | _, .all => .all
  | .own, _ => .own
  | .none, h => h

/-- The finaliser of R62 on its own (R81). -/
def mix64 (z : W64) : W64 :=
  let z := (z ^^^ (z >>> 30)) * 0xBF58476D1CE4E5B9
  let z := (z ^^^ (z >>> 27)) * 0x94D049BB133111EB
  z ^^^ (z >>> 31)

/-- The FP32 pattern of a largest magnitude (R96, R141). Where FP32 does not hold it exactly, the manual names no rounding: a free
value (DESIGN CHOICE, log 3). -/
def amaxPat : Num → Nat
  | .fin m e =>
    let p := (Fmt.fp32.roundFin .rtz 0 m e).bits
    if Num.eqv (v32 p) (.fin m e) then p else (Config.amaxPattern m.natAbs e).toNat
  | _ => 0

end Sys2Proof.Machine
end

