-- ==== Sys2Proof/Machine/VecMath.lean ====
section
/-! DEFINITION. FP32 functions of the vector engine's stages, correctly rounded (08_vector_engine.md R213). The transcendental ones
are enclosed in fixed point and rounded when both ends of the enclosure round alike. -/

namespace Sys2Proof.Machine

/-- A value rounded once to FP32 under RNE. -/
def r32 (x : Num) : Num := v32 (f32 x)

/-- The value 1. -/
def Num.one : Num := .fin 1 0

/-- The value is negative and not zero. -/
def Num.isNeg : Num → Bool
  | .inf n => n
  | .fin m _ => decide (m < 0)
  | .nan => false

/-- IEEE division, rounded once. -/
def div32 (a b : Num) : Num :=
  match a, b with
  | .nan, _ => .nan
  | _, .nan => .nan
  | .inf _, .inf _ => .nan
  | .inf x, .fin m _ => .inf (x != decide (m < 0))
  | .fin _ _, .inf _ => .zero
  | .fin m e, .fin n f =>
    if n = 0 then (if m = 0 then .nan else .inf (decide (m < 0)))
    else if m = 0 then .zero else r32 (finDiv m e n f)

/-- Square root, rounded once. -/
def sqrt32 : Num → Num
  | .nan => .nan
  | .inf n => if n then .nan else .inf false
  | .fin m e => if m < 0 then .nan else if m = 0 then .zero else r32 (finSqrt m.natAbs e)

/-- 1 / sqrt a, rounded once: the integer square root of a power of two over the significand, with a sticky last bit. -/
def rsqrt32 : Num → Num
  | .nan => .nan
  | .inf n => if n then .nan else .zero
  | .fin m e =>
    if m < 0 then .nan
    else if m = 0 then .inf false
    else
      let a := if e % 2 = 0 then m.natAbs else 2 * m.natAbs
      let e := if e % 2 = 0 then e else e - 1
      let k := 90 + bitLen a
      let n := 2 ^ (2 * k) / a
      let r := isqrt n
      r32 (.fin (2 * r + (if r * r * a = 2 ^ (2 * k) then 0 else 1) : Nat) (-(e / 2) - k - 1))

/-- The larger or smaller of two values; NaN if either is (R213). -/
def max32 (a b : Num) : Num := if a = .nan || b = .nan then .nan else if a.lt b then b else a
def min32 (a b : Num) : Num := if a = .nan || b = .nan then .nan else if b.lt a then b else a

/-- Fractional bits of the enclosures. -/
def encBits : Nat := 200

/-- The integer part of ln 2 times 2^200. -/
def ln2Int : Nat := 1113844574712631719546256151097547306333272293549090750737802

/-- Terms n + 1, … of the exponential series of r, as fixed-point integers: the sum of `k` of them. -/
def expSeries (r : Nat) : Nat → Nat → Nat → Nat
  | 0, _, _ => 0
  | k + 1, n, t => t + expSeries r k (n + 1) (t * r / (n + 1) / 2 ^ encBits)

/-- An enclosure of e^r * 2^k, r a fixed-point integer below ln 2, by values: the series' error is below 2^12 units. -/
def expBounds (r : Nat) (k : Int) : Num × Num :=
  let s := expSeries r 60 0 (2 ^ encBits)
  (.fin ((s : Int) - 2 ^ 12) (k - encBits), .fin ((s : Int) + 2 ^ 12) (k - encBits))

/-- A finite value as a fixed-point integer, rounded down. -/
def fixedOf (m e : Int) : Int := if -(encBits : Int) ≤ e then m * 2 ^ (e + encBits).toNat else m / 2 ^ (-(e + encBits)).toNat

/-- An enclosure of e^a. -/
def expEnc (m e : Int) : Num × Num :=
  let a := fixedOf m e
  let k := a / (ln2Int : Int)
  expBounds (a - k * ln2Int).toNat k

/-- An enclosure of 2^a. -/
def exp2Enc (m e : Int) : Num × Num :=
  let a := fixedOf m e
  let k := a / 2 ^ encBits
  expBounds ((a - k * 2 ^ encBits).toNat * ln2Int / 2 ^ encBits) k

/-- Terms of the series of artanh z: the sum of z^(2n+1)/(2n+1) for `k` terms from n. -/
def atanhSeries (z2 : Nat) : Nat → Nat → Nat → Nat
  | 0, _, _ => 0
  | k + 1, n, p => p / (2 * n + 1) + atanhSeries z2 k (n + 1) (p * z2 / 2 ^ encBits)

/-- An enclosure of log2 of a positive value. -/
def log2Enc (m : Nat) (e : Int) : Num × Num :=
  let l := bitLen m
  let x := m * 2 ^ (encBits - (l - 1))
  let z := (x - 2 ^ encBits) * 2 ^ encBits / (x + 2 ^ encBits)
  let s : Int := 2 * atanhSeries (z * z / 2 ^ encBits) 70 0 z
  let lo := (s - 2 ^ 12) * 2 ^ encBits / (ln2Int + 1) - 1
  let hi := (s + 2 ^ 12) * 2 ^ encBits / ln2Int + 1
  let k : Int := ((l : Int) - 1 + e) * 2 ^ encBits
  (.fin (k + lo) (-encBits), .fin (k + hi) (-encBits))

/-- The FP32 value of a function from an enclosure of it: a free value where its ends round apart (DESIGN CHOICE, log 5). -/
def decide32 (op : Nat) (a : Num) (lo hi : Num) : Num :=
  if f32 lo = f32 hi then r32 lo else v32 (Config.transcendental op (BitVec.ofNat 32 (f32 a))).toNat

/-- The quotient of an enclosure's ends. -/
def divEnc (a b : Num) : Num :=
  match a, b with
  | .fin m e, .fin n f => if m = 0 then .zero else finDiv m e n f
  | _, _ => .nan

/-- `a` is at or above, or below, an integer. -/
def atLeast (a : Num) (n : Int) : Bool := !a.lt (.fin n 0)

/-- EXP2 and EXP (R213). -/
def exp32 (two : Bool) (a : Num) : Num :=
  match a with
  | .nan => .nan
  | .inf n => if n then .zero else .inf false
  | .fin m e =>
    if atLeast a 128 then .inf false
    else if !atLeast a (-160) then .zero
    else if m = 0 then .one
    else if two then
      let k := fixedOf m e
      if k % 2 ^ encBits = 0 then r32 (.fin 1 (k / 2 ^ encBits))
      else let p := exp2Enc m e; decide32 0x0D a p.1 p.2
    else let p := expEnc m e; decide32 0x0F a p.1 p.2

/-- LOG2 (R213). -/
def log32 (a : Num) : Num :=
  match a with
  | .nan => .nan
  | .inf n => if n then .nan else .inf false
  | .fin m e =>
    if m = 0 then .inf true
    else if m < 0 then .nan
    else
      let n := m.natAbs
      if n = 2 ^ (bitLen n - 1) then r32 (.fin ((bitLen n : Int) - 1 + e) 0)
      else let p := log2Enc n e; decide32 0x0E a p.1 p.2

/-- TANH: (E - 1) / (E + 1) with E = e^2|a|; below 2^-16 it rounds to a (R213). -/
def tanh32 (a : Num) : Num :=
  match a with
  | .nan => .nan
  | .inf n => .fin (if n then -1 else 1) 0
  | .fin m e =>
    if a.abs.lt (.fin 1 (-16)) then a
    else if atLeast a.abs 20 then .fin (if m < 0 then -1 else 1) 0
    else
      let p := expEnc (m.natAbs : Int) (e + 1)
      let t := fun (x : Num) =>
        let q := divEnc (x.add (.fin (-1) 0)) (x.add .one)
        if m < 0 then q.neg else q
      decide32 0x10 a (t p.1) (t p.2)

/-- SIGM (R213). -/
def sigm32 (a : Num) : Num :=
  match a with
  | .nan => .nan
  | .inf n => if n then .zero else .one
  | .fin m e =>
    if atLeast a 40 then .one
    else if !atLeast a (-120) then .zero
    else
      let p := expEnc (-m) e
      let t := fun (x : Num) => divEnc .one (x.add .one)
      decide32 0x11 a (t p.2) (t p.1)

/-- SILU (R213). -/
def silu32 (a : Num) : Num :=
  match a with
  | .nan => .nan
  | .inf n => if n then .zero else .inf false
  | .fin m e =>
    if m = 0 then .zero
    else if atLeast a 40 then a
    else if !atLeast a (-120) then .zero
    else
      let p := expEnc (-m) e
      let t := fun (x : Num) => divEnc a (x.add .one)
      decide32 0x12 a (t p.1) (t p.2)

end Sys2Proof.Machine
end

