-- ==== Sys2Proof/Machine/Update.lean ====
section
/-! DEFINITION. The update units: UPD and its rules (07_update_units.md R178 to R196, R469). -/

namespace Sys2Proof.Machine

/-- Bits `lo` to `lo` + `len` - 1 of word `i` of a record of 64-bit little-endian words. -/
def recFld (x : Nat) (i lo len : Nat) : Nat := (x >>> (64 * i + lo)) % 2 ^ len

/-- An update descriptor (R181). -/
structure UpdDesc where
  group : Nat
  gfmt : Nat
  grad : Nat
  step : BitVec 32
  off : Nat
  count : Nat
  gmulen : Bool
  gmul : Nat
  wcen : Bool
  wcopy : Nat
  resv : Bool
deriving DecidableEq, Repr

/-- The fields of a descriptor's 64 bytes (R181). -/
def updDescOf (u : UnitData) : UpdDesc :=
  let f := recFld u.toNat
  { group := f 0 52 12, gfmt := f 0 46 2, grad := f 0 0 46, step := BitVec.ofNat 32 (f 1 32 32), off := f 2 24 40,
    count := f 3 24 40, gmulen := f 4 63 1 == 1, gmul := f 4 0 46, wcen := f 5 63 1 == 1, wcopy := f 5 0 46,
    resv := f 0 48 4 != 0 || f 1 0 32 != 0 || f 2 0 24 != 0 || f 3 0 24 != 0 || f 4 46 17 != 0 || f 5 46 17 != 0
      || f 6 0 64 != 0 || f 7 0 64 != 0 }

/-- A group table entry (R186). -/
structure Group where
  rule : Nat
  fbrule : Nat
  mfmt : Nat
  rnd : Nat
  nanpol : Nat
  wcfmt : Nat
  froz : Bool
  nest : Bool
  lren : Bool
  lrcv : Nat
  lrnp : Nat
  wden : Bool
  wdcv : Nat
  wdnp : Nat
  nelem : Nat
  goff : Nat
  half0 : Nat
  half1 : Nat
  lr : Nat
  wd : Nat
  b1 : Nat
  b2 : Nat
  eps : Nat
  damp : Nat
  seed : W64
  blk : Nat
  period : Nat
  iters : Nat
  skiplim : Nat
  tol : Nat
  pcols : Nat
  cur : Bool
  fb : Bool
  wfb : Bool
  cstep : BitVec 32
  wstep : BitVec 32
  tcount : BitVec 32
  wcount : Nat
  b1p : Nat
  b2p : Nat
deriving DecidableEq, Repr

/-- The fields of an entry's 128 bytes (R186). -/
def groupOf (x : BitVec 1024) : Group :=
  let f := recFld x.toNat
  let b := fun i n => f i n 1 == 1
  { rule := f 0 60 4, fbrule := f 0 56 4, mfmt := f 0 54 2, rnd := f 0 52 2, nanpol := f 0 50 2, wcfmt := f 0 48 2,
    froz := b 0 47, nest := b 0 46, lren := b 0 45, lrcv := f 0 37 8, lrnp := f 0 31 6, wden := b 0 30, wdcv := f 0 22 8,
    wdnp := f 0 16 6, nelem := f 1 0 40, goff := f 2 0 44, half0 := f 3 6 40 * 64, half1 := f 4 6 40 * 64, lr := f 5 32 32,
    wd := f 5 0 32, b1 := f 6 32 32, b2 := f 6 0 32, eps := f 7 32 32, damp := f 7 0 32, seed := BitVec.ofNat 64 (f 8 0 64),
    blk := f 9 62 2, period := f 9 32 16, iters := f 9 24 8, skiplim := f 9 16 8, tol := f 10 32 32, pcols := f 10 0 32,
    cur := b 12 63, fb := b 12 62, wfb := b 12 61, cstep := BitVec.ofNat 32 (f 12 0 32),
    wstep := BitVec.ofNat 32 (f 13 32 32), tcount := BitVec.ofNat 32 (f 13 0 32), wcount := f 14 0 40, b1p := f 15 32 32,
    b2p := f 15 0 32 }

/-- The rule that a group runs: FBRULE while FB is 1, whatever its RULE (R192, R195). A FBRULE that R187 calls ignored is none (DEDUCED,
log 84). -/
def Group.runs (g : Group) : Nat := if g.fb && 1 ≤ g.fbrule && g.fbrule ≤ 4 then g.fbrule else g.rule

/-- Side of a preconditioner block (R187). -/
def Group.side (g : Group) : Nat := 32 * 2 ^ g.blk

/-- Bytes of a moment (R188). -/
def Group.mb (g : Group) : Nat := if g.mfmt = 1 then 2 else 4

/-- Base of the committed half, and of the other (R189). -/
def Group.from_ (g : Group) : Nat := if g.cur then g.half1 else g.half0
def Group.to_ (g : Group) : Nat := if g.cur then g.half0 else g.half1

/-- Offsets of the M, V and P regions in a half (R188). -/
def Group.offM (g : Group) : Nat := alignUp (4 * g.nelem) 64
def Group.offV (g : Group) : Nat := g.offM + alignUp (g.mb * g.nelem) 64
def Group.offP (g : Group) : Nat := g.offM + 2 * alignUp (g.mb * g.nelem) 64

/-- Bytes of a preconditioner block (R188). -/
def Group.blockBytes (g : Group) : Nat := 64 + 16 * g.side * g.side

/-- Blocks in one block row of the matrix view (R188). -/
def Group.blockCols (g : Group) : Nat := (g.pcols + g.side - 1) / g.side

/-- Local address of a context's group table entry (R186, R202). -/
def State.groupAddr (s : State) (ctx g : Nat) : Nat := s.regFld (updK ctx 0) 7 39 * 128 + 128 * g

/-- An entry of the group table as read. -/
def State.groupRead (s : State) (ctx g : Nat) : UnitRd := s.tableRead ctx (s.groupAddr ctx g) 128

/-- The 1,024 bits of an entry. -/
def State.groupBits (s : State) (ctx g : Nat) : BitVec 1024 := BitVec.ofNat 1024 (leNat (s.groupRead ctx g).data)

/-- `s` with word `i` of the entry at a local address written whole (R186). -/
def State.setGroupWord (s : State) (ctx addr i : Nat) (v : W64) : State := s.tableWrite ctx (addr + 8 * i) (leBytes 8 v.toNat)

/-- Word `i` of the entry at a local address. -/
def State.groupWord (s : State) (ctx addr i : Nat) : W64 := BitVec.ofNat 64 (leNat (s.tableRead ctx (addr + 8 * i) 8).data)

/-- The coded fields of an entry are accepted, RND apart (R187). -/
def Group.codesOk (g : Group) : Bool :=
  g.rule ≤ 5 && (g.rule != 5 || (1 ≤ g.fbrule && g.fbrule ≤ 4)) && g.mfmt ≤ 1 && g.nanpol ≤ 2 && g.wcfmt ≤ 2
    && (g.rule != 5 || g.blk ≤ 2)

/-- The further cases of R187 under rule 0x5. -/
def rangeOk5 (g : Group) (d : UpdDesc) : Bool :=
  g.rule != 5 ||
    (let u := g.side * g.pcols
     g.pcols != 0 && g.nelem % g.pcols == 0 && d.off % u == 0 && ((d.off + d.count) % u == 0 || d.off + d.count == g.nelem))

/-- Step 4 of R469: the cases of R182, RND_RESERVED last. -/
def updCodes (d : UpdDesc) (g : Group) : Option Ref :=
  firstRef
    [ need (!d.resv && d.gfmt ≤ 1) Code.UPD_DESC_INVALID, need (d.off + d.count ≤ g.nelem) Code.UPD_DESC_INVALID,
      need g.codesOk Code.UPD_DESC_INVALID, need (!(d.wcen && g.wcfmt == 0)) Code.UPD_DESC_INVALID,
      need (rangeOk5 g d) Code.UPD_DESC_INVALID, need (g.rnd ≠ 3) Code.RND_RESERVED ]

/-- The descriptor that a UPD names, as read (R181). -/
def State.updUnit (s : State) (c : Nat) (q : Queue) (w : InstrWord) : UnitRd := s.readUnit (chamPa c (s.offs c q w (opnd w 15 0 * 64)))
def State.updDesc (s : State) (c : Nat) (q : Queue) (w : InstrWord) : UpdDesc := updDescOf (unitOf (s.updUnit c q w).data)

/-- The group table entry that a UPD names. -/
def State.updGroup (s : State) (c : Nat) (q : Queue) (w : InstrWord) : Group :=
  groupOf (s.groupBits (s.ctxOf c) (s.updDesc c q w).group)

/-- What the early checks of a UPD read of the context's tables: the entry of its group, once its descriptor is good (R469). -/
def State.updTable (s : State) (c : Nat) (q : Queue) (w : InstrWord) : List (Nat × Nat) :=
  if (s.updUnit c q w).tag = .good then [(s.groupAddr (s.ctxOf c) (s.updDesc c q w).group, 128)] else []

/-- The first failing check of steps 2 to 4 of R469. -/
def State.updRefusal (c : Nat) (q : Queue) (w : InstrWord) (s : State) : Option Ref :=
  let u := s.updUnit c q w
  let ctx := s.ctxOf c
  let d := s.updDesc c q w
  let e := s.groupRead ctx d.group
  if u.tag ≠ .good then
    some { code := Code.UPD_DESC_INVALID,
           bad := some (badKind (tagCode u.tag), s.chamAddr c (s.offs c q w (opnd w 15 0 * 64))) }
  else if e.tag ≠ .good then
    some { code := Code.UPD_DESC_INVALID, bad := some (badKind (tagCode e.tag), s.firstBadIn ctx (s.groupAddr ctx d.group) 128) }
  else
    let g := s.updGroup c q w
    if g.nelem = 0 then some { code := Code.UPD_NOT_OWNER } else updCodes d g

/-- Steps 2 to 4 of R469, made before the step order, with the table that they read. -/
def State.updEarly (c : Nat) (q : Queue) (w : InstrWord) (s : State) : Option Ref :=
  (State.updRefusal c q w s).map fun r => { r with tables := s.updTable c q w }

/-- A COMMIT of a step that is in flight in a context, its own sequence or another's (R184, R197). -/
def isCommitOf (n : BitVec 32) (f : InFlight) : Bool :=
  match f.work with
  | .commit _ _ _ => f.step == n
  | _ => false

/-- A COMMIT of step `n` of the context is in flight on either die. -/
def State.committing (s : State) (ctx : Nat) (n : BitVec 32) : Bool := (s.inflightOf ctx).any fun p => isCommitOf n p.2.2

/-- A UPD tagged `n` of the context is in flight. -/
def State.updating (s : State) (ctx : Nat) (n : BitVec 32) : Bool :=
  (s.inflightOf ctx).any fun p => p.2.2.op == .upd && p.2.2.step == n

/-- A range of local addresses, in bytes. -/
structure Range where
  addr : Nat
  len : Nat
deriving DecidableEq, Repr

/-- The regions of one half that a range of a group covers (R188). -/
def halfRanges (g : Group) (d : UpdDesc) (base : Nat) : List Range :=
  [ { addr := base + 4 * d.off, len := 4 * d.count }, { addr := base + g.offM + g.mb * d.off, len := g.mb * d.count },
    { addr := base + g.offV + g.mb * d.off, len := g.mb * d.count } ] ++
  if g.rule = 5 then
    let u := g.side * g.pcols
    let lo := d.off / u
    let hi := (d.off + d.count + u - 1) / u
    [{ addr := base + g.offP + lo * g.blockCols * g.blockBytes, len := (hi - lo) * g.blockCols * g.blockBytes }]
  else []

/-- Bytes of a gradient and of a working-copy element (R181, R187). -/
def gradBytes (d : UpdDesc) : Nat := if d.gfmt = 1 then 2 else 4
def wcBytes (g : Group) : Nat := if g.wcfmt = 1 then 2 else 4

/-- A rule reads the gradient (R192, R201). -/
def ruleUsesGrad (rule : Nat) : Bool := rule == 1 || rule == 2 || rule == 3 || rule == 5

/-- The ranges that R179 holds to one stack: both halves, the uncommitted one first, the gradient, and GMUL when it is read (R469 step 8).
R469 lists them without regard to the rule that runs (DEDUCED, log 30). -/
def stackRanges (g : Group) (d : UpdDesc) : List Range :=
  halfRanges g d g.to_ ++ halfRanges g d g.from_ ++ [{ addr := d.grad, len := gradBytes d * d.count }] ++
    (if d.gmulen then [{ addr := d.gmul, len := 4 }] else [])

/-- The ranges that steps 6 and 7 of R469 check. A UPD without elements has none (R183). -/
def updRanges (g : Group) (d : UpdDesc) : List Range :=
  if d.count = 0 then []
  else stackRanges g d ++ (if d.wcen then [{ addr := d.wcopy, len := wcBytes g * d.count }] else [])

/-- Step 6 of R469 for one range: within one region of R23, outside the reserved ranges. -/
def Range.inRegion (r : Range) : Bool :=
  match regionOf r.addr, regionOf (r.addr + r.len - 1) with
  | some a, some b => a == b && (a != 3 || r.addr / 0x40000 == (r.addr + r.len - 1) / 0x40000)
  | _, _ => false

/-- One address in each slot that a range touches (R24, R25). -/
def Range.slots (r : Range) : List Nat :=
  let u := match regionOf r.addr with
    | some 0 => 0x40000000
    | some 1 => 0x8000000
    | some 2 => 0x400000
    | _ => 0x40000
  (List.range ((r.addr + r.len - 1) / u - r.addr / u + 1)).map fun i => max r.addr ((r.addr / u + i) * u)

/-- The first address of a range in a slot that the context has not bound (R27). -/
def State.unbound (s : State) (ctx : Nat) (r : Range) : Option Nat :=
  r.slots.find? fun a => s.localPlace ctx a == .miss

/-- The stack that holds a local address; none: not in a stack. -/
def State.stackOf (s : State) (ctx a : Nat) : Option Nat :=
  match s.localPlace ctx a with
  | .mem pa => if pa < stackEnd then some (pa / 0x1000000000) else none
  | _ => none

/-- The base die that runs a UPD: the stack of the first parameter element in the uncommitted half (R179). -/
def State.updStack (s : State) (ctx : Nat) (g : Group) (d : UpdDesc) : Option Nat := s.stackOf ctx (g.to_ + 4 * d.off)

/-- R179: every region lies in one stack; the working copy is exempt. -/
def State.oneStack (s : State) (ctx : Nat) (g : Group) (d : UpdDesc) : Bool :=
  (s.updStack ctx g d).isSome &&
    (stackRanges g d).all fun r => r.slots.all fun a => s.stackOf ctx a == s.updStack ctx g d

/-- Local address of a context's curve (R190, R202). -/
def State.curveAddr (s : State) (ctx idx : Nat) : Nat := s.regFld (updK ctx 8) 7 39 * 128 + 512 * idx

/-- A curve's points, as read (R190). -/
def State.curveRead (s : State) (ctx idx n : Nat) : UnitRd := s.tableRead ctx (s.curveAddr ctx idx) (8 * n)

/-- Points (step, value pattern) of a curve's bytes. -/
def curvePts (bs : List Byte) (n : Nat) : List (Nat × Nat) :=
  (List.range n).map fun i =>
    let v := leNat ((bs.drop (8 * i)).take 8)
    (v / 2 ^ 32, v % 2 ^ 32)

/-- A curve is invalid (R190). -/
def curveBad : List (Nat × Nat) → Bool
  | a :: b :: r => b.1 < a.1 || curveBad (b :: r)
  | _ => false

/-- FP32 operations of the rules, each rounded once (R191). -/
def mul32 (a b : Num) : Num := r32 (a.mul b)
def add32 (a b : Num) : Num := r32 (a.add b)
def sub32 (a b : Num) : Num := r32 (a.add b.neg)
def fma32 (a b c : Num) : Num := r32 ((a.mul b).add c)

/-- A curve after its first point's step has been reached (R190). -/
def curveFrom (t : Nat) : List (Nat × Nat) → Num
  | a :: b :: r =>
    if t < b.1 then
      let fr := div32 (r32 (.fin (t - a.1 : Nat) 0)) (r32 (.fin (b.1 - a.1 : Nat) 0))
      fma32 fr (sub32 (v32 b.2) (v32 a.2)) (v32 a.2)
    else curveFrom t (b :: r)
  | [a] => v32 a.2
  | [] => .zero

/-- A curve at step `t` (R190). -/
def curveAt (t : Nat) (pts : List (Nat × Nat)) : Num :=
  match pts with
  | a :: _ => if t < a.1 then v32 a.2 else curveFrom t pts
  | [] => .zero

/-- The curves that a UPD reads, each with its number of points (R183, R190, R196). -/
def updCurves (g : Group) (d : UpdDesc) : List (Nat × Nat) :=
  if d.count = 0 || g.froz then []
  else (if g.lren then [(g.lrcv, g.lrnp + 1)] else []) ++ (if g.wden then [(g.wdcv, g.wdnp + 1)] else [])

/-- The curves that a UPD reads are in good units (R333). -/
def State.curveUnits (s : State) (ctx : Nat) (g : Group) (d : UpdDesc) : Option Ref :=
  (updCurves g d).findSome? fun p =>
    let r := s.curveRead ctx p.1 p.2
    if r.tag = .good then none
    else some { code := Code.UPD_DESC_INVALID, bad := some (badKind (tagCode r.tag), s.firstBadIn ctx (s.curveAddr ctx p.1) (8 * p.2)) }

/-- Steps 6 to 8 of R469, and the reads of curve points after them. -/
def State.updPlace (s : State) (ctx : Nat) (g : Group) (d : UpdDesc) : Option Ref :=
  let rs := updRanges g d
  firstRef
    [ need (rs.all Range.inRegion) Code.ADDR_INVALID,
      (rs.findSome? (s.unbound ctx)).map (fun a => { code := Code.BIND_WINDOW_MISS, miss := some a }),
      need (rs == [] || s.oneStack ctx g d) Code.UPD_STACK_SPLIT, s.curveUnits ctx g d ]

/-- LR or WD scaled by its curve, and whether the curve is invalid (R190). -/
def State.scaled (s : State) (ctx : Nat) (en : Bool) (idx np v t : Nat) : Nat × Bool :=
  if en then
    let p := curvePts (s.curveRead ctx idx (np + 1)).data (np + 1)
    if curveBad p then (v, true) else (f32 (mul32 (v32 v) (curveAt t p)), false)
  else (v, false)

/-- What a UPD latches (R183). -/
def State.updJob (s : State) (c : Nat) (q : Queue) (w : InstrWord) : UpdJob :=
  let ctx := s.ctxOf c
  let d := s.updDesc c q w
  let g := s.updGroup c q w
  let l := s.scaled ctx g.lren g.lrcv g.lrnp g.lr d.step.toNat
  let k := s.scaled ctx g.wden g.wdcv g.wdnp g.wd d.step.toNat
  let m := s.readAt ctx d.gmul 4
  { ctx := ctx, gaddr := s.groupAddr ctx d.group, desc := unitOf (s.updUnit c q w).data,
    entry := s.groupBits ctx d.group, lr := BitVec.ofNat 32 l.1, wd := BitVec.ofNat 32 k.1, curveBad := l.2 || k.2,
    gmul := if d.gmulen then BitVec.ofNat 32 m.val else 0x3F800000, gmulBad := d.gmulen && isBad m.err,
    gmulErr := if d.gmulen then m.err else 0 }

/-- `s` after the first UPD of a step that names a group (R185). -/
def State.openGroup (s : State) (ctx addr : Nat) (n : BitVec 32) : State :=
  if fld (s.groupWord ctx addr 13) 32 32 = n.toNat then s
  else
    let s := s.setGroupWord ctx addr 12 (putBit (s.groupWord ctx addr 12) 61 false)
    let s := s.setGroupWord ctx addr 13 (putFld (s.groupWord ctx addr 13) 32 32 n.toNat)
    s.setGroupWord ctx addr 14 (putFld (s.groupWord ctx addr 14) 0 40 0)

/-- A UPD that issues (R183, R185, R196): skipped under FROZ, without elements, or sent to its base die. -/
def State.updIssue (s : State) (c : Nat) (q : Queue) (w : InstrWord) : Issued :=
  let j := s.updJob c q w
  let d := updDescOf j.desc
  let g := groupOf j.entry
  if g.froz then { st := s.count (updK j.ctx 0x40) 1, step := d.step }
  else if d.count = 0 then { st := s, step := d.step }
  else { st := (s.wakeAll j.ctx (if d.gmulen then [d.gmul] else [])).openGroup j.ctx j.gaddr d.step, work := .upd j, step := d.step }

/-- The tables that a UPD reads as it issues: its group's entry and its curves (R183). -/
def State.updTables (s : State) (c : Nat) (q : Queue) (w : InstrWord) : List (Nat × Nat) :=
  s.updTable c q w ++
    (updCurves (s.updGroup c q w) (s.updDesc c q w)).map fun p => (s.curveAddr (s.ctxOf c) p.1, 8 * p.2)

/-- Steps 6 to 8 of R469, and the issue. -/
def State.updLate (c : Nat) (q : Queue) (w : InstrWord) (s : State) : Verdict :=
  (match s.updPlace (s.ctxOf c) (s.updGroup c q w) (s.updDesc c q w) with
    | some r => Verdict.refuseRef r
    | none => .issue (s.updIssue c q w)).reading s (s.ctxOf c) (s.updTables c q w)

/-- Steps 5 to 8 of R469. -/
def State.updVerdict (c : Nat) (q : Queue) (w : InstrWord) (s : State) : Verdict :=
  let ctx := s.ctxOf c
  let d := s.updDesc c q w
  let n := BitVec.ofNat 32 (s.cstep ctx)
  if d.step = n + 2 && s.committing ctx (n + 1) then .wait .step
  else if d.step ≠ n + 1 then (Verdict.refuse Code.UPD_STEP_ORDER).reading s ctx (s.updTable c q w)
  else State.updLate c q w s

/-- UPD (R183, R469). -/
def execUpd (c : Fin 96) (q : Queue) (w : InstrWord) (s : State) : Host.Outcome State Fault Refusal :=
  .next (s.runHead c q .upd w (State.updVerdict c q w) (some (State.updEarly c q w)))

/-- The constants of a UPD (R192). -/
structure UpdK where
  rule : Nat
  nest : Bool
  lr : Num
  wd : Num
  b1 : Num
  b2 : Num
  eps : Num
  c1 : Num
  c2 : Num
  k1 : Num
  k2 : Num
deriving DecidableEq, Repr

/-- The constants from a latched entry (R192). -/
def updK_ (j : UpdJob) : UpdK :=
  let g := groupOf j.entry
  let b1 := v32 g.b1
  let b2 := v32 g.b2
  { rule := g.runs, nest := g.nest, lr := v32 j.lr.toNat, wd := v32 j.wd.toNat, b1 := b1, b2 := b2, eps := v32 g.eps,
    c1 := sub32 .one b1, c2 := sub32 .one b2, k1 := div32 .one (sub32 .one (mul32 (v32 g.b1p) b1)),
    k2 := div32 .one (sub32 .one (mul32 (v32 g.b2p) b2)) }

/-- The parameter step that every rule but the copy ends with. -/
def UpdK.step (k : UpdK) (w d : Num) : Num := fma32 k.lr.neg d w

/-- The sign of rule 0x3; a NaN stays. -/
def sign32 : Num → Num
  | .nan => .nan
  | x => if x.isZero then .zero else if x.isNeg then .fin (-1) 0 else .one

/-- One element under a rule: new parameter and moments (R192). Rule 0x5 gives its moments here, and its parameter from its block. -/
def UpdK.elem (k : UpdK) (w m v g : Num) : Num × Num × Num :=
  match k.rule with
  | 1 =>
    let m1 := fma32 k.b1 m g
    let d := if k.nest then fma32 k.b1 m1 g else m1
    (k.step w (fma32 k.wd w d), m1, v)
  | 2 =>
    let m1 := fma32 k.b1 m (mul32 k.c1 g)
    let v1 := fma32 k.b2 v (mul32 k.c2 (mul32 g g))
    let u := div32 (mul32 m1 k.k1) (add32 (sqrt32 (mul32 v1 k.k2)) k.eps)
    (k.step w (fma32 k.wd w u), m1, v1)
  | 3 =>
    let c := fma32 k.b1 m (mul32 k.c1 g)
    (k.step w (fma32 k.wd w (sign32 c)), fma32 k.b2 m (mul32 k.c2 g), v)
  | 4 => (k.step w (mul32 k.wd w), m, v)
  | 5 => (w, fma32 k.b1 m (mul32 k.c1 g), fma32 k.b2 v (mul32 k.c2 (mul32 g g)))
  | _ => (w, m, v)

/-- A rule reads the gradient (R201). -/
def UpdK.usesGrad (k : UpdK) : Bool := ruleUsesGrad k.rule

/-- A value with its dependence on bad data. -/
abbrev Cell := Num × Bool

/-- A matrix of FP32 values, rows first. -/
abbrev Mat := List (List Num)

/-- Row `i`, and element (i, j), of a matrix. -/
def Mat.row (a : Mat) (i : Nat) : List Num := List.getD a i []
def Mat.at_ (a : Mat) (i j : Nat) : Num := (Mat.row a i).getD j .zero

/-- A square matrix of side `b` from its elements. -/
def matOf (b : Nat) (f : Nat → Nat → Num) : Mat := (List.range b).map fun i => (List.range b).map fun j => f i j

/-- The transpose. -/
def Mat.tr (b : Nat) (a : Mat) : Mat := matOf b fun i j => Mat.at_ a j i

/-- A sum of products that starts from `x`, k ascending (R194). -/
def dotFrom (x : Num) (a b : List Num) : Num := (a.zip b).foldl (fun acc p => fma32 p.1 p.2 acc) x

/-- A matrix product (R194). -/
def Mat.mul (b : Nat) (x y : Mat) : Mat :=
  let t := Mat.tr b y
  List.map (fun r => List.map (fun c => dotFrom .zero r c) t) x

/-- The identity's element. -/
def delta (i j : Nat) : Num := if i = j then .one else .zero

/-- One column of the Cholesky pivot test over the rows so far; none: the pivot is not positive (R194). -/
def cholCol (a : Mat) (l : Mat) (j : Nat) : Option Mat :=
  let lj := Mat.row l j
  let d := lj.foldl (fun d x => fma32 x.neg x d) (Mat.at_ a j j)
  if Num.lt .zero d then
    let p := sqrt32 d
    some ((List.zipIdx l).map fun r =>
      if r.2 < j then r.1
      else if r.2 = j then r.1 ++ [p]
      else r.1 ++ [div32 ((r.1.zip lj).foldl (fun e x => fma32 x.1.neg x.2 e) (Mat.at_ a r.2 j)) p])
  else none

/-- The Cholesky pivot test passes (R194). -/
def pivotsOk (b : Nat) (a : Mat) : Bool :=
  ((List.range b).foldl (fun l j => l.bind fun l => cholCol a l j) (some (List.replicate b []))).isSome

/-- The iteration of the inverse root over X and M (R194). -/
def rootIter (b : Nat) (tol : Num) : Nat → Mat → Mat → Option Mat
  | 0, _, _ => none
  | n + 1, x, m =>
    let t := matOf b fun i j => mul32 (sub32 (mul32 (.fin 5 0) (delta i j)) (Mat.at_ m i j)) (.fin 1 (-2))
    let x := Mat.mul b x t
    let t2 := Mat.mul b t t
    let m := Mat.mul b (Mat.mul b t2 t2) m
    let e := matOf b fun i j => (sub32 (Mat.at_ m i j) (delta i j)).abs
    if List.all e (fun r => r.all fun v => v.lt tol || v.eqv tol) then some x else rootIter b tol n x m

/-- The inverse fourth root of a matrix; none: it fails (R194). -/
def invRoot4 (b iters : Nat) (tol : Num) (a : Mat) : Option Mat :=
  if !pivotsOk b a then none
  else
    let fro := sqrt32 (dotFrom .zero (List.flatten a) (List.flatten a))
    let c := mul32 (.fin 2 0) fro
    let x := div32 .one (sqrt32 (sqrt32 c))
    let r := div32 .one c
    rootIter b tol iters (matOf b fun i j => mul32 x (delta i j)) (matOf b fun i j => mul32 (Mat.at_ a i j) r)

/-- One preconditioner block: header count and its four matrices, each with its bad elements (R188). -/
structure PBlock where
  skips : Nat
  hdrBad : Bool
  l : Mat
  s : Mat
  pl : Mat
  pr : Mat
  lBad : List (List Bool)
  sBad : List (List Bool)
  plBad : List (List Bool)
  prBad : List (List Bool)
deriving DecidableEq, Repr

/-- What a block's step leaves: the new block, the direction with its dependence, and whether the inverse root failed. -/
structure PStep where
  blk : PBlock
  dir : Mat
  dirBad : Nat → Nat → Bool
  failed : Bool

/-- An element of a matrix of flags. -/
def flagAt (m : List (List Bool)) (i j : Nat) : Bool := (m.getD i []).getD j false

/-- Some flag of a matrix is set. -/
def anyFlag (m : List (List Bool)) : Bool := m.any fun r => r.any id

/-- Every flag of a matrix set. -/
def allFlags (b : Nat) (v : Bool) : List (List Bool) := List.replicate b (List.replicate b v)

/-- Rule 0x5 for one block (R193, R194): gradient block `g`, block `m1`, and their bad elements. GᵀG is a product of its own, which
starts from +0 (DEDUCED, log 37). -/
def blockStep (gp : Group) (g m1 : Mat) (gBad mBad : List (List Bool)) (k : PBlock) : PStep :=
  let b := gp.side
  let b2 := v32 gp.b2
  let gt := Mat.tr b g
  let l1 := matOf b fun i j => dotFrom (mul32 b2 (Mat.at_ k.l i j)) (Mat.row g i) (Mat.row g j)
  let s1 := matOf b fun i j => add32 (mul32 b2 (Mat.at_ k.s i j)) (dotFrom .zero (Mat.row gt i) (Mat.row gt j))
  let rowBad := (List.range b).map fun i => (gBad.getD i []).any id
  let colBad := (List.range b).map fun j => (List.range b).any fun i => flagAt gBad i j
  let flags := fun (f : Nat → Nat → Bool) => (List.range b).map fun i => (List.range b).map fun j => f i j
  let lBad := flags fun i j => flagAt k.lBad i j || rowBad.getD i false || rowBad.getD j false
  let sBad := flags fun i j => flagAt k.sBad i j || colBad.getD i false || colBad.getD j false
  let due := (gp.tcount + 1).toNat % (max 1 gp.period) = 0
  let damp := v32 gp.damp
  let damped := fun (a : Mat) => matOf b fun i j => if i = j then add32 (Mat.at_ a i j) damp else Mat.at_ a i j
  let rs := if due then
      match invRoot4 b gp.iters (v32 gp.tol) (damped l1), invRoot4 b gp.iters (v32 gp.tol) (damped s1) with
      | some x, some y => some (x, y)
      | _, _ => none
    else none
  let stat := due && (anyFlag lBad || anyFlag sBad)
  let n : PBlock :=
    { skips := if due then (match rs with | some _ => 0 | none => min (k.skips + 1) 0xFFFF) else k.skips,
      hdrBad := k.hdrBad || stat, l := l1, s := s1, pl := (rs.map (·.1)).getD k.pl, pr := (rs.map (·.2)).getD k.pr,
      lBad := lBad, sBad := sBad, plBad := if stat then allFlags b true else if rs.isSome then allFlags b false else k.plBad,
      prBad := if stat then allFlags b true else if rs.isSome then allFlags b false else k.prBad }
  let anyM := anyFlag mBad
  { blk := n, dir := Mat.mul b n.pl (Mat.mul b m1 n.pr),
    dirBad := fun i j => anyM || (n.plBad.getD i []).any id || (List.range b).any (fun x => flagAt n.prBad x j),
    failed := due && rs.isNone }

/-- One element of a range as a unit reads it. -/
structure UElem where
  i : Nat
  w : Rd
  m : Rd
  v : Rd
  g : Rd
deriving DecidableEq, Repr

/-- A new value of an element's parameter and moments, each with its dependence on bad data. -/
structure UNew where
  i : Nat
  w : Cell
  m : Cell
  v : Cell
deriving DecidableEq, Repr

/-- The value of a moment as stored (R188, R191). -/
def momVal (g : Group) (p : Nat) : Num := if g.mfmt = 1 then Fmt.bf16.value p else v32 p

/-- A BF16 or FP32 result as written, with the random bits of R191. -/
def updPat (g : Group) (d : UpdDesc) (bf : Bool) (stage i : Nat) (x : Num) : Nat :=
  if bf then
    let seed := g.seed ^^^ mix64 (BitVec.ofNat 64 d.step.toNat)
    (Fmt.bf16.conv ((rndOf g.rnd).getD .rne) (srBits seed (BitVec.ofNat 16 d.group) stage (g.goff + i)) x).bits
  else f32 x

/-- The elements of a UPD's range as read (R183, R189). -/
def State.updElems (s : State) (j : UpdJob) : List UElem :=
  let d := updDescOf j.desc
  let g := groupOf j.entry
  (List.range d.count).map fun n =>
    let i := d.off + n
    { i := i, w := s.readAt j.ctx (g.from_ + 4 * i) 4, m := s.readAt j.ctx (g.from_ + g.offM + g.mb * i) g.mb,
      v := s.readAt j.ctx (g.from_ + g.offV + g.mb * i) g.mb,
      g := if (updK_ j).usesGrad then s.readAt j.ctx (d.grad + gradBytes d * n) (gradBytes d) else {} }

/-- The gradient of an element times its multiplier (R191). -/
def gradOf (j : UpdJob) (e : UElem) : Num :=
  let d := updDescOf j.desc
  mul32 (if d.gfmt = 1 then Fmt.bf16.value e.g.val else v32 e.g.val) (v32 j.gmul.toNat)

/-- The committed values of an element (R196). -/
def copyElem (g : Group) (e : UElem) : UNew :=
  { i := e.i, w := (v32 e.w.val, isBad e.w.err), m := (momVal g e.m.val, isBad e.m.err), v := (momVal g e.v.val, isBad e.v.err) }

/-- An element under the group's rule, with what each result depends on (R192, R333). -/
def ruleElem (j : UpdJob) (e : UElem) : UNew :=
  let k := updK_ j
  let g := groupOf j.entry
  let (w1, m1, v1) := k.elem (v32 e.w.val) (momVal g e.m.val) (momVal g e.v.val) (gradOf j e)
  let bw := isBad e.w.err
  let bg := k.usesGrad && (isBad e.g.err || j.gmulBad)
  let bm := isBad e.m.err || bg
  let bv := isBad e.v.err || (bg && (k.rule == 2 || k.rule == 5))
  let dep := match k.rule with
    | 1 | 3 => bw || bm
    | 2 => bw || bm || bv
    | _ => bw
  { i := e.i, w := (w1, dep), m := (m1, bm), v := (v1, bv) }

/-- The range is copied whole (R187, R196). -/
def copiesAll (j : UpdJob) (es : List UElem) : Bool :=
  let g := groupOf j.entry
  let pol := if g.rule = 5 && g.nanpol = 1 then 2 else g.nanpol
  j.curveBad || (pol = 2 && (updK_ j).usesGrad && es.any fun e => !(gradOf j e).isFin)

/-- Non-finite gradients of a range: a copied curve range reads no gradient (log 34). -/
def badGrads (j : UpdJob) (es : List UElem) : Nat :=
  if j.curveBad || !(updK_ j).usesGrad then 0 else (es.filter fun e => !(gradOf j e).isFin).length

/-- The blocks of a range under rule 0x5: block row and column (R188). -/
def updBlocks (g : Group) (d : UpdDesc) : List (Nat × Nat) :=
  let u := g.side * g.pcols
  let lo := d.off / u
  let hi := (d.off + d.count + u - 1) / u
  ((List.range (hi - lo)).map fun r => (List.range g.blockCols).map fun c => (lo + r, c)).flatten

/-- Address of a block in a half. -/
def blockAddr (g : Group) (base : Nat) (rc : Nat × Nat) : Nat := base + g.offP + (rc.1 * g.blockCols + rc.2) * g.blockBytes

/-- A matrix of a block, with its bad elements. -/
def State.readMat (s : State) (ctx addr b : Nat) : Mat × List (List Bool) :=
  let rd := (List.range b).map fun i => (List.range b).map fun j => s.readAt ctx (addr + 4 * (i * b + j)) 4
  (rd.map fun r => r.map fun x => v32 x.val, rd.map fun r => r.map fun x => isBad x.err)

/-- A block of the committed half. -/
def State.readBlock (s : State) (ctx : Nat) (g : Group) (rc : Nat × Nat) : PBlock :=
  let a := blockAddr g g.from_ rc
  let b := g.side
  let h := s.readAt ctx a 2
  let mat := fun n => s.readMat ctx (a + 64 + 4 * n * b * b) b
  { skips := h.val, hdrBad := isBad h.err, l := (mat 0).1, s := (mat 1).1, pl := (mat 2).1, pr := (mat 3).1,
    lBad := (mat 0).2, sBad := (mat 1).2, plBad := (mat 2).2, prBad := (mat 3).2 }

/-- The element writes of a block into the uncommitted half. -/
def blockWrites (g : Group) (rc : Nat × Nat) (k : PBlock) : List ElemWr :=
  let a := blockAddr g g.to_ rc
  let b := g.side
  let mat := fun (n : Nat) (m : Mat) (f : List (List Bool)) =>
    ((List.range b).map fun i => (List.range b).map fun j =>
      ({ addr := a + 64 + 4 * n * b * b + 4 * (i * b + j), half := 0, nibs := 8, pat := f32 (Mat.at_ m i j), bad := flagAt f i j }
        : ElemWr)).flatten
  { addr := a, half := 0, nibs := 128, pat := k.skips, bad := k.hdrBad } ::
    (mat 0 k.l k.lBad ++ mat 1 k.s k.sBad ++ mat 2 k.pl k.plBad ++ mat 3 k.pr k.prBad)

/-- What a run leaves. -/
structure UpdRun where
  elems : List UNew
  blocks : List ((Nat × Nat) × PBlock)
  skips : Nat
  wfb : Bool

/-- The place of a shard element in block (r, c) of the matrix view; none: outside the block. -/
def Group.shardAt (g : Group) (rc : Nat × Nat) (i j : Nat) : Option Nat :=
  let x := rc.1 * g.side + i
  let y := rc.2 * g.side + j
  if y < g.pcols && x * g.pcols + y < g.nelem then some (x * g.pcols + y) else none

/-- One block of rule 0x5 over a range (R193). -/
def blockRun (j : UpdJob) (es : List UElem) (ns : List UNew) (rc : Nat × Nat) (k : PBlock) : PStep :=
  let g := groupOf j.entry
  let d := updDescOf j.desc
  let b := g.side
  let idx := fun x y => (g.shardAt rc x y).map (· - d.off)
  let gv := fun x y => ((idx x y).bind (es[·]?)).map (gradOf j)
  let gb := fun x y => ((idx x y).bind (es[·]?)).map fun e => isBad e.g.err || j.gmulBad
  let mv := fun x y => ((idx x y).bind (ns[·]?)).map (·.m)
  let fl := fun (f : Nat → Nat → Option Bool) => (List.range b).map fun x => (List.range b).map fun y => (f x y).getD false
  blockStep g (matOf b fun x y => (gv x y).getD .zero) (matOf b fun x y => ((mv x y).map (·.1)).getD .zero)
    (fl gb) (fl fun x y => (mv x y).map (·.2)) k

/-- An element's parameter from the direction of its block (R193). -/
def dirElem (j : UpdJob) (rs : List ((Nat × Nat) × PStep)) (e : UNew) : UNew :=
  let g := groupOf j.entry
  let kk := updK_ j
  let x := e.i / g.pcols
  let y := e.i % g.pcols
  match rs.find? fun r => r.1 == (x / g.side, y / g.side) with
  | some r =>
    { e with w := (kk.step e.w.1 (fma32 kk.wd e.w.1 (Mat.at_ r.2.dir (x % g.side) (y % g.side))),
                   e.w.2 || r.2.dirBad (x % g.side) (y % g.side)) }
  | none => e

/-- A UPD's run over its range (R191 to R196). -/
def State.updRun (s : State) (j : UpdJob) (es : List UElem) : UpdRun :=
  let g := groupOf j.entry
  let d := updDescOf j.desc
  let copy := copiesAll j es
  let ns := es.map fun e =>
    if copy || (g.nanpol = 1 && (updK_ j).usesGrad && !(gradOf j e).isFin) then copyElem g e else ruleElem j e
  let bs := if g.rule = 5 then (updBlocks g d).map fun rc => (rc, s.readBlock j.ctx g rc) else []
  if g.runs = 5 && !copy then
    let rs := bs.map fun p => (p.1, blockRun j es ns p.1 p.2)
    { elems := ns.map (dirElem j rs), blocks := rs.map fun r => (r.1, r.2.blk), skips := (rs.filter (·.2.failed)).length,
      wfb := rs.any fun r => r.2.failed && g.skiplim ≠ 0 && decide (g.skiplim ≤ r.2.blk.skips) }
  else { elems := ns, blocks := bs, skips := 0, wfb := false }

/-- The element writes of a run: W, M, V, P and the working copy (R189, R196). -/
def updWrites (j : UpdJob) (r : UpdRun) : List ElemWr :=
  let g := groupOf j.entry
  let d := updDescOf j.desc
  let bf := g.mfmt = 1
  let mk := fun (a n p : Nat) (b : Bool) => ({ addr := a, half := 0, nibs := n, pat := p, bad := b } : ElemWr)
  r.elems.map (fun e => mk (g.to_ + 4 * e.i) 8 (f32 e.w.1) e.w.2) ++
  r.elems.map (fun e => mk (g.to_ + g.offM + g.mb * e.i) (2 * g.mb) (updPat g d bf 1 e.i e.m.1) e.m.2) ++
  r.elems.map (fun e => mk (g.to_ + g.offV + g.mb * e.i) (2 * g.mb) (updPat g d bf 2 e.i e.v.1) e.v.2) ++
  (r.blocks.map fun p => blockWrites g p.1 p.2).flatten ++
  if d.wcen then
    r.elems.map (fun e => mk (d.wcopy + wcBytes g * (e.i - d.off)) (2 * wcBytes g) (updPat g d (g.wcfmt = 1) 3 e.i e.w.1) e.w.2)
  else []

/-- The reads of the preconditioner blocks of a run: counts and matrices (R188, R193). -/
def State.blockReads (s : State) (j : UpdJob) : List Rd :=
  let g := groupOf j.entry
  if g.rule = 5 then
    ((updBlocks g (updDescOf j.desc)).map fun rc =>
      let a := blockAddr g g.from_ rc
      s.readAt j.ctx a 2 :: (List.range (4 * g.side * g.side)).map fun i => s.readAt j.ctx (a + 64 + 4 * i) 4).flatten
  else []

/-- What the reads of a run met: GMUL, the elements, the blocks (R333). -/
def State.updErrs (s : State) (j : UpdJob) (es : List UElem) : Errs :=
  errsOf (({ err := j.gmulErr, addr := (updDescOf j.desc).gmul } : Rd) :: (es.map fun e => [e.w, e.m, e.v, e.g]).flatten ++ s.blockReads j)

/-- Chunks of a descriptor (R178): 4,096 elements each, or whole blocks under the preconditioned rule. -/
def updChunks (j : UpdJob) : Nat :=
  let g := groupOf j.entry
  let d := updDescOf j.desc
  if g.runs = 5 then (updBlocks g d).length else (d.count + 4095) / 4096

/-- `s` with the counters of a run moved on (R202, R203). Unit-busy cycles are a free value (log 4). -/
def State.updCount (s : State) (j : UpdJob) (st nf skips poisoned : Nat) : State :=
  let n := (updDescOf j.desc).count
  let s := ((s.count (updK j.ctx 0x20) n).count (updK j.ctx 0x28) nf).count (updK j.ctx 0x30) skips
  let s := (s.count (stkK st 0x8000) n).count (stkK st 0x8010) (updChunks j)
  let s := (s.count (stkK st 0x8008) (Config.busyCycles s.draws).toNat).draw
  let s := s.count (stkK st 0x28) poisoned
  if poisoned = 0 then s else s.poisoned j.ctx

/-- `s` after the units of a base die have run a UPD, and the events it raises (R183 to R196, R333). -/
def State.updEnd (s : State) (c st : Nat) (pc : BitVec 14) (optag : W16) (j : UpdJob) : State × List W16 :=
  let d := updDescOf j.desc
  let es := s.updElems j
  let r := s.updRun j es
  let nf := badGrads j es
  let us := groupWrites (updWrites j r)
  let t := s.tookErrs c .upq pc optag j.ctx (s.updErrs j es)
  let t := (t.landAll j.ctx none us).1
  let t := (t.updCount j st nf r.skips (us.filter (·.poison)).length).touched j.ctx (j.gaddr + 96) 32
  let t := if r.wfb then t.setGroupWord j.ctx j.gaddr 12 (putBit (t.groupWord j.ctx j.gaddr 12) 61 true) else t
  let w14 := t.groupWord j.ctx j.gaddr 14
  (t.setGroupWord j.ctx j.gaddr 14 (putFld w14 0 40 (fld w14 0 40 + d.count)),
    (if nf = 0 then [] else [Code.UPD_NONFINITE_GRAD]) ++ (if j.curveBad then [Code.UPD_CURVE_INVALID] else [])
      ++ List.replicate r.skips Code.UPD_PRECOND_SKIP)

/-- UPD_COMPLETE (R183, R185): the last write of the n-th in-flight instruction of the UPQ, when it is a UPD, is in the stack. While
the update units are idle or unreachable nothing completes (R325, R337, R400). A gated cluster that holds the working copy or the table
wakes first (R429). -/
def execUpdComplete (c : Fin 96) (n : Nat) (s : State) : Host.Outcome State Fault Refusal :=
  match (s.queue c .upq).inflight[n]? with
  | none => .next s
  | some f =>
    match f.work with
    | .upd j =>
      match s.updStack j.ctx (groupOf j.entry) (updDescOf j.desc) with
      | none => .next s
      | some st =>
        if s.regBit (stkK st 0) 0 || s.regBit (stkK st 8) 1 || s.isDisabled (0x9000 + st) then .next s
        else
          let r := s.updEnd c st f.pc f.optag j
          .next (s.unlessGated (r.1.mapFlight c .upq f.id fun f => { f with work := .done, events := f.events ++ r.2 }))
    | _ => .next s

end Sys2Proof.Machine
end

