-- ==== Sys2Proof/Machine/Commit.lean ====
section
/-! DEFINITION. Step commits and evaluation snapshots: COMMIT, COMMIT_FLIP, SNAP, writes of the snapshot registers and of
UPD_STEP.CSTEP (06_backward_and_pipeline.md R172 to R175; 07_update_units.md R197 to R202; R268, R270, R403). -/

namespace Sys2Proof.Machine

/-- The step number of a COMMIT or KSTEP (R268, R269). -/
def State.stepField (s : State) (c : Nat) (q : Queue) (w : InstrWord) : BitVec 32 :=
  if w.f1 then BitVec.ofNat 32 (s.sreg c q (opnd w 35 32)).toNat else BitVec.ofNat 32 (opnd w 31 0)

/-- The bytes of piece `i` of a 512 KiB group table, cut at multiples of 64 KiB: each piece lies in one slot (R23 to R26). -/
def pieceOf (base i : Nat) : Nat × Nat :=
  (max base ((base / 0x10000 + i) * 0x10000), min (base + 0x80000) ((base / 0x10000 + i + 1) * 0x10000))

/-- The groups of a piece of the group table that have a listed byte. -/
def State.pieceGroups (s : State) (ctx base i : Nat) : List Nat :=
  let (lo, hi) := pieceOf base i
  if hi ≤ lo then []
  else match s.localPlace ctx lo with
    | .mem pa => ((s.mem.filter fun p => pa ≤ p.1 && p.1 < pa + (hi - lo)).map fun p => (p.1 - pa + (lo - base)) / 128).eraseDups
    | _ => []

/-- The groups whose entries may hold step `n`, ascending: an entry without listed bytes holds zeros, so that it concerns step 0
only. -/
def State.groupsAt (s : State) (ctx : Nat) (n : BitVec 32) : List Nat :=
  if n = 0 then List.range 4096
  else ((List.range 9).map (s.pieceGroups ctx (s.groupAddr ctx 0))).flatten

/-- What a reading of the whole group table touches: one unit of each piece. -/
def State.groupTable (s : State) (ctx : Nat) : List (Nat × Nat) :=
  (((List.range 9).map (pieceOf (s.groupAddr ctx 0))).filter fun p => p.1 < p.2).map fun p => (p.1, 64)

/-- An entry of the group table with its number. -/
def State.groupAt (s : State) (ctx i : Nat) : Group := groupOf (s.groupBits ctx i)

/-- The groups that a commit of step `n` flips (R197 step 3), ascending. -/
def State.flips (s : State) (ctx : Nat) (n : BitVec 32) : List Nat :=
  (s.groupsAt ctx n).filter fun i =>
    let g := s.groupAt ctx i
    g.nelem ≠ 0 && !g.froz && g.wstep == n && g.cstep != n

/-- `s` after an abort of step `n` (R199). -/
def State.abortStep (s : State) (ctx : Nat) (n : BitVec 32) : State :=
  ((s.groupsAt ctx n).filter fun i => (s.groupAt ctx i).wstep == n).foldl (fun s i =>
    let a := s.groupAddr ctx i
    let s := s.setGroupWord ctx a 14 (putFld (s.groupWord ctx a 14) 0 40 0)
    let s := s.setGroupWord ctx a 12 (putBit (s.groupWord ctx a 12) 61 false)
    s.setGroupWord ctx a 13 (putFld (s.groupWord ctx a 13) 32 32 (s.cstep ctx))) s

/-- A COMMIT whose own sequence is under way in a context. -/
def isOwnCommit (f : InFlight) : Bool :=
  match f.work with
  | .commit _ o _ => o
  | _ => false

/-- COMMIT with ABORT is refused (R199). -/
def State.abortRefused (s : State) (ctx : Nat) (n : BitVec 32) : Bool :=
  n != BitVec.ofNat 32 (s.cstep ctx) + 1 || s.updating ctx n || (s.groupsAt ctx n).any fun i => (s.groupAt ctx i).cstep == n

/-- The refusal of a COMMIT at issue (R197, R199). -/
def State.commitCheck (s : State) (c : Nat) (q : Queue) (w : InstrWord) : Option Ref :=
  let ctx := s.ctxOf c
  let n := s.stepField c q w
  let k := BitVec.ofNat 32 (s.cstep ctx)
  if w.f0 then need (!s.abortRefused ctx n) Code.UPD_STEP_ORDER else need (n == k || n == k + 1) Code.UPD_STEP_ORDER

/-- A COMMIT that issues: it aborts its step, or has nothing to do, or waits for another's commit, or starts the sequence (R197,
R199). -/
def State.commitIssue (s : State) (c : Nat) (q : Queue) (w : InstrWord) : Issued :=
  let ctx := s.ctxOf c
  let n := s.stepField c q w
  if w.f0 then { st := s.abortStep ctx n, events := [Code.UPD_STEP_ABORTED], step := n }
  else if n = BitVec.ofNat 32 (s.cstep ctx) then { st := s, step := n }
  else { st := s, work := .commit ctx (!s.committing ctx n) false, step := n }

/-- COMMIT (R197, R268). -/
def execCommit (c : Fin 96) (q : Queue) (w : InstrWord) (s : State) : Host.Outcome State Fault Refusal :=
  .next (s.runHead c q .commit w fun s =>
    (match s.commitCheck c q w with
      | some r => Verdict.refuseRef r
      | none => .issue (s.commitIssue c q w)).reading s (s.ctxOf c) (if w.f0 then s.groupTable (s.ctxOf c) else []))

/-- UPD_ERR of a commit that did not finish (R197, R198, R202). -/
def updErrWord (group : Nat) (n : BitVec 32) : W64 :=
  putFld (putFld (putFld (putBit 0 63 true) 48 12 group) 32 16 Code.UPD_COMMIT_INCOMPLETE.toNat) 0 32 n.toNat

/-- `s` with every COMMIT of step `n` of the context at the end of its wait: the one that ran the sequence with `err` and `events`,
the others with `join`. -/
def State.endCommits (s : State) (ctx : Nat) (n : BitVec 32) (err : Option W16) (events : List W16) (join : Option W16) : State :=
  ((s.inflightOf ctx).filter fun p => isCommitOf n p.2.2).foldl (fun s p =>
    s.mapFlight p.1 p.2.1 p.2.2.id fun f =>
      if isOwnCommit f then { f with work := .done, error := err, events := f.events ++ events }
      else { f with work := .done, error := join }) s

/-- `s` after a commit of step `n` that flips nothing more: UPD_ERR, and the COMMITs in flight end without their signals. -/
def State.commitFails (s : State) (ctx group : Nat) (n : BitVec 32) : State :=
  (s.first (updK ctx 0x18) (updErrWord group n)).endCommits ctx n (some Code.UPD_COMMIT_INCOMPLETE) [] (some Code.UPD_STEP_ORDER)

/-- The commit gate of a context is closed (R403). -/
def State.gateClosed (s : State) (ctx : Nat) : Bool := s.regBit (errK ctx 0) 62 && s.regBit (errK ctx 0) 63

/-- Snapshot register `i` of a context. -/
def snapK (ctx i : Nat) : Nat := pipeK ctx (8 + 8 * i)

/-- Snapshot `i` holds back a commit of step `n` that flips `gs` (R173). -/
def State.holds (s : State) (ctx : Nat) (n : BitVec 32) (gs : List Nat) (i : Nat) : Bool :=
  let v := s.reg (snapK ctx i)
  bitAt v 63 && fld v 0 32 < n.toNat && gs.any fun g => fld v 32 12 ≤ g && g ≤ fld v 44 12

/-- `s` with STALLING of each snapshot of a context as the commit of step `n` finds it (R173). -/
def State.stalling (s : State) (ctx : Nat) (n : BitVec 32) (gs : List Nat) : State :=
  (List.range 4).foldl (fun t i => t.setBit (snapK ctx i) 62 (s.holds ctx n gs i)) s

/-- The COMMIT of a context that runs its step's sequence. -/
def State.ownCommit (s : State) (ctx : Nat) : Option (Nat × Queue × InFlight) := (s.inflightOf ctx).find? fun p => isOwnCommit p.2.2

/-- A group that a commit would flip is short of elements (R197 step 3). -/
def State.shortGroup (s : State) (ctx : Nat) (gs : List Nat) : Option Nat :=
  gs.find? fun i => (s.groupAt ctx i).wcount ≠ (s.groupAt ctx i).nelem

/-- The commit of a context that waits for a snapshot now: steps 2 and 3 of R197 are behind it, and a snapshot pins a group that it is to
flip (R173). -/
def State.pinnedCommit (s : State) (ctx : Nat) : Option (Nat × Queue × InFlight) :=
  (s.ownCommit ctx).filter fun p =>
    let n := p.2.2.step
    let gs := s.flips ctx n
    !s.updating ctx n && !s.gateClosed ctx && (s.shortGroup ctx gs).isNone && (List.range 4).any (s.holds ctx n gs)

/-- Words 15, 13 and 12 of a group that a commit of step `n` flips (R195, R197 step 5). -/
def State.flipGroup (s : State) (ctx : Nat) (n : BitVec 32) (i : Nat) : State :=
  let g := s.groupAt ctx i
  let a := s.groupAddr ctx i
  let p := f32 (mul32 (v32 g.b1p) (v32 g.b1))
  let r := f32 (mul32 (v32 g.b2p) (v32 g.b2))
  let s := s.setGroupWord ctx a 15 (BitVec.ofNat 64 (p * 2 ^ 32 + r))
  let s := s.setGroupWord ctx a 13 (putFld (s.groupWord ctx a 13) 0 32 (g.tcount + 1).toNat)
  let w := s.groupWord ctx a 12
  let s := s.setGroupWord ctx a 12 (putFld (putBit (putBit w 63 (!g.cur)) 62 (g.fb || g.wfb)) 0 32 n.toNat)
  if g.wfb then s.count (updK ctx 0x38) 1 else s

/-- `s` after the write of word 15 of a group has failed with an uncorrectable error (R198): the unit is merged and poisoned (R332). -/
def State.flipFails (s : State) (ctx i : Nat) : State :=
  let g := s.groupAt ctx i
  let a := s.groupAddr ctx i + 120
  let v := f32 (mul32 (v32 g.b1p) (v32 g.b1)) * 2 ^ 32 + f32 (mul32 (v32 g.b2p) (v32 g.b2))
  match s.localPlace ctx a with
  | .mem pa => s.through none pa fun s => (s.writePart pa (leBytes 8 v) true).unitUncorr pa false
  | _ => s

/-- Step 5 of R197 over the groups to flip, up to one whose write fails. -/
def State.flipAll (s : State) (ctx : Nat) (n : BitVec 32) (failAt : Option Nat) : List Nat → State × Option Nat × List W16
  | [] => (s, none, [])
  | i :: r =>
    if failAt = some i then (s.flipFails ctx i, some i, [])
    else
      let e := if (s.groupAt ctx i).wfb then [Code.UPD_FALLBACK] else []
      let t := (s.flipGroup ctx n i).flipAll ctx n failAt r
      (t.1, t.2.1, e ++ t.2.2)

/-- The events of a stopped flip reach the COMMIT too. -/
def State.flipEnd (s : State) (ctx : Nat) (n : BitVec 32) (failed : Option Nat) (events : List W16) : State :=
  match failed with
  | some g =>
    ((s.setBit (updK ctx 0x10) 30 true).first (updK ctx 0x18) (updErrWord g n)).endCommits ctx n
      (some Code.UPD_COMMIT_INCOMPLETE) events (some Code.UPD_STEP_ORDER)
  | none =>
    ((s.setFld (updK ctx 0x10) 32 32 n.toNat).setBit (updK ctx 0x10) 30 false).endCommits ctx n none events none

/-- `s` with the COMMIT that runs the sequence of step `n` waiting for a snapshot; it counts once (R173). -/
def State.snapWait (s : State) (ctx : Nat) (p : Nat × Queue × InFlight) : State :=
  match p.2.2.work with
  | .commit x o false =>
    (s.count (pipeK ctx 0x30) 1).mapFlight p.1 p.2.1 p.2.2.id fun f => { f with work := .commit x o true }
  | _ => s

/-- `s` with the snapshot registers of a context as the waits of its commits make them now: STALLING, and PIPE_SNAPWAITS for a commit that
has begun to wait (R173). -/
def State.showStalls (s : State) (ctx : Nat) : State :=
  match s.pinnedCommit ctx with
  | some p => (s.stalling ctx p.2.2.step (s.flips ctx p.2.2.step)).snapWait ctx p
  | none => s.stalling ctx 0 []

/-- `s` after the sequence of step `n` has run, which the COMMIT `p` performs (R197 steps 3 to 6, R403). -/
def State.commitRun (s : State) (ctx : Nat) (n : BitVec 32) (failAt : Option Nat) (p : Nat × Queue × InFlight) : State :=
  if s.gateClosed ctx then s.commitFails ctx 0 n
  else
    let gs := s.flips ctx n
    match s.shortGroup ctx gs with
    | some i => s.commitFails ctx i n
    | none =>
      let t := s.stalling ctx n gs
      if (List.range 4).any (s.holds ctx n gs) then t.snapWait ctx p
      else
        let r := t.flipAll ctx n failAt gs
        r.1.flipEnd ctx n r.2.1 r.2.2

/-- COMMIT_FLIP (R197 steps 2 to 6, R198, R403), once the gated clusters that hold the group table are awake (R429). `failAt`: the group whose
write meets an uncorrectable memory error. -/
def execCommitFlip (ctx : Fin 16) (failAt : Option Nat) (s : State) : Host.Outcome State Fault Refusal :=
  match s.ownCommit ctx with
  | none => .next s
  | some p =>
    let n := p.2.2.step
    if s.updating ctx n then .next s
    else .next (s.unlessGated ((s.touchedAll ctx (s.groupTable ctx)).commitRun ctx n failAt p))

/-- `s` after a write of snapshot register `i` of a context (R172, R174). -/
def State.snapWrite (s : State) (ctx i : Nat) (v : W64) : State :=
  let k := snapK ctx i
  let s := if s.regBit k 63 then s else s.setFld k 32 24 (fld v 32 24)
  if bitAt v 60 then (s.setBit k 63 false).setBit k 62 false
  else if bitAt v 61 && !s.regBit k 63 && s.regFld k 32 12 ≤ s.regFld k 44 12 then
    (s.setBit k 63 true).setFld k 0 32 (s.cstep ctx)
  else s

/-- The fields of a SNAP as a control-space write (R270). -/
def snapValue (w : InstrWord) : W64 :=
  putBit (putBit (putFld (putFld 0 44 12 (opnd w 55 44)) 32 12 (opnd w 43 32)) 61 w.f0) 60 w.f1

/-- SNAP (R270). -/
def execSnap (c : Fin 96) (q : Queue) (w : InstrWord) (s : State) : Host.Outcome State Fault Refusal :=
  .next (s.runHead c q .snap w fun s => .issue { st := s.snapWrite (s.ctxOf c) (opnd w 63 62) (snapValue w) })

/-- The context whose bank of a banked register block an accessing context reaches (R11, R177): its own at bank 0, any for
context 0. -/
def bankFor (ctx bank : Nat) : Option Nat := if ctx = 0 then some bank else if bank = 0 then some ctx else none

/-- The global address of a control-space offset. -/
def ctlAddr (k : Nat) : W64 := BitVec.ofNat 64 (0x8000000000000000 + k)

/-- `s` after a context's write of a register of a bank: performed, or ignored and logged (R11). -/
def State.bankWrite (s : State) (ctx bank k : Nat) (f : Nat → State) : State :=
  match bankFor ctx bank with
  | some b => f b
  | none => s.violation ctx (ctlAddr k)

/-- PIPE_SNAP_ARM (R172). -/
def execPipeSnapArm (ctx bank : Fin 16) (n : Fin 4) (v : W64) (s : State) : Host.Outcome State Fault Refusal :=
  .next (s.bankWrite ctx bank (snapK bank n) fun b => s.snapWrite b n v)

/-- PIPE_SNAP_DONE (R174). -/
def execPipeSnapDone (ctx bank : Fin 16) (n : Fin 4) (v : W64) (s : State) : Host.Outcome State Fault Refusal :=
  .next (s.bankWrite ctx bank (snapK bank n) fun b => s.snapWrite b n v)

/-- `s` after a write of UPD_STEP, ignored while a UPD or COMMIT of the context is in flight (R202). -/
def State.cstepWrite (s : State) (ctx : Nat) (v : W64) : State :=
  if (s.inflightOf ctx).any fun p => p.2.2.op == .upd || p.2.2.op == .commit then s
  else s.setFld (updK ctx 0x10) 32 32 (fld v 32 32)

/-- UPD_STEP_CSTEP_WRITE (R202). -/
def execUpdStepCstepWrite (ctx bank : Fin 16) (v : W64) (s : State) : Host.Outcome State Fault Refusal :=
  .next (s.bankWrite ctx bank (updK bank 0x10) fun b => s.cstepWrite b v)

end Sys2Proof.Machine
end

