-- ==== Sys2Proof/Machine/Access.lean ====
section
/-! DEFINITION. Where a control-space access of a context leads: the rights and the virtual instance numbers of R11, R34 to R36 and of each
block's chapter. -/

namespace Sys2Proof.Machine

/-- Where a control-space access leads. -/
inductive Access where
  /-- not performed: ADDR_INVALID (R34, R35) -/
  | invalid
  /-- outside the context's binding: no effect, reads 0, logged (R11) -/
  | outside
  /-- a block that does not answer: reads 0, ignores writes (R36, R400) -/
  | quiet
  /-- offset `o` of a block -/
  | at_ (b : Blk) (o : Nat)
deriving DecidableEq, Repr

/-- The control-space offset of offset `o` of a block. -/
def Blk.key (b : Blk) (o : Nat) : Nat :=
  match b with
  | .pkg => pkgK o
  | .xrd => 0x10000 + o
  | .cfg => cfgK o
  | .mgt => mgtK o
  | .bind => 0x100000 + o
  | .die d => dieK d o
  | .clu g => cluK g o
  | .core c => coreK c o
  | .stk st => stkK st o
  | .quay qy => quayK qy o

/-- DIE offset `o` lies in a bank with one copy per context (R155, R177, R202, R375, R407). FAB_QPBASE and FAB_QPCMD act in context
0's bank only; no register stands at their offsets in the others (R375). -/
def bankedOff (o : Nat) : Bool := 0x300000 ≤ o && o < 0x350000 && o % 0x10000 < 0x1000

/-- Where context `ctx` reaches offset `o` of a block, instance numbers as the context names them. A block that R34 gives to context 0 alone
is outside the binding of contexts 1 to 15 at every offset, occupied by a register or not; CFG and the upper half of XRD belong to every
context, so that an empty offset there reads 0 and is not logged (DEDUCED, log 85). -/
def State.accessAt (s : State) (ctx : Nat) (b : Blk) (o : Nat) : Access :=
  let root : Access := if ctx = 0 then .at_ b o else .outside
  match b with
  | .pkg => if o = 0 || o = 0x100 then .at_ b o else root
  | .xrd =>
    if 0x2000 ≤ o then .at_ b o
    else match s.lineOf ctx (o / 0x100) with
      | some l => .at_ .xrd (0x100 * l + o % 0x100)
      | none => .outside
  | .cfg => .at_ b o
  | .mgt => if o = 0x20 || o = 0x28 then .at_ b o else root
  | .bind => root
  | .die _ =>
    if bankedOff o then
      match bankFor ctx (o % 0x10000 / 0x100) with
      | some k => .at_ (.die 0) (o / 0x10000 * 0x10000 + 0x100 * k + o % 0x100)
      | none => .outside
    else root
  | .clu v =>
    match s.cluOf ctx v with
    | some g => if s.cluUp g then .at_ (.clu g) o else .quiet
    | none => .outside
  | .core v =>
    match s.coreOf ctx v with
    | some c => if s.cluUp (c / 6) then .at_ (.core c) o else .quiet
    | none => .outside
  | .stk _ => root
  | .quay _ => root

/-- Where context `ctx` reaches a global address in control space by an access of `width` bytes (R19, R34, R35). -/
def State.access (s : State) (ctx : Nat) (addr : W64) (width : Nat) : Access :=
  let k := addr.toNat % 0x400000000000
  if addr.toNat / 0x400000000000 ≠ 0x20000 || width ≠ 8 || k % 8 ≠ 0 then .invalid
  else match blockOf k with
    | none => .invalid
    | some (b, o) => s.accessAt ctx b o

/-- `s` after an access that reaches a register, or is turned away as R11, R34 and R35 say. -/
def State.accessed (s : State) (ctx : Nat) (addr : W64) (a : Access) (f : Blk → Nat → State) : State :=
  match a with
  | .invalid => s.send (.addrInvalid ctx addr)
  | .outside => s.violation ctx addr
  | .quiet => s
  | .at_ b o => f b o

end Sys2Proof.Machine
end

