-- ==== Sys2Proof/Machine/Control.lean ====
section
/-! DEFINITION. Starting and stopping queues, image loads, cluster gating, and control-space writes of the CORE and CLU blocks that have
behaviour of their own (09_queues_and_program_images.md R232 to R241; R65, R176, R291, R429). -/

namespace Sys2Proof.Machine

/-- `s` after a context's access to the CORE block of a core it names: an unbound core is a binding violation, and a core of an absent or
disabled cluster reads 0 and ignores writes (R11, R34, R400). -/
def State.atCore (s : State) (ctx vc off : Nat) (f : Nat → State) : State :=
  match s.coreOf ctx vc with
  | none => s.violation ctx (ctlAddr (coreK vc off))
  | some c => if s.cluUp (c / 6) then f c else s

/-- `s` after a context's access to the CLU block of a cluster it names. -/
def State.atClu (s : State) (ctx vg off : Nat) (f : Nat → State) : State :=
  match s.cluOf ctx vg with
  | none => s.violation ctx (ctlAddr (cluK vg off))
  | some g => if s.cluUp g then f g else s

/-- `s` with an action that needs cluster `g` awake taken, or waiting for its wake time (R429). -/
def State.awake (s : State) (g : Nat) (i : Instr) (f : State → State) : State :=
  if s.gate g = 0 then f s else { s with waking := tset s.waking g (tgetD s.waking g [] ++ [i]) }

/-- What an action leads to whose accesses have woken clusters: `t`, or `s` with the action waiting for the first of them (R429). -/
def State.orWait (s : State) (i : Instr) (t : State) : State :=
  match s.woken t with
  | [] => t
  | g :: _ =>
    let u := s.rouse (s.woken t)
    { u with waking := tset u.waking g (tgetD u.waking g [] ++ [i]) }

/-- The queues of a mask (R225). -/
def maskQueues (m : BitVec 6) : List Queue := allQueues.filter fun q => m.getLsbD (qnum q)

/-- The cores of a cluster in a mask. -/
def maskCores (g : Nat) (m : BitVec 6) : List Nat := ((List.range 6).filter fun k => m.getLsbD k).map (6 * g + ·)

/-- An engine of core `c` is disabled (R395, R400). -/
def State.engineOff (s : State) (c : Nat) : Bool := [1, 2, 3, 4, 5].any fun e => s.disabled.contains (srcOf e c)

/-- START of queues of a core; an absent core starts nothing (R237, R400). With an engine disabled the queues stay STOPPED: START acts on
those that a load has made READY since (R236, R400; DEDUCED, log 92). -/
def State.startMask (s : State) (c : Nat) (m : BitVec 6) : State :=
  if !s.coreUp c then s
  else s.startQueues c ((maskQueues m).filter fun q => !s.engineOff c || (s.queue c q).mode == .ready)

/-- `s` with every queue of a list of cores started. -/
def State.startCores (s : State) (cs : List Nat) : State := cs.foldl (fun s c => s.startMask c 0x3F) s

/-- QUEUE_START (R237). -/
def execQueueStart (ctx : Fin 16) (vc : Fin 96) (mask : BitVec 6) (s : State) : Host.Outcome State Fault Refusal :=
  .next (s.atCore ctx vc 0 fun c => s.awake (c / 6) (.queueStart ctx vc mask) fun s => s.startMask c mask)

/-- QUEUE_STOP (R237). -/
def execQueueStop (ctx : Fin 16) (vc : Fin 96) (mask : BitVec 6) (s : State) : Host.Outcome State Fault Refusal :=
  .next (s.atCore ctx vc 0 fun c => s.stopQueues c (maskQueues mask))

/-- CLUSTER_START (R237). -/
def execClusterStart (ctx vg : Fin 16) (mask : BitVec 6) (s : State) : Host.Outcome State Fault Refusal :=
  .next (s.atClu ctx vg 8 fun g => s.awake g (.clusterStart ctx vg mask) fun s => s.startCores (maskCores g mask))

/-- CLUSTER_STOP (R237). -/
def execClusterStop (ctx vg : Fin 16) (mask : BitVec 6) (s : State) : Host.Outcome State Fault Refusal :=
  .next (s.atClu ctx vg 8 fun g => s.stopCores (maskCores g mask))

/-- PC_WRITE (R237): the queue is READY, STOPPED, HALTED or FAULTED. -/
def QState.setPc (x : QState) (v : W64) : QState :=
  match x.mode with
  | .ready | .stopped | .halted | .faulted =>
    { x with mode := .stopped, wcause := .none, pc := BitVec.ofNat 14 v.toNat, loops := [], fetched := none }
  | _ => x

/-- PC_WRITE (R237, R240). -/
def execPcWrite (ctx : Fin 16) (vc : Fin 96) (q : Queue) (v : W64) (s : State) : Host.Outcome State Fault Refusal :=
  .next (s.atCore ctx vc (0x100 + 0x100 * qnum q) fun c => s.setQueue c q ((s.queue c q).setPc v))

/-- SCALAR_REGISTER_WRITE (R232). -/
def execScalarRegisterWrite (ctx : Fin 16) (vc : Fin 96) (q : Queue) (i : Fin 16) (v : W64) (s : State) :
    Host.Outcome State Fault Refusal :=
  .next (s.atCore ctx vc (0x180 + 0x100 * qnum q + 8 * i) fun c => if (s.queue c q).stopped then s.setSreg c q i v else s)

/-- The queue of seed register `i` (R65). -/
def seedQueue (i : Nat) : Queue := (allQueues[i]?).getD .mqf

/-- CORE_SEED_WRITE (R65). -/
def execCoreSeedWrite (ctx : Fin 16) (vc : Fin 96) (i : Fin 5) (v : W64) (s : State) : Host.Outcome State Fault Refusal :=
  .next (s.atCore ctx vc (0x800 + 8 * i) fun c =>
    if (s.queue c (seedQueue i)).stopped then s.setReg (coreK c (0x800 + 8 * i)) v else s)

/-- DTBASE_WRITE (R291). -/
def execDtbaseWrite (ctx : Fin 16) (vc : Fin 96) (v : W64) (s : State) : Host.Outcome State Fault Refusal :=
  .next (s.atCore ctx vc 0xC00 fun c => if s.coreStopped c then s.setFld (coreK c 0xC00) 14 8 (fld v 14 8) else s)

/-- `s` after a write of CORE_PICK (R164, R176): the alternate mode starts again. -/
def State.pickWrite (s : State) (c : Nat) (v : W64) : State :=
  let k := coreK c 0xA00
  let t := (s.setFld k 16 16 (fld v 16 16)).setFld k 0 2 (fld v 0 2)
  { t with lastLoser := tdel t.lastLoser c }

/-- PICK_WRITE (R176). -/
def execPickWrite (ctx : Fin 16) (vc : Fin 96) (v : W64) (s : State) : Host.Outcome State Fault Refusal :=
  .next (s.atCore ctx vc 0xA00 fun c => s.pickWrite c v)

/-- A write of `n` bytes at a local offset lies in one window (R25, R26). -/
def oneWindow (o n : Nat) : Bool :=
  match regionOf o with
  | some 2 => o % 0x400000 + n ≤ 0x400000
  | some 3 => o % 0x40000 + n ≤ 0x30000
  | _ => false

/-- `s` after window bytes have reached a core: they land while it is stopped (R26, R236). A discarded command adds 1 to CORE_WINDROP
whatever its length (DESIGN CHOICE, log 75). -/
def State.windowLand (s : State) (pa : Nat) (bs : List Byte) : State :=
  let c := windowCore pa
  if s.coreStopped c then s.writeBytes pa bs else s.count (coreK c 0x28) 1

/-- `s` after a write of bytes at a local address through a window (R26, R27, R236, R429). -/
def State.windowWrite (s : State) (ctx : Fin 16) (addr : W64) (bs : List Byte) : State :=
  if bs = [] then s
  else match s.place ctx addr.toNat with
    | .mem pa =>
      if !oneWindow (offOf addr.toNat) bs.length then s.send (.addrInvalid ctx addr)
      else if s.coreUp (windowCore pa) then s.awake (windowCore pa / 6) (.windowWrite ctx addr bs) fun s => s.windowLand pa bs
      else s
    | .miss => s.missed ctx addr.toNat
    | .bad => s.send (.addrInvalid ctx addr)
    | _ => s

/-- WINDOW_WRITE (R236). -/
def execWindowWrite (ctx : Fin 16) (addr : W64) (bytes : List Byte) (s : State) : Host.Outcome State Fault Refusal :=
  .next (s.windowWrite ctx addr bytes)

/-- A little-endian field of image bytes. -/
def imgFld (h : List Byte) (o n : Nat) : Nat := leNat ((h.drop o).take n)

/-- Bytes of an image field are not all 0. -/
def imgNz (h : List Byte) (o n : Nat) : Bool := imgFld h o n != 0

/-- NSEC and CORE_MASK of an image (R235). -/
def imgNsec (h : List Byte) : Nat := imgFld h 6 2
def imgMask (h : List Byte) : BitVec 6 := BitVec.ofNat 6 (imgFld h 8 1)

/-- The first violated check of a list: code, section, detail. -/
abbrev ImgRes := Option (W16 × Nat × Nat)

/-- A check with its detail code. -/
def imgNeed (ok : Bool) (sec det : Nat) : ImgRes := if ok then none else some (Code.IMAGE_INVALID, sec, det)

/-- Header checks in offset order (R235, R236). -/
def imgHeader (h : List Byte) : ImgRes :=
  [ imgNeed (imgFld h 0 4 == 0x46495A45) 0xFFFF 0x01, imgNeed (imgFld h 4 2 == 1) 0xFFFF 0x02,
    imgNeed (imgNsec h ≤ 1024) 0xFFFF 0x0C, imgNeed (imgFld h 8 1 < 64) 0xFFFF 0x03, imgNeed (imgFld h 9 1 < 2) 0xFFFF 0x03,
    imgNeed (!imgNz h 0xA 6) 0xFFFF 0x03, imgNeed (!imgNz h 0x18 40) 0xFFFF 0x03 ].findSome? id

/-- The checks of core table entry `k` (R235, R236). -/
def imgCore (h : List Byte) (k : Nat) : ImgRes :=
  let o := 0x40 + 32 * k
  if !(imgMask h).getLsbD k then none
  else
    [ imgNeed (imgFld h o 1 < 64) 0xFFFF 0x03, imgNeed (!imgNz h (o + 2) 2) 0xFFFF 0x03,
      imgNeed ((List.range 6).all fun q => !(imgFld h (o + 1) 1).testBit q || imgFld h (o + 4 + 2 * q) 2 < 12288) 0xFFFF 0x07,
      imgNeed (!imgNz h (o + 0x10) 16) 0xFFFF 0x03 ].findSome? id

/-- A section entry (R235). -/
structure ImgSec where
  type : Nat
  core : Nat
  dst : Nat
  len : Nat
  src : Nat
  crc : Nat
deriving DecidableEq, Repr

/-- Section entry `i`. -/
def imgSec (h : List Byte) (i : Nat) : ImgSec :=
  let o := 0x100 + 32 * i
  { type := imgFld h o 1, core := imgFld h (o + 1) 1, dst := imgFld h (o + 8) 4, len := imgFld h (o + 0xC) 4,
    src := imgFld h (o + 0x10) 8, crc := imgFld h (o + 0x18) 4 }

/-- The checks of section entry `i` (R235, R236). -/
def imgSection (h : List Byte) (i : Nat) : ImgRes :=
  let o := 0x100 + 32 * i
  let x := imgSec h i
  let a := if x.type = 0 then 16 else 64
  let top := if x.type = 0 then 0x30000 else 0x400000
  [ imgNeed (x.type ≤ 2) i 0x04, imgNeed (x.core < 6 && (imgMask h).getLsbD x.core) i 0x06, imgNeed (!imgNz h (o + 2) 6) i 0x03,
    imgNeed (x.dst % a == 0 && x.len % a == 0 && x.dst + x.len ≤ top) i 0x05,
    imgNeed (x.type == 2 || x.src + x.len ≤ imgFld h 0x10 8) i 0x05, imgNeed (!imgNz h (o + 0x1C) 4) i 0x03 ].findSome? id

/-- Step 2 of R236. -/
def imgChecks (h : List Byte) : ImgRes :=
  (imgHeader h).or (((List.range 6).findSome? (imgCore h)).or ((List.range (imgNsec h)).findSome? (imgSection h)))

/-- The engines that core `k` of an image requires (R236): bits 0 MXA to 4 STM. -/
def imgEngines (h : List Byte) (k : Nat) : Nat :=
  let o := 0x40 + 32 * k
  let m := imgFld h (o + 1) 1
  imgFld h o 1 ||| (if m % 4 = 0 then 0 else 3)

/-- Step 3 of R236: every loaded core and required engine is there. -/
def State.imgTargets (s : State) (g : Nat) (h : List Byte) : ImgRes :=
  if (List.range 6).all fun k => !(imgMask h).getLsbD k ||
      (s.coreUp (6 * g + k) && (List.range 5).all fun e =>
        !(imgEngines h k).testBit e || !s.disabled.contains (srcOf (e + 1) (6 * g + k)))
  then none else some (Code.IMAGE_TARGET_ABSENT, 0xFFFF, 0x09)

/-- `n` image bytes at a local address of a context, each unit translated on its own (R32); none: the read fails, under R27, with a bad
unit (R236, R333), or in a reserved range (R23; DESIGN CHOICE, log 86). -/
def State.imgRead (s : State) (ctx addr n : Nat) : Option (List Byte) :=
  let r := s.tableRead ctx addr n
  if (s.badPlace ctx (unitsOf addr n)).isSome || r.tag ≠ .good then none else some r.data

/-- `s` with the end of a load recorded in CLU_IMG_STATUS, and reported when its code is not 0 (R236, R241), with the address of the bad unit
of the image that ended it (R392, R393). -/
def State.imgEnd (s : State) (ctx g : Nat) (busy : Bool) (r : W16 × Nat × Nat) (bad : Nat := 0) : State :=
  let k := cluK g 0x10
  let v := putBit (putBit (s.reg k) 63 busy) 62 true
  let v := putFld (putFld (putFld v 32 16 r.1.toNat) 8 16 r.2.1) 0 8 r.2.2
  let t := s.setReg k v
  if r.1 = 0 then t else t.report 0x05 r.1 (srcOf 0x7 g) { context := ctx, addr := BitVec.ofNat 64 bad, detail := v }

/-- `s` with every queue of a core as step 4 of R236 leaves it. -/
def State.imgReset (s : State) (c : Nat) : State :=
  let s := allQueues.foldl (fun s q =>
    let t := (s.setQueue c q { lost := (s.queue c q).lost }).clearReg (qK c q 8)
    (List.range 16).foldl (fun t i => t.clearReg (qK c q (0x80 + 8 * i))) (t.clearReg (qK c q 0x10))) s
  ((List.range 5).foldl (fun s i => s.clearReg (coreK c (0x800 + 8 * i))) s |>.clearReg (coreK c 0x10)).clearReg (coreK c 0x18)

/-- The ranges of an image that are read before its checks: header and core table, then the section table (R236 step 1). -/
def State.imgRanges (s : State) (ctx base : Nat) : List (Nat × Nat) :=
  match s.imgRead ctx base 0x100 with
  | some h => [(base, 0x100), (base + 0x100, if imgNsec h ≤ 1024 then 32 * imgNsec h else 0)]
  | none => [(base, 0x100)]

/-- The header, core table and section table of an image; none: a read fails. -/
def State.imgHead (s : State) (ctx base : Nat) : Option (List Byte) :=
  (s.imgRead ctx base 0x100).bind fun h =>
    if imgNsec h ≤ 1024 then (s.imgRead ctx (base + 0x100) (32 * imgNsec h)).map fun t => h ++ t else some h

/-- The bad unit of the image ranges that a load reads at its start; 0 when none is bad. -/
def State.imgHeadBad (s : State) (ctx base : Nat) : Nat :=
  ((s.imgRanges ctx base).findSome? fun r =>
    if (s.badPlace ctx (unitsOf r.1 r.2)).isNone && (s.tableRead ctx r.1 r.2).tag != .good then some (s.firstBadIn ctx r.1 r.2)
    else none).getD 0

/-- `s` after steps 1 to 4 of R236 with the image at `base`, less what its reads wake and log. -/
def State.imgOpen (s : State) (ctx g base : Nat) : State :=
  match s.imgHead ctx base with
  | none => s.imgEnd ctx g false (Code.IMAGE_READ_FAULT, 0xFFFF, 0x0B) (s.imgHeadBad ctx base)
  | some h =>
    if (maskCores g (imgMask h)).any fun c => !s.coreStopped c then
      s.imgEnd ctx g false (Code.IMAGE_BUSY, 0xFFFF, 0x0A)
    else match (imgChecks h).or (s.imgTargets g h) with
      | some r => s.imgEnd ctx g false r
      | none =>
        let t := (maskCores g (imgMask h)).foldl State.imgReset s
        { t.setBit (cluK g 0x10) 63 true with loads := tset t.loads g { ctx := ctx, base := base, head := h } }

/-- `s` after LOAD in cluster `g` (R236 steps 1 to 4): what is read first wakes gated clusters, and logs what R27 logs. -/
def State.imageLoad (s : State) (ctx g : Nat) : State :=
  let base := s.regFld (cluK g 0) 6 40 * 64
  if (tget s.loads g).isSome then s.imgEnd ctx g true (Code.IMAGE_BUSY, 0xFFFF, 0x0A)
  else (s.touchedAll ctx (s.imgRanges ctx base)).imgOpen ctx g base

/-- `s` after LOAD `i` in cluster `g`, once that cluster and those that hold the image are awake (R236, R429). -/
def State.loadAwake (s : State) (ctx g : Nat) (i : Instr) : State := s.awake g i fun s => s.orWait i (s.imageLoad ctx g)

/-- IMAGE_LOAD (R236). -/
def execImageLoad (ctx vg : Fin 16) (s : State) : Host.Outcome State Fault Refusal :=
  .next (s.atClu ctx vg 8 fun g => s.loadAwake ctx g (.imageLoad ctx vg))

/-- `s` after the read of a section's piece for core `c` has failed, and the bad unit, 0 when none is bad: it is recorded in CORE_MEM_ERR
(R333; the loader has no queue, so that QUEUE, PC and OP_TAG are 0: DESIGN CHOICE, log 89). -/
def State.imgBad (s : State) (ctx c addr n : Nat) : State × Nat :=
  if (s.badPlace ctx (unitsOf addr n)).isSome then (s, 0)
  else
    let kind := if (s.tableRead ctx addr n).tag = .mismatch then 1 else 0
    (s.memErr c .mqf kind 0 0 (s.firstBadIn ctx addr n), s.firstBadIn ctx addr n)

/-- `s` after the bytes of a section have passed to core `c`, piece by piece; the bytes passed so far, and the bad unit of a read that has
failed (R236). -/
def State.imgCopy (s : State) (ctx c src pa piece : Nat) : Nat → State × List Byte × Option Nat
  | 0 => (s, [], none)
  | n + 1 =>
    let t := s.touched ctx src piece
    match s.imgRead ctx src piece with
    | none => ((t.imgBad ctx c src piece).1, [], some (t.imgBad ctx c src piece).2)
    | some bs =>
      let r := (t.writeBytes pa bs).imgCopy ctx c (src + piece) (pa + piece) piece n
      (r.1, bs ++ r.2.1, r.2.2)

/-- `s` after section `i` of a load, and how the load ends if it ends there, with the bad unit that ended it. -/
def State.imgSectionRun (s : State) (g : Nat) (l : Load) (i : Nat) : State × ImgRes × Nat :=
  let x := imgSec l.head i
  let c := 6 * g + x.core
  let pa := if x.type = 0 then imemPa c x.dst else chamPa c x.dst
  if x.type = 2 then (s.writeBytes pa (zeros x.len), none, 0)
  else
    let piece := if x.type = 0 then 16 else 64
    let r := s.imgCopy l.ctx c (l.base + x.src) pa piece (x.len / piece)
    match r.2.2 with
    | some bad => (r.1, some (Code.IMAGE_READ_FAULT, i, 0x0B), bad)
    | none => if crc32 r.2.1 ≠ x.crc then (r.1, some (Code.IMAGE_CRC, i, 0x08), 0) else (r.1, none, 0)

/-- `s` after the sections of a load from index `i` on. -/
def State.imgSections (s : State) (g : Nat) (l : Load) : Nat → Nat → State × ImgRes × Nat
  | _, 0 => (s, none, 0)
  | i, n + 1 =>
    match s.imgSectionRun g l i with
    | (t, none, _) => t.imgSections g l (i + 1) n
    | r => r

/-- `s` with the queues of a loaded core given their entry PCs (R236 step 6). -/
def State.imgReady (s : State) (g : Nat) (h : List Byte) (k : Nat) : State :=
  let o := 0x40 + 32 * k
  (allQueues.filter fun q => (imgFld h (o + 1) 1).testBit (qnum q)).foldl (fun s q =>
    s.setQueue (6 * g + k) q
      { s.queue (6 * g + k) q with mode := if (imgFld h 9 1).testBit 0 then .running else .ready,
                                   pc := BitVec.ofNat 14 (imgFld h (o + 4 + 2 * qnum q) 2) }) s

/-- `s` after steps 5 and 6 of R236 for the load `l` in cluster `g`. A load that succeeds leaves SECTION, then meaningless (R241), 0 (DESIGN
CHOICE, log 53). -/
def State.imgFinish (s : State) (g : Nat) (l : Load) : State :=
  let r := { s.wakeFor (chamPa (6 * g) 0) with loads := tdel s.loads g }.imgSections g l 0 (imgNsec l.head)
  match r.2.1 with
  | some e => r.1.imgEnd l.ctx g false e r.2.2
  | none =>
    let t := ((List.range 6).filter fun k => (imgMask l.head).getLsbD k).foldl (fun s k => s.imgReady g l.head k) r.1
    t.imgEnd l.ctx g false (0, 0, 0)

/-- IMAGE_LOAD_END (R236 steps 5 and 6): it comes again once the clusters are awake that hold the image or take it (R429). -/
def execImageLoadEnd (g : Fin 16) (s : State) : Host.Outcome State Fault Refusal :=
  match tget s.loads g with
  | none => .next s
  | some l => .next (s.unlessGated (s.imgFinish g l))

/-- Cluster `g` is asked by a PWR_GATE write: code 11 is ignored; a request for RUN wakes a gated cluster (R429). -/
def State.gateAsk (s : State) (v : W64) (g : Nat) : State :=
  let x := fld v (gatePos g) 2
  if x = 3 then s
  else
    let t := s.setFld (gateK g) (gatePos g) 2 x
    if x = 0 && t.gate g ≠ 0 then { t with waking := tset t.waking g (tgetD t.waking g []) } else t

/-- `s` after a write of PWR_GATE of die `d`. -/
def State.gateWrite (s : State) (d : Nat) (v : W64) : State := ((List.range 8).map (8 * d + ·)).foldl (fun s g => s.gateAsk v g) s

/-- `s` after a write that only context 0 makes (R11). -/
def State.asRoot (s : State) (ctx k : Nat) (f : State → State) : State := if ctx = 0 then f s else s.violation ctx (ctlAddr k)

/-- GATE_REQUEST (R429). -/
def execGateRequest (ctx : Fin 16) (d : Fin 2) (v : W64) (s : State) : Host.Outcome State Fault Refusal :=
  .next (s.asRoot ctx (dieK d 0x360030) fun s => s.gateWrite d v)

/-- GATE_ENTER (R429): every queue of the cluster is stopped. -/
def execGateEnter (g : Fin 16) (s : State) : Host.Outcome State Fault Refusal :=
  let x := s.regFld (gateK g) (gatePos g) 2
  if (x = 1 || x = 2) && (tget s.waking g).isNone && (List.range 6).all fun k => s.coreStopped (6 * g + k) then
    .next (s.setFld (gateK g) (16 + gatePos g) 2 x)
  else .next s

end Sys2Proof.Machine
end

