-- ==== Sys2Proof/Machine/Errors.lean ====
section
/-! DEFINITION. Self-tests, verdicts, row repair, and the disabling of units (16_error_control_and_recovery.md R397 to R402). -/

namespace Sys2Proof.Machine

/-- `s` with the queues stopped that the test of a unit needs stopped: a core's or a cluster's (R397). -/
def State.stopForTest (s : State) (u : W16) : State :=
  if srcType u = 6 || srcType u = 7 then s.stopCores (coresOf u) else s

/-- `s` with the oldest queued test of a die started when none runs (R397, R399). A test of a unit that has since been disabled is not
run. -/
def State.nextTest (s : State) (d : Nat) : State :=
  let k := s.die d
  match k.running, k.tests with
  | none, t :: ts =>
    if s.unitOff t.source then
      (s.setDie d { k with tests := ts }).verdict t.source 6 t.addr
    else (s.setDie d { k with tests := ts, running := some t }).stopForTest t.source
  | _, _ => s

/-- The gated cluster that a unit's test must wake (R429). -/
def State.asleep (s : State) (u : W16) : Option Nat :=
  if s.unitOff u then none else (((coresOf u).map (· / 6)).head?).filter fun g => s.gate g ≠ 0

/-- The cluster that the next test of a die must wake. -/
def State.testAsleep (s : State) (d : Nat) : Option Nat :=
  if (s.die d).running.isSome then none else ((s.die d).tests.head?).bind fun t => s.asleep t.source

/-- SELF_TEST_START (R397 to R399): the oldest queued test starts when none runs, once its cluster is awake (R429). -/
def execSelfTestStart (d : Fin 2) (s : State) : Host.Outcome State Fault Refusal :=
  match s.testAsleep d with
  | some g => .next { s with waking := tset s.waking g (tgetD s.waking g [] ++ [.selfTestStart d]) }
  | none => .next (s.nextTest d)

/-- Transient verdicts of a unit younger than the window (R398). -/
def State.youngVerdicts (s : State) (u : W16) : Nat :=
  (s.faults.verdicts.filter fun p => p.1 == u && s.faults.hours - p.2 < s.regFld (dieK (dieOf u) 0x350000) 32 16).length

/-- The verdict of a test that ran (R398): the transient verdict itself counts. -/
def State.verdictOf (s : State) (u : W16) (passed : Bool) : Nat :=
  let lim := s.regFld (dieK (dieOf u) 0x350000) 0 8
  if !passed then 3 else if lim ≠ 0 && lim ≤ s.youngVerdicts u + 1 then 2 else 1

/-- Spare rows of a pseudo-channel that are used or being filled (R399). -/
def State.sparesUsed (s : State) (st p : Nat) : Nat :=
  tgetD s.faults.spares (64 * st + p) 0 + ((s.stack st).repair.filter (·.1 == p)).length

/-- `s` after a lasting row fault at a stack address (R399, R400): the row moves to a spare, or the granule is retired under AUTODIS. -/
def State.rowFault (s : State) (u : W16) (addr : Nat) : State :=
  let st := srcIndex u / 64
  let p := srcIndex u % 64
  let k := s.stack st
  let g := addr / 0x40000000
  if s.sparesUsed st p < 16 then s.setStack st { k with repair := k.repair ++ [(p, addr)] }
  else if s.autoDis u then
    ({ s with faults := { s.faults with granules := s.faults.granules ++ [g] } } : State).report 0x07 0 u
      { addr := BitVec.ofNat 64 (g * 0x40000000), detail := s.firstError u }
  else s

/-- `s` after a lasting verdict on a unit (R397 to R400). -/
def State.lasting (s : State) (t : Test) : State :=
  if srcType t.source = 8 then s.rowFault t.source t.addr
  else if s.autoDis t.source then s.startDisable t.source
  else s

/-- `s` with the unit of a stack test rewritten as it stood, poisoned (R397). The test holds back a write of the unit that comes meanwhile, so
that a unit that such a write has made good stays good (DEDUCED, log 100). -/
def State.testedUnit (s : State) (t : Test) : State :=
  if srcType t.source = 8 && (s.readUnit t.addr).tag != .good then s.writeUnit t.addr (s.readUnit t.addr).data true else s

/-- SELF_TEST_END (R398). -/
def execSelfTestEnd (d : Fin 2) (passed : Bool) (s : State) : Host.Outcome State Fault Refusal :=
  let k := s.die d
  match k.running with
  | none => .next s
  | some t =>
    let v := s.verdictOf t.source passed
    let s := (s.setDie d { k with running := none }).testedUnit t
    let s := if passed then s.keepVerdict t.source else s
    let s := s.verdict t.source v t.addr
    .next (if v = 1 then s else s.lasting t)

/-- ROW_REPAIR_END (R399): the contents of the row are unchanged. -/
def execRowRepairEnd (st : Fin 12) (s : State) : Host.Outcome State Fault Refusal :=
  let k := s.stack st
  match k.repair with
  | [] => .next s
  | (p, a) :: r =>
    let n := 64 * st.val + p
    let t := s.setStack st { k with repair := r }
    let t := { t with faults := { t.faults with spares := tset t.faults.spares n (tgetD t.faults.spares n 0 + 1) } }
    .next (t.report 0x08 0 (srcOf 0x8 n) { addr := BitVec.ofNat 64 a, detail := s.firstError (srcOf 0x8 n) })

/-- A unit that R400 can disable: an engine, a core, a cluster or a stack of the device. -/
def canDisable (u : W16) : Bool :=
  let i := srcIndex u
  match srcType u with
  | 0x1 | 0x2 | 0x3 | 0x4 | 0x5 | 0x6 => i < 96
  | 0x7 => i < 16
  | 0x9 => i < 12
  | _ => false

/-- `s` after GO for a unit (R400): the first stage of disabling, whatever AUTODIS says. -/
def State.disableGo (s : State) (u : W16) : State := if canDisable u then s.startDisable u else s

/-- `s` after ENABLE for a unit (R402): it leaves the list at the next reset. -/
def State.disableEnable (s : State) (u : W16) : State :=
  if s.enables.contains u then s else { s with enables := s.enables ++ [u] }

/-- ERR_DISABLE_GO (R400, R408). -/
def execErrDisableGo (ctx : Fin 16) (d : Fin 2) (src : W16) (s : State) : Host.Outcome State Fault Refusal :=
  .next (s.asRoot ctx (dieK d 0x350018) fun s => s.disableGo src)

/-- ERR_DISABLE_ENABLE (R402, R408). -/
def execErrDisableEnable (ctx : Fin 16) (d : Fin 2) (src : W16) (s : State) : Host.Outcome State Fault Refusal :=
  .next (s.asRoot ctx (dieK d 0x350018) fun s => s.disableEnable src)

/-- `s` after a write of ERR_DISABLE (R408): with both bits it acts as ENABLE. -/
def State.errDisableWrite (s : State) (v : W64) : State :=
  let u := BitVec.ofNat 16 (fld v 16 16)
  if bitAt v 62 then s.disableEnable u else if bitAt v 63 then s.disableGo u else s

/-- The number of instructions in flight on a core. -/
def State.coreInflight (s : State) (c : Nat) : Nat := (allQueues.map fun q => (s.queue c q).inflight.length).sum

/-- `s` without the requests that an owner still waits for: the responses find no request (R382). -/
def State.dropRequests (s : State) (f : Owner → Bool) : State :=
  { s with qps := s.qps.map fun p => (p.1, { p.2 with queued := p.2.queued.filter fun r => !f r.owner }) }

/-- The owner is an instruction of core `c`. -/
def ownedBy (c : Nat) : Owner → Bool
  | .instr c' _ _ => c' == c
  | .kerb _ => false

/-- `s` with the instructions in flight on a core abandoned: they end without their signals (R382, R400). -/
def State.abandonCore (s : State) (c : Nat) : State :=
  (allQueues.foldl (fun s q => (s.setQueue c q { s.queue c q with inflight := [] }).dueRefusal c q) s).dropRequests (ownedBy c)

/-- `s` with the instructions in flight on a list of cores abandoned. -/
def State.abandon (s : State) (cs : List Nat) : State := cs.foldl State.abandonCore s

/-- `s` with every line that a disabling completes released (R306). -/
def State.checkLines (s : State) : State := (List.range 32).foldl State.checkLine s

/-- The address that a record about a disabled unit gives: that of a stack which is lost (R392, R393). -/
def lostAddr (u : W16) : W64 := if srcType u = 9 then BitVec.ofNat 64 (srcIndex u * 0x1000000000) else 0

/-- UNIT_DISABLE_MARK (R306, R392, R400): what is still in flight then is abandoned. -/
def execUnitDisableMark (src : W16) (s : State) : Host.Outcome State Fault Refusal :=
  if !s.disabling.contains src then .next s
  else
    let t := s.abandon (coresOf src)
    let t := { t with disabling := t.disabling.erase src, disabled := t.disabled ++ [src],
                      faults := { t.faults with disabled := t.faults.disabled ++ [src] } }
    .next (t.checkLines.report 0x07 0 src { addr := lostAddr src, detail := s.firstError src })

end Sys2Proof.Machine
end

