-- ==== Sys2Proof/Machine/Ldq.lean ====
section
/-! DEFINITION. LDQ, the quantising load (03_quantisation_load_path.md; R135, R146, R160, R263, R468). -/

namespace Sys2Proof.Machine

/-- A quantisation record (R71). -/
structure QRec where
  layer : Nat
  efmt : Nat
  rotsz : Nat
  sform : Nat
  group : Nat
  rnd : Nat
  rot1 : Bool
  dyn : Bool
  dTable : Nat
  dOset : Nat
  dComp : Nat
  osetN : Nat
  rotSeed : W64
  thresh : Nat
  dSrcsc : Nat
  srcscEn : Bool
  kdim : Nat
  /-- a reserved bit is 1 -/
  resv : Bool
deriving DecidableEq, Repr

/-- The fields of 32 record bytes (R71). -/
def qrecOf (r : BitVec 256) : QRec :=
  let w := fun i => BitVec.ofNat 64 (r.toNat >>> (64 * i))
  { layer := fld (w 0) 48 16, efmt := fld (w 0) 44 4, rotsz := fld (w 0) 40 4, sform := fld (w 0) 38 2, group := fld (w 0) 36 2,
    rnd := fld (w 0) 34 2, rot1 := bitAt (w 0) 33, dyn := bitAt (w 0) 32, dTable := fld (w 0) 24 8, dOset := fld (w 0) 16 8,
    dComp := fld (w 0) 8 8, osetN := fld (w 0) 0 8, rotSeed := w 1, thresh := fld (w 2) 32 32, dSrcsc := fld (w 2) 24 8,
    srcscEn := bitAt (w 2) 23, kdim := fld (w 2) 20 3, resv := fld (w 2) 0 20 != 0 || w 3 != 0 }

/-- Rotation size of a code; 0: none or refused (R72). -/
def rotSize (code : Nat) : Nat := if 4 ≤ code && code ≤ 8 then 2 ^ code else 0

/-- Group size of a code (R72). -/
def groupSize (code : Nat) : Nat := 32 * 2 ^ code

/-- The padding unit P (R75). -/
def QRec.padUnit (r : QRec) : Nat := max (rotSize r.rotsz) (max (groupSize r.group) 32)

/-- Rung, record and reduction range of a load (R70, R73, R75). -/
structure QCfg where
  r : QRec
  rung : Nat
  shape : List Nat
  k0 : Nat
deriving DecidableEq, Repr

def QCfg.k (q : QCfg) : Nat := q.shape.getD q.r.kdim 0
def QCfg.kp (q : QCfg) : Nat := alignUp q.k q.r.padUnit
/-- Extents of the dimensions that lines run over (R73). -/
def QCfg.lineShape (q : QCfg) : List Nat := q.shape.eraseIdx q.r.kdim
def QCfg.lines (q : QCfg) : Nat := volume q.lineShape
/-- The four-bit rungs, at which extraction applies (R70). -/
def QCfg.narrow (q : QCfg) : Bool := q.rung ≤ 1
/-- Rotation applies (R70). -/
def QCfg.rot (q : QCfg) : Bool := q.r.rotsz != 0 && (q.rung == 0 || (q.rung == 1 && q.r.rot1))
def QCfg.g (q : QCfg) : Nat := groupSize q.r.group
def QCfg.n (q : QCfg) : Nat := rotSize q.r.rotsz
/-- Auto-group (R86). -/
def QCfg.auto (q : QCfg) : Bool := (q.rung == 0 || q.rung == 2) && q.r.sform != 1 && decide (16384 < q.kp)
/-- FORM of the tile header (R70, R72, R86, R94). -/
def QCfg.form (q : QCfg) : Nat :=
  if q.rung = 3 then 4
  else if q.rung = 1 then (if q.r.sform = 1 then 3 else 2)
  else if q.r.sform = 1 then 1
  else if q.auto then 2 else 0
/-- The written element format (R70). -/
def QCfg.fmt (q : QCfg) : Fmt :=
  if q.rung = 3 then .bf16 else if q.rung = 2 then .e4m3 else if q.r.efmt = 0 then .e2m1 else .int4
/-- Its code in the header (R94). -/
def QCfg.fmtCode (q : QCfg) : Nat := if q.rung = 3 then 4 else if q.rung = 2 then 2 else q.r.efmt
/-- QMAX (R84). -/
def QCfg.qmax (q : QCfg) : Nat := match q.fmt with | .e2m1 => 6 | .int4 => 7 | _ => 448
def QCfg.mode (q : QCfg) : Rnd := (rndOf q.r.rnd).getD .rne

/-- The sign bit of an absolute reduction index (R81). -/
def rotSign (seed : W64) (lg k : Nat) : Bool :=
  let j := k % 2 ^ lg
  let w := seed ^^^ mix64 ((BitVec.ofNat 64 (k >>> lg) <<< 2) ||| BitVec.ofNat 64 (j / 64))
  bitAt w (j % 64)

/-- One butterfly stage: pairs whose indices differ in bit `b` (R82). -/
def butterfly (xs : List Num) (b : Nat) : List Num :=
  (List.range xs.length).map fun i =>
    if i.testBit b then wide ((xs.getD (i - 2 ^ b) .zero).add (xs.getD i .zero).neg)
    else wide ((xs.getD i .zero).add (xs.getD (i + 2 ^ b) .zero))

/-- The normalisation factor (R82). -/
def rotNorm (lg : Nat) : Num :=
  if lg % 2 = 0 then .fin 1 (-((lg / 2 : Nat) : Int))
  else (wide (finSqrt 2 0)).mul (.fin 1 (-(((lg + 1) / 2 : Nat) : Int)))

/-- The roundabout on one block that starts at absolute index `k` (R80 to R82). -/
def rotBlock (seed : W64) (lg k : Nat) (xs : List Num) : List Num :=
  let v := xs.zipIdx.map fun p => if rotSign seed lg (k + p.2) then p.1.neg else p.1
  ((List.range lg).foldl butterfly v).map fun x => wide (x.mul (rotNorm lg))

/-- The roundabout over a line from absolute index `k0`. -/
def rotLine (seed : W64) (n k0 : Nat) (xs : List Num) : List Num :=
  ((chunks n xs).zipIdx.map fun p => rotBlock seed (Nat.log2 n) (k0 + p.2 * n) p.1).flatten

/-- What extraction leaves of a tile so far (R76 to R78). -/
structure Extract where
  /-- channels of the dynamic slots in claim order -/
  slots : List Nat := []
  excess : Nat := 0
  /-- saturations of extracted elements in BF16 (R68) -/
  sat : Nat := 0
deriving DecidableEq, Repr

/-- A line after extraction: its elements, and what each dynamic slot took from it. -/
structure ExLine where
  xs : List Num
  took : List (Nat × Nat)
deriving DecidableEq, Repr

/-- The element at absolute channel `ch` through dynamic extraction (R77, R78). -/
def extractOne (thr : Num) (st : Extract × List (Nat × Nat)) (ch : Nat) (v : Num) : (Extract × List (Nat × Nat)) × Num :=
  let p := Fmt.bf16.conv .rne 0 v
  let took := { st.1 with sat := st.1.sat + if p.sat then 1 else 0 }
  if thr.isFin && thr.abs.lt v.abs then
    if st.1.slots.contains ch then ((took, (ch, p.bits) :: st.2), .zero)
    else if st.1.slots.length < 32 then (({ took with slots := st.1.slots ++ [ch] }, (ch, p.bits) :: st.2), .zero)
    else (({ st.1 with excess := st.1.excess + 1 }, st.2), if v.lt .zero then thr.abs.neg else thr.abs)
  else (st, v)

/-- The extraction of one line: declared channels first, then dynamic slots in increasing k (R76, R77). -/
def extractLine (decl : List Nat) (dyn : Bool) (thr : Num) (k0 : Nat) (st : Extract) (xs : List Num) : Extract × ExLine :=
  let ys := xs.zipIdx.map fun p => if decl.contains (k0 + p.2) then Num.zero else p.1
  if dyn then
    let (a, out) := ys.zipIdx.foldl (fun (acc : (Extract × List (Nat × Nat)) × List Num) p =>
      let r := extractOne thr acc.1 (k0 + p.2) p.1
      (r.1, r.2 :: acc.2)) ((st, []), [])
    (a.1, { xs := out.reverse, took := a.2 })
  else (st, { xs := ys, took := [] })

/-- A quantised line. -/
structure QLine where
  codes : List Nat
  /-- line scale or table entry -/
  scale : Nat := 0
  groups : List Nat := []
  nan : Bool := false
  stat : KStat := {}
  pre : Num := .zero
  post : Num := .zero
deriving DecidableEq, Repr

/-- Element codes of values under one scale: codes, saturations, values flushed to zero (R84, R96). -/
def codesUnder (q : QCfg) (seed : W64) (tag : W16) (idx0 : Nat) (sc : Option Num) (xs : List Num) : List Nat × Nat × Nat :=
  let ps := xs.zipIdx.map fun p =>
    let v := match sc with | some d => divScale p.1 d | none => p.1
    (q.fmt.conv q.mode (srBits seed tag 0 (idx0 + p.2)) v, v)
  (ps.map (·.1.bits), (ps.filter (·.1.sat)).length, (ps.filter fun p => p.1.bits == 0 && !p.2.isZero && p.2.isFin).length)

/-- The largest magnitude of a list. -/
def amaxList (xs : List Num) : Num := xs.foldl amaxOf .zero

/-- One group: its scale code, element codes, and counts (R87, R89; a NaN or infinity makes the scale NaN at every format, DEDUCED, log 88).
-/
def quantGroup (q : QCfg) (seed : W64) (tag : W16) (idx0 : Nat) (nan : Bool) (xs : List Num) : Nat × List Nat × KStat :=
  let a := amaxList xs
  if nan || !a.isFin then (0xFF, xs.map fun _ => 0, { nansc := 1 })
  else if a.isZero then (0, xs.map fun _ => 0, { zerosc := 1 })
  else
    let sc := scaleOf .e8m0 a q.qmax
    let (cs, sat, u) := codesUnder q seed tag idx0 (some (Fmt.e8m0.value sc)) xs
    (sc, cs, { sat := sat, uflow := u })

/-- A line in group form (R87): `ys` divided already, `bad` the positions not finite after stage 1. -/
def quantGroups (q : QCfg) (seed : W64) (tag : W16) (idx0 : Nat) (nan : Bool) (bad : List Bool) (ys : List Num) :
    List Nat × List Nat × KStat :=
  ((chunks q.g ys).zip (chunks q.g bad)).zipIdx.foldl (fun acc p =>
    let r := quantGroup q seed tag (idx0 + p.2 * q.g) (nan || p.1.2.any id) p.1.1
    (acc.1 ++ [r.1], acc.2.1 ++ r.2.1, acc.2.2.merge r.2.2)) ([], [], {})

/-- A table entry that R88 accepts. -/
def entryOk (t : Nat) : Bool := 0x00800000 ≤ t && t < 0x7F800000

/-- Stages 4 to 7 of one line (R80 to R89), with every saturation of R68. In FORM 3 a line that holds a NaN or infinity is a NaN line, so
that NaN stands in its table entry, and each of its groups that holds one has a NaN scale, which is what counts as NaN scales (R88, R89,
R96; DEDUCED, log 79). `s1`: after stage 1, padded; `xs`: after extraction; `t`: its table entry. -/
def quantLine (q : QCfg) (seed : W64) (tag : W16) (line t : Nat) (s1 xs : List Num) : QLine :=
  let idx0 := line * q.kp + q.k0
  let bad := s1.map fun v => !v.isFin
  let anyBad := bad.any id
  let base : KStat := { elems := q.k }
  let a := amaxList xs
  if q.form = 4 then
    let (cs, sat, _) := codesUnder q seed tag idx0 none xs
    { codes := cs, stat := { base with sat := sat },
      pre := if anyBad then .zero else a, post := if anyBad then .zero else a }
  else
    let ys := if q.rot then rotLine q.r.rotSeed q.n q.k0 xs else xs
    let post := amaxList ys
    if q.form = 0 then
      if anyBad || !post.isFin then
        { codes := xs.map fun _ => 0, scale := 0x7F8, nan := true, stat := { base with nansc := 1 } }
      else if post.isZero then
        { codes := xs.map fun _ => 0, scale := 0, stat := { base with zerosc := 1 }, pre := a, post := post }
      else
        let sc := scaleOf .e8m3 post q.qmax
        let (cs, sat, u) := codesUnder q seed tag idx0 (some (Fmt.e8m3.value sc)) ys
        { codes := cs, scale := sc, stat := { base with sat := sat, uflow := u }, pre := a, post := post }
    else if q.form = 1 then
      if anyBad || !post.isFin || !entryOk t then
        { codes := xs.map fun _ => 0, scale := 0x7FC00000, nan := true, stat := { base with nansc := 1 } }
      else
        let (cs, sat, u) := codesUnder q seed tag idx0 (some (v32 t)) ys
        { codes := cs, scale := t, stat := { base with sat := sat, uflow := u }, pre := a, post := post }
    else
      let tab := decide (q.form = 3)
      let lnan := tab && !entryOk t
      let zs := if tab && !lnan then ys.map fun y => if y.isFin then divScale y (v32 t) else y else ys
      let (gs, cs, st) := quantGroups q seed tag idx0 lnan bad zs
      let nan := decide (st.nansc ≠ 0)
      { codes := cs, scale := if tab then (if nan then 0x7FC00000 else t) else 0, groups := gs, nan := nan,
        stat := base.merge st, pre := if nan then .zero else a, post := if nan then .zero else post }

/-- A byte of a tile, and whether it depends on a bad unit. -/
abbrev TByte := Byte × Bool

/-- Bytes with one dependence. -/
def tb (bad : Bool) (bs : List Byte) : List TByte := bs.map fun b => (b, bad)

/-- `n` bytes of a value. -/
def tbLe (bad : Bool) (n v : Nat) : List TByte := tb bad (leBytes n v)

/-- Zero bytes up to a multiple of `m`. -/
def padTo (m : Nat) (bs : List TByte) : List TByte := bs ++ tb false (zeros (alignUp bs.length m - bs.length))

/-- Codes of `w` bits packed little-endian, lowest first (R39, R40). -/
def packNat (w : Nat) : List Nat → Nat
  | [] => 0
  | c :: cs => c % 2 ^ w + 2 ^ w * packNat w cs

/-- 64-byte segments of a line (R160). -/
def segCount (kp w : Nat) : Nat := (kp * w + 511) / 512

/-- The element area (R160): `cells` are the lines' codes with their dependence. -/
def elemArea (w kp : Nat) (cells : List (List (Nat × Bool))) : List TByte :=
  let ns := segCount kp w
  let per := 512 / w
  ((List.range ((cells.length + 31) / 32 * ns)).map fun x =>
    ((List.range 32).map fun p =>
      let line := 32 * (x / ns) + (p + 32 * ns - x % ns) % 32
      let seg := ((cells.getD line []).drop (x % ns * per)).take per
      tbLe (seg.any (·.2)) 64 (packNat w (seg.map (·.1)))).flatten).flatten

/-- One quantised tile before it is placed. -/
structure Tile where
  bytes : List TByte
  stat : KStat
  /-- the first line with a NaN scale (R89) -/
  nanLine : Option Nat
deriving DecidableEq, Repr

/-- A line as it enters a tile: its index, its values after stage 1 with their dependence, its table entry with its own. -/
structure InLine where
  line : Nat
  vals : List (Num × Bool)
  entry : Nat
  entryBad : Bool
deriving DecidableEq, Repr

/-- A companion row: BF16 patterns, whether one came from a bad unit, and the saturations of its conversion (R68, R77). -/
structure CompRow where
  vals : List Nat
  bad : Bool
  sat : Nat
deriving DecidableEq, Repr

/-- The companion row of a channel. -/
abbrev Comp := Nat → CompRow

/-- The table entry of a line, and what follows from it, depends on bad data: the entry does, or a bad unit's NaN or infinity makes the line
a NaN line (R88, R89, R333). -/
def InLine.entryDepends (l : InLine) : Bool := l.entryBad || l.vals.any fun p => p.2 && !p.1.isFin

/-- Whether each element depends on bad data: its line in line form, its group and rotation block otherwise, all that a table entry
governs, and the whole tile under dynamic extraction (R333). -/
def depends (q : QCfg) (all : Bool) (l : InLine) : List Bool :=
  let bad := l.vals.map (·.2)
  if all || l.entryBad || (q.form = 1 && l.entryDepends) then bad.map fun _ => true
  else
    let u := if q.form = 0 then q.kp else max (if 2 ≤ q.form && q.form ≤ 3 then q.g else 1) (if q.rot then q.n else 1)
    ((chunks u bad).map fun c => c.map fun _ => c.any id).flatten

/-- An entry of the side record: channel, values, padded to 16 bytes (R94). -/
def sideEntry (bad : Bool) (ch : Nat) (vals : List Nat) (comp : Option (List Nat)) : List TByte :=
  padTo 16 (tbLe bad 4 ch ++ (vals.map (tbLe bad 2)).flatten ++
    match comp with
    | some c => tbLe bad 4 c.length ++ (c.map (tbLe bad 2)).flatten
    | none => [])

/-- The tile header (R94). -/
def tileHeader (q : QCfg) (bad : Bool) (flags lines nslot ndecl elemOff sideOff total : Nat) : List TByte :=
  tb bad (leBytes 2 q.r.layer ++ leBytes 1 q.rung ++ leBytes 1 q.form ++ leBytes 1 q.fmtCode ++
    leBytes 1 (if q.rot then q.r.rotsz else 0) ++ leBytes 1 q.r.group ++ leBytes 1 flags ++ leBytes 2 lines ++ leBytes 2 nslot ++
    leBytes 4 q.kp ++ leBytes 8 q.k0 ++ leBytes 8 q.r.rotSeed.toNat ++ leBytes 2 ndecl ++ zeros 2 ++ leBytes 4 0x40 ++
    leBytes 4 elemOff ++ leBytes 4 sideOff ++ leBytes 4 total ++ zeros 12)

/-- Extraction over the lines of a tile (R76 to R78). -/
def extractTile (q : QCfg) (decl : List Nat) (lines : List InLine) : Extract × List ExLine :=
  if q.narrow then
    lines.foldl (fun acc l =>
      let r := extractLine decl q.r.dyn (v32 q.r.thresh) q.k0 acc.1 (l.vals.map (·.1))
      (r.1, acc.2 ++ [r.2])) ({}, [])
  else ({}, lines.map fun l => { xs := l.vals.map (·.1), took := [] })

/-- A quantised tile from its lines (R69, R94). `decl`: declared channels in range, rising. -/
def tileOf (q : QCfg) (seed : W64) (tag : W16) (decl : List Nat) (comp : Comp) (lines : List InLine) : Tile :=
  let (ex, exls) := extractTile q decl lines
  let qs := (lines.zip exls).map fun p => quantLine q seed tag p.1.line p.1.entry (p.1.vals.map (·.1)) p.2.xs
  let anyBad := lines.any fun l => l.entryBad || l.vals.any (·.2)
  let all := anyBad && q.narrow && q.r.dyn
  let deps := lines.map (depends q all)
  let scales : List TByte :=
    let lb := lines.zip qs
    let tabs := (lb.map fun p => tbLe (all || p.1.entryDepends) 4 p.2.scale).flatten
    let grps := ((deps.zip qs).map fun p => ((chunks q.g p.1).zip p.2.groups).map fun c => (BitVec.ofNat 8 c.2, c.1.any id)).flatten
    match q.form with
    | 0 => ((deps.zip qs).map fun p => tbLe (p.1.any id) 2 p.2.scale).flatten
    | 1 => ((deps.zip qs).map fun p => tbLe (p.1.any id) 4 p.2.scale).flatten
    | 2 => grps
    | 3 => tabs ++ grps
    | _ => []
  let elemOff := alignUp (0x40 + scales.length) 2048
  let elems := elemArea q.fmt.bits q.kp ((qs.zip deps).map fun p => p.1.codes.zip p.2)
  let declVals := fun ch => lines.map fun l =>
    let v := l.vals.getD (ch - q.k0) (.zero, false)
    (Fmt.bf16.conv .rne 0 v.1, v.2)
  let side := (if q.narrow then decl.map (fun ch => sideEntry ((declVals ch).any (·.2)) ch ((declVals ch).map (·.1.bits)) none) else []) ++
    ex.slots.map fun ch =>
      let c := comp ch
      sideEntry (all || c.bad) ch (exls.map fun l => ((l.took.find? (·.1 == ch)).map (·.2)).getD 0) (some c.vals)
  let sideSat := (if q.narrow then (decl.map fun ch => ((declVals ch).filter (·.1.sat)).length).sum else 0) + ex.sat +
    (ex.slots.map fun ch => (comp ch).sat).sum
  let side := padTo 64 side.flatten
  let sideOff := if side = [] then 0 else elemOff + elems.length
  let total := elemOff + elems.length + side.length
  let nan := qs.any (·.nan)
  let ndecl := if q.narrow then decl.length else 0
  let flags := (if ex.slots = [] then 0 else 1) + (if q.auto then 2 else 0) + (if nan then 4 else 0) + (if ndecl = 0 then 0 else 8)
  let stat := (qs.map (·.stat)).foldl KStat.merge
    { tiles := 1, slots := ex.slots.length, slotmax := ex.slots.length, excess := ex.excess, sat := ex.excess + sideSat,
      autogrp := if q.auto then 1 else 0, amaxPre := amaxPat (amaxList (qs.map (·.pre))),
      amaxPost := amaxPat (amaxList (qs.map (·.post))) }
  { bytes := tileHeader q (anyBad && q.form != 4) flags lines.length ex.slots.length ndecl elemOff sideOff total ++
      (scales ++ tb false (zeros (elemOff - 0x40 - scales.length)) ++ elems ++ side),
    stat := stat,
    nanLine := ((lines.zip qs).find? (·.2.nan)).map (·.1.line) }

/-- The load of a job: configuration from its latched record, rung and source. -/
def jobCfg (j : Job) : QCfg :=
  { r := qrecOf j.record, rung := j.rung, shape := (jobTensor j 0 6).shape, k0 := 32 * (jobTensor j 0 6).d.org }

/-- The descriptors of an LDQ in a job: source, slots, table, declared set, companion, source scales. -/
def jobUses (j : Job) (i : Nat) : Bool :=
  let q := jobCfg j
  match i with
  | 0 => true
  | 1 => true
  | 2 => q.form == 1 || q.form == 3
  | 3 => q.narrow && q.r.osetN != 0
  | 4 => q.narrow && q.r.dyn
  | _ => q.r.srcscEn

/-- The coordinates of position `k` of a line (R73). -/
def QCfg.coord (q : QCfg) (line k : Nat) : List Nat :=
  let o := coordsOf q.lineShape line
  o.take q.r.kdim ++ [k] ++ o.drop q.r.kdim

/-- The coordinates of the scale that governs a source element (R53, R74, R470). -/
def scaleCoord (sc : Tensor) (co : List Nat) : List Nat :=
  if sc.d.fmt = 7 then (match co.tail with | [] => [0] | l => l) else (co.headD 0 / 32) :: co.tail

/-- The coordinates of element `i` of the companion row of channel `ch`: R77 itself reads the edge row outside dimension 1, so that PADZ of
DESC_COMP finds no coordinate outside (DEDUCED, log 80). -/
def compCoord (t : Tensor) (ch i : Nat) : List Nat := [i, min (ch - 32 * t.d.org) (t.iterExt 1 - 1)]

/-- An element after stage 1, with everything read for it (R69, R74). -/
def State.stage1 (s : State) (j : Job) (co : List Nat) : Num × Bool × List ElemRd :=
  let src := jobTensor j 0 6
  let e := s.readElem j.ctx src j.units co
  let v := ((fmtOf src.d.fmt).getD .fp32).value e.pat
  if jobUses j 5 then
    let sc := jobTensor j 5 6
    let x := s.readElem j.ctx sc j.units (scaleCoord sc co)
    (v.mul (((fmtOf sc.d.fmt).getD .e8m3).value x.pat), isBad e.rd.err || isBad x.rd.err, [e, x])
  else (v, isBad e.rd.err, [e])

/-- The coordinates of entry `n` of a tensor read in linear order, innermost first: entries beyond its end lie outside its last dimension
(R281). The linear order over a tensor of more than one dimension is this model's (DESIGN CHOICE, log 80). -/
def entryCoord : List Nat → Nat → List Nat
  | [], _ => []
  | [_], n => [n]
  | e :: es, n => (n % e) :: entryCoord es (n / e)

/-- The lines of a load as read, padded, with everything read for them (R73, R75, R88). -/
def State.ldqLine (s : State) (j : Job) (line : Nat) : InLine × List ElemRd :=
  let q := jobCfg j
  let es := (List.range q.k).map fun k => s.stage1 j (q.coord line k)
  let pad := List.replicate (q.kp - q.k) (Num.zero, false)
  let vals := es.map (fun e => (e.1, e.2.1)) ++ pad
  let rds := (es.map (·.2.2)).flatten
  if jobUses j 2 then
    let t := jobTensor j 2 6
    let e := s.readElem j.ctx t j.units (entryCoord t.shape line)
    ({ line := line, vals := vals, entry := e.pat, entryBad := isBad e.rd.err }, rds ++ [e])
  else ({ line := line, vals := vals, entry := 0, entryBad := false }, rds)

/-- The companion row of a channel as read (R77). -/
def State.ldqComp (s : State) (j : Job) (ch : Nat) : List ElemRd :=
  let t := jobTensor j 4 6
  (List.range (t.d.extent 0)).map fun i => s.readElem j.ctx t j.units (compCoord t ch i)

/-- The entries of the declared set in range, each once, rising (R76). -/
def declaredIn (q : QCfg) (oset : List (BitVec 32)) : List Nat :=
  (List.range q.k).filterMap fun i => if oset.contains (BitVec.ofNat 32 (q.k0 + i)) && q.k0 + i < 2 ^ 32 then some (q.k0 + i) else none

/-- The declared set of a job as read at issue: the first OSET_N entries of DESC_OSET, those beyond its extent read at the edge (R76,
R281). -/
def State.ldqOset (s : State) (j : Job) : List ElemRd :=
  if jobUses j 3 then (List.range (qrecOf j.record).osetN).map fun i => s.readElem j.ctx (jobTensor j 3 6) j.units [i] else []

/-- The lines of each tile (R73). -/
def tileLines (n : Nat) : List (List Nat) := chunks 256 (List.range n)

/-- Everything a load writes and counts. -/
structure Load1 where
  tiles : List Tile
  /-- every element read, in order -/
  reads : List ElemRd
deriving DecidableEq, Repr

/-- The load of a job from what it can read now (R69). A companion row is read once for each tile that claims a slot for its channel (R77,
R280). -/
def State.ldqLoad (s : State) (j : Job) : Load1 :=
  let q := jobCfg j
  let decl := declaredIn q j.oset
  let per := (tileLines q.lines).map fun ls => ls.map (s.ldqLine j)
  let claims := (per.map fun ls => (extractTile q decl (ls.map (·.1))).1.slots).flatten
  let comp : Comp := fun ch =>
    let es := s.ldqComp j ch
    let f := (fmtOf (jobTensor j 4 6).d.fmt).getD .fp32
    let ps := es.map fun e => Fmt.bf16.conv .rne 0 (f.value e.pat)
    { vals := ps.map (·.bits), bad := es.any fun e => isBad e.rd.err, sat := (ps.filter (·.sat)).length }
  { tiles := per.map fun ls => tileOf q j.seed j.w.optag decl comp (ls.map (·.1))
    reads := (per.map fun ls => (ls.map (·.2)).flatten).flatten ++ (claims.map (s.ldqComp j)).flatten }

/-- The elements of a remote tensor's reads that no received unit covers, as unit addresses. -/
def missingUnits (us : List RemoteUnit) (es : List ElemRd) : List Nat :=
  ((es.map fun e => e.rd.addr / 64 * 64).filter fun a =>
    spaceOf a == 1 && !us.any (fun r => r.addr == a)).eraseDups

/-- The units of other devices that a job still needs (R288). -/
def State.ldqNeeds (s : State) (j : Job) : List Nat :=
  (missingUnits j.units (s.ldqLoad j).reads).filter fun a => midOf a != s.fuses.device

/-- A descriptor that an LDQ uses has a zero extent (R285). -/
def ldqEmpty (j : Job) : Bool := (List.range 6).any fun i => jobUses j i && (jobTensor j i 6).empty

/-- 64-byte units of tile bytes, each with its dependence. -/
def tileUnits (bs : List TByte) : List (List Byte × Bool) := (chunks 64 bs).map fun c => (c.map (·.1), c.any (·.2))

/-- `s` with the tile in slot `i` of the slots at chamber offset `base` (R94, R95, R284). A slot ends with the chamber window at the
latest (log 23). -/
def State.placeTile (s : State) (c base pitch slots i : Nat) (t : Tile) : State :=
  let units := tileUnits t.bytes
  let o := base + i * pitch
  let room := if slots ≤ i then 0 else min pitch (0x400000 - o) / 64
  let units := if units.length ≤ room then units
    else tileUnits (t.bytes.zipIdx.map fun p => if p.2 = 7 then (p.1.1 ||| 0x10, p.1.2) else p.1)
  let s := (units.take room).zipIdx.foldl (fun s p => s.writeUnit (chamPa c (o + 64 * p.2)) p.1.1 p.1.2) s
  let s := if (units.take room).any (·.2) then s.poisoned (s.ctxOf c) else s
  s.count (coreK c 0xC10) (units.length - room)

/-- KERB_STALL of a stalled LDQ (R135, R155). -/
def stallWord (vcore layer : Nat) (optag : W16) (pc : BitVec 14) : W64 :=
  putFld (putFld (putFld (putFld (putBit 0 63 true) 48 8 vcore) 32 16 layer) 16 16 optag.toNat) 0 14 pc.toNat

/-- What an LDQ leaves when it has run. -/
structure LdqEnd where
  st : State
  error : Option W16 := none
  errAt : Nat := 0
  events : List W16 := []
  hold : Hold := .none

/-- `s` after the tiles of a load have been written and counted (R94 to R96, R142). -/
def State.ldqStore (s : State) (c : Nat) (j : Job) (l : Load1) : State :=
  let dst := (jobTensor j 1 6).d
  let base := s.normBase dst - s.chamAddr c 0
  let s := l.tiles.zipIdx.foldl (fun s p => s.placeTile c base (4 * (dst.stride 0).toNat) (dst.extent 0) p.2 p.1) s
  l.tiles.foldl (fun s t => s.addStat j.ctx c (qrecOf j.record).layer j.step t.stat) s

/-- `s` after an LDQ has run on what it can read (R69 to R96, R135, R239, R333). -/
def State.ldqRun (s : State) (c : Nat) (q : Queue) (pc : BitVec 14) (j : Job) : LdqEnd :=
  if ldqEmpty j then { st := s }
  else
    let l := s.ldqLoad j
    let r := qrecOf j.record
    let past := (l.reads.filter fun e => e.past && !e.pad).length
    let errs := errsOf (l.reads.map (·.rd))
    let excess := decide ((l.tiles.map (·.stat.excess)).sum ≠ 0)
    let stall := excess && ovfOf (s.layerVal j.ctx r.layer)
    let t := (((s.wakeAll j.ctx (l.reads.map (·.rd.addr))).ldqStore c j l).count (coreK c 0xC18) past).tookErrs c q pc j.w.optag j.ctx errs
    let t := if stall then t.first (kerbK j.ctx 0x48) (stallWord ((s.vcoreOf j.ctx c).getD c) r.layer j.w.optag pc) else t
    let ev := (if excess then [Code.OUTLIER_EXCESS] else []) ++ (if stall then [Code.OUTLIER_STALL] else [])
    let h := if stall then Hold.own else .none
    let err := if errs.first.err ≠ 0 then some errs.first.err else none
    match l.tiles.findSome? (·.nanLine) with
    | none => { st := t, error := err, errAt := errs.at_, events := ev, hold := h }
    | some n =>
      { st := t.nanTrap c q 2 0 pc j.w.optag n, error := err, errAt := errs.at_,
        events := ev ++ (if s.nanFills c then [Code.NAN_TRAPPED] else []),
        hold := h.or (if s.nanFills c then s.nanHold c else .none) }

/-- Steps 2 and 3 of R468, made before the LDQ waits for the ladder. -/
def State.ldqEarly (c : Nat) (q : Queue) (w : InstrWord) (s : State) : Option Ref :=
  let o := s.offs c q w (opnd w 31 15 * 32)
  let u := s.readBytes (chamPa c o) 32
  if u.tag ≠ .good then some { code := Code.QREC_INVALID, bad := some (badKind (tagCode u.tag), s.chamAddr c o) }
  else need ((qrecOf (BitVec.ofNat 256 (leNat u.data))).layer < layersOf (s.reg (kerbK (s.ctxOf c) 0))) Code.LAYER_INVALID

/-- CTRL of a descriptor alone, its unit good (R274, R333). -/
def State.ownCtrl (s : State) (c i : Nat) : Option Ref :=
  firstRef [s.latchOk c i, need (descOf (s.descData c i)).ctrlOk Code.DESC_INVALID]

/-- CTRL of the index tensor of a descriptor (R280). -/
def State.indexCtrl (s : State) (c i : Nat) : Option Ref :=
  let d := descOf (s.descData c i)
  if d.idxen then
    let x := descOf (s.descData c d.idxd)
    firstRef [s.latchOk c d.idxd, need (x.ctrlOk && x.ndim == 1 && !x.idxen) Code.DESC_INVALID]
  else none

/-- The codes of the R72 table against a rung, in its order (R72, R468). -/
def qrecCodes (r : QRec) (rung : Nat) : Option Ref :=
  firstRef
    [ need (2 ≤ rung || r.efmt ≤ 1) Code.QREC_INVALID,
      need (if r.rotsz = 0 then rung ≠ 0 else 4 ≤ r.rotsz && r.rotsz ≤ 8) Code.QREC_INVALID,
      need (r.sform ≠ 3) Code.QREC_INVALID, need (r.group ≠ 3) Code.QREC_INVALID,
      need (rndOf r.rnd).isSome Code.RND_RESERVED, need (!r.resv) Code.QREC_INVALID, need (r.osetN ≤ 128) Code.QREC_INVALID ]

/-- The shape rules of DSTD (R95). -/
def slotsOk (d : Desc) : Bool :=
  d.ctrlOk && d.ndim == 1 && !d.idxen && d.fmt == 5 && decide (0 < d.stride 0) && d.stride 0 % 512 == 0

/-- A used DESC_OSET is an index tensor: NDIM 1 and IDXEN 0 (R76, R280). -/
def osetOk (d : Desc) : Bool := d.ndim == 1 && !d.idxen

/-- The checks of an LDQ at issue, steps 5 to 14 of R468, over the job it would latch. R468 does not list the refusals of the route and of
a declared set in a bad unit: they come last (DESIGN CHOICE, log 81). -/
def State.ldqCheck (s : State) (c : Nat) (w : InstrWord) (j : Job) : Option Ref :=
  let r := qrecOf j.record
  let src := jobTensor j 0 6
  let used := fun i => jobUses j i
  let ids := [(2, r.dTable), (3, r.dOset), (4, r.dComp), (5, r.dSrcsc)].filter fun p => used p.1
  let all := (0, opnd w 63 56) :: ids
  let ts := all.map fun p => jobTensor j p.1 6
  let dst := jobTensor j 1 6
  firstRef
    [ qrecCodes r j.rung, s.ownCtrl c (opnd w 63 56),
      need (r.kdim < src.d.ndim) Code.QREC_INVALID, need (!(src.d.idxen && src.d.idxdim == r.kdim)) Code.DESC_INVALID,
      need (src.d.fmt ≤ 5) Code.FORMAT_INVALID,
      need (!r.srcscEn || (jobTensor j 5 6).d.fmt == 6 || (jobTensor j 5 6).d.fmt == 7) Code.FORMAT_INVALID,
      need (32 * src.d.org % r.padUnit == 0) Code.ROT_ALIGN,
      s.latchOk c (opnd w 55 48), need (slotsOk dst.d) Code.DESC_INVALID, need (dst.d.base % 2048 == 0) Code.ADDR_INVALID,
      firstRef (ids.map fun p => s.ownCtrl c p.2), firstRef (all.map fun p => s.indexCtrl c p.2),
      need (!used 3 || osetOk (jobTensor j 3 6).d) Code.DESC_INVALID,
      need (!used 4 || (jobTensor j 4 6).d.ndim == 2) Code.DESC_INVALID,
      need (!used 4 || (jobTensor j 4 6).d.extent 0 ≤ 256) Code.QREC_INVALID,
      need (!used 2 || (jobTensor j 2 6).d.fmt == 5) Code.FORMAT_INVALID,
      need (!used 3 || (jobTensor j 3 6).d.fmt == 8) Code.FORMAT_INVALID,
      need (!used 4 || (2 ≤ (jobTensor j 4 6).d.fmt && (jobTensor j 4 6).d.fmt ≤ 5)) Code.FORMAT_INVALID,
      firstRef (ts.map indexFmt), firstRef ((ts ++ [dst]).map hullCheck),
      need (s.inChamber c dst.d) Code.MV_PLACE, firstRef (ts.map (s.placeCheck c)),
      need (!used 3 || s.inChamber c (jobTensor j 3 6).d) Code.MV_PLACE,
      need (s.overlapCase false src [dst] != .tooLarge) Code.OVERLAP_TOO_LARGE,
      firstRef (ts.map fun t => s.routeCheck j.ctx t.d),
      need ((s.ldqOset j).all fun e => !isBad e.rd.err) Code.QREC_INVALID ]

/-- What an LDQ latches at issue (R98). -/
def State.ldqJob (s : State) (c : Nat) (q : Queue) (w : InstrWord) : Job :=
  let ctx := s.ctxOf c
  let u := s.readBytes (chamPa c (s.offs c q w (opnd w 31 15 * 32))) 32
  let rec_ : BitVec 256 := BitVec.ofNat 256 (leNat u.data)
  let r := qrecOf rec_
  let ids := [opnd w 63 56, opnd w 55 48, r.dTable, r.dOset, r.dComp, r.dSrcsc]
  let j : Job :=
    { op := .ldq, w := w, ctx := ctx, descs := ids.map (s.descData c) ++ ids.map fun i => (s.indexUnit c i).getD 0,
      idx := [], record := rec_, rung := rungOf (s.layerVal ctx r.layer), seed := s.reg (seedK c q), oset := [],
      step := s.openStep ctx, units := [] }
  { j with idx := ids.zipIdx.map fun p => if jobUses j p.2 then (s.tensorAt c p.1).idx else [] }

/-- The declared set latched into a job (R76, R98). -/
def State.latchOset (s : State) (j : Job) : Job := { j with oset := (s.ldqOset j).map fun e => BitVec.ofNat 32 e.pat }

/-- `s` with READs for units of other devices sent, device by device (R356). -/
def State.requestUnits (s : State) (owner : Owner) (ctx : Nat) (units : List Nat) : State :=
  ((units.map midOf).eraseDups).foldl (fun s dv =>
    match s.route ctx dv with
    | .home n => s.request n (readReqs owner dv (s.qpUnits n) none ((units.filter fun a => midOf a = dv).map offOf))
    | .bad _ => s) s

/-- An LDQ that issues: it runs at once, or waits for what it reads from other devices. -/
def State.ldqIssue (s : State) (c : Nat) (q : Queue) (j : Job) : Issued :=
  let j := s.latchOset j
  let s := s.countOverlap c (s.overlapCase false (jobTensor j 0 6) [jobTensor j 1 6])
  let needs := if ldqEmpty j then [] else s.ldqNeeds j
  if needs = [] then
    let e := s.ldqRun c q (s.queue c q).pc j
    { st := e.st, error := e.error, errAt := e.errAt, events := e.events, hold := e.hold, step := j.step }
  else { st := s.requestUnits (.instr c q s.ids) j.ctx needs, work := .gather j, step := j.step }

/-- What R468 makes of an LDQ once its ladder wait is over, over the job it would latch. A bad layer table entry is refused before step 5
(DESIGN CHOICE, log 81). -/
def State.ldqDecide (s : State) (c : Nat) (q : Queue) (w : InstrWord) (j : Job) : Verdict :=
  let bad := s.layerWord j.ctx (qrecOf j.record).layer
  if bad.tag ≠ .good then
    .refuseRef { code := Code.QREC_INVALID, bad := some (badKind (tagCode bad.tag), s.layerAddr j.ctx (qrecOf j.record).layer) }
  else match s.ldqCheck c w j with
    | some r => .refuseRef r
    | none => .issue (s.ldqIssue c q j)

/-- The descriptors that a job uses, as the record and the instruction name them. -/
def ldqDescs (w : InstrWord) (j : Job) : List Nat :=
  let r := qrecOf j.record
  ([opnd w 63 56, opnd w 55 48, r.dTable, r.dOset, r.dComp, r.dSrcsc].zipIdx.filter fun p => jobUses j p.2).map (·.1)

/-- LDQ once steps 1 to 3 of R468 have passed: the ladder wait, then the checks over what the context's layer table and routes give. -/
def State.ldqVerdict (c : Nat) (q : Queue) (w : InstrWord) (s : State) : Verdict :=
  if s.ladderBusy (s.ctxOf c) then .wait .ladder
  else
    let j := s.ldqJob c q w
    ((s.ldqDecide c q w j).routed s j.ctx (s.devsOf c (ldqDescs w j))).reading s j.ctx
      [(s.layerAddr j.ctx (qrecOf j.record).layer, 8)]

/-- LDQ (R263, R468). -/
def execLdq (c : Fin 96) (q : Queue) (w : InstrWord) (s : State) : Host.Outcome State Fault Refusal :=
  .next (s.runHead c q .ldq w (State.ldqVerdict c q w) (some (State.ldqEarly c q w)))

end Sys2Proof.Machine
end

