-- ==== Sys2Proof/Machine/MemEvents.lean ====
section
/-! DEFINITION. Events of the memories: symbol-code and SEC-DED outcomes, patrols, links, channels, echo units
(13_memory_stacks_gallery_chamber.md R325 to R345). -/

namespace Sys2Proof.Machine

/-- `pa` is a byte of a stack that the grade has and that answers (R29, R325, R326, R337, R400). -/
def State.stackAnswers (s : State) (pa : Nat) : Bool :=
  pa < stackEnd && (s.granOf 0 (pa / 0x40000000)).isSome && s.deadAt pa == none

/-- Stack of a physical address. -/
def paStack (pa : Nat) : Nat := pa / 0x1000000000

/-- `s` with the request series of the channel behind `pa` at its end: a read or write has passed (R326; DEDUCED, log 41). -/
def State.channelPassed (s : State) (pa : Nat) : State :=
  match tget s.bases (paStack pa) with
  | none => s
  | some k =>
    s.setStack (paStack pa)
      { k with chTries := tdel k.chTries (pchOf pa / 2), chSecond := k.chSecond.filter (· != pchOf pa / 2) }

/-- `s` with the corrected unit at `pa` waiting for its write-back (R328). -/
def State.owesWriteback (s : State) (pa : Nat) : State :=
  let k := s.stack (paStack pa)
  let a := pa / 64 * 64
  s.setStack (paStack pa) { k with writebacks := if k.writebacks.contains a then k.writebacks else k.writebacks ++ [a] }

/-- `s` after the symbol code's outcome on a unit of a stack (R328, R334). -/
def State.symbolOutcome (s : State) (pa : Nat) (e : Ecc) (asRead : UnitData) (scrub : Bool) : State :=
  match e with
  | .clean => s
  | .corrected => (s.unitCorrected pa).owesWriteback pa
  | .uncorrectable => (s.writeUnit pa (unitBytes asRead) true).unitUncorr pa scrub

/-- STACK_READ (R328). -/
def execStackRead (pa : Nat) (e : Ecc) (asRead : UnitData) (s : State) : Host.Outcome State Fault Refusal :=
  if s.stackAnswers pa then .next ((s.channelPassed pa).symbolOutcome pa e asRead false) else .next s

/-- CORRECTED_WRITEBACK (R328): the unit holds its corrected value, which is what this model stores; a write that came first has
cancelled it. -/
def execCorrectedWriteback (pa : Nat) (s : State) : Host.Outcome State Fault Refusal :=
  match tget s.bases (paStack pa) with
  | none => .next s
  | some k => .next (s.setStack (paStack pa) { k with writebacks := k.writebacks.filter (· != pa / 64 * 64) })

/-- The nibble mask of two 64-bit masks: low and high halves of the bytes (R353, R356). -/
def nibbleMask (lo hi : W64) : Nat :=
  (List.range 64).foldl (fun m i =>
    m + (if bitAt lo i then 2 ^ (2 * i) else 0) + (if bitAt hi i then 2 ^ (2 * i + 1) else 0)) 0

/-- MASKED_WRITE (R332). -/
def execMaskedWrite (pa : Nat) (lo hi : W64) (data : UnitData) (s : State) : Host.Outcome State Fault Refusal :=
  if dataPa pa then
    .next (s.landUnit pa { addr := pa / 64 * 64, mask := nibbleMask lo hi, data := data.toNat, poison := false })
  else .next s

/-- `s` after a patrol has found a tag mismatch: reported, tested, and the unit left as it is (R334, R397). -/
def State.patrolMismatch (s : State) (pa : Nat) : State :=
  (s.memReport Code.MEM_TAG_MISMATCH pa).trigger (memSource pa) Code.MEM_TAG_MISMATCH pa

/-- The granule of `pa` is being zero scrubbed: by a re-bind, or by the boot sequence, which leaves granule 0 of each stack (R31, R334,
R431). -/
def State.scrubbing (s : State) (pa : Nat) : Bool :=
  (s.boot == .scrub && pa % 0x1000000000 / 0x40000000 != 0) ||
    match s.rebind with
    | some r => r.phase == .scrub && r.grans.contains (pa / 0x40000000)
    | none => false

/-- `s` after a patrol has looked at the tag of the unit at `pa`, which its code found good or has corrected (R334, R340). -/
def State.patrolTag (s : State) (pa : Nat) (e : Ecc) : State :=
  if e ≠ .uncorrectable && s.tagAt pa = .mismatch then s.patrolMismatch pa else s

/-- PATROL_SCRUB (R334). -/
def execPatrolScrub (pa : Nat) (e : Ecc) (asRead : UnitData) (s : State) : Host.Outcome State Fault Refusal :=
  if !s.stackAnswers pa || s.scrubbing pa || s.regFld (stkK (paStack pa) 0x18) 0 16 == 0 then .next s
  else
    .next (((s.channelPassed pa).symbolOutcome pa e asRead true).patrolTag pa e)

/-- `s` after the SEC-DED codes' outcome on a unit of a gallery share or a chamber (R340). -/
def State.sramOutcome (s : State) (addr : Nat) (e : Ecc) (asRead : UnitData) (patrol : Bool) : State :=
  match e with
  | .clean => s
  | .corrected => s.unitCorrected addr
  | .uncorrectable => (s.writeUnit addr (unitBytes asRead) true).unitUncorr addr patrol

/-- SRAM_PATROL (R340): a read of a unit of a gallery share or a chamber, by the patrol, which looks at the tag as well, or by an access
(`patrol` false), whose consumer looks at the tag itself. -/
def execSramPatrol (addr : Nat) (f : SramFinding) (asRead : UnitData) (s : State) : Host.Outcome State Fault Refusal :=
  if !dataPa addr || addr < stackEnd || s.deadAt addr != none then .next s
  else
    let t := s.sramOutcome addr f.ecc asRead f.patrol
    .next (if f.patrol then t.patrolTag addr f.ecc else t)

/-- REFRESH (R338). -/
def execRefresh (st : Fin 12) (s : State) : Host.Outcome State Fault Refusal :=
  .next (s.setStack st { s.stack st with refreshes := (s.stack st).refreshes + 1 })

/-- The die link of a stack has failed (R325). -/
def State.linkFailed (s : State) (st : Nat) : Bool := s.regBit (stkK st 0x8) 1

/-- FLIT_REPLAY (R325): a flit is replayed, and arrives or fails its CRC again. The eighth failed replay of one flit starts a retraining. -/
def execFlitReplay (r : FlitTry) (s : State) : Host.Outcome State Fault Refusal :=
  let k := s.stack r.stack
  let n := tgetD k.flits r.flit 0 + 1
  if s.linkFailed r.stack || k.linkTraining then .next s
  else if r.ok then .next (s.setStack r.stack { k with flits := tdel k.flits r.flit })
  else if 8 ≤ n then .next (s.setStack r.stack { k with flits := [], linkTraining := true })
  else .next (s.setStack r.stack { k with flits := tset k.flits r.flit n })

/-- `s` after a lasting link failure of a stack: reported, and the stack retired under AUTODIS (R326, R397, R400). -/
def State.linkLost (s : State) (st : Nat) (u : W16) (pa : Nat) : State :=
  let t := s.report 0x03 Code.MEM_LINK_FAILED u { addr := BitVec.ofNat 64 pa, detail := s.reg (stkK st 0x30) }
  if t.autoDis (srcOf 0x9 st) then t.startDisable (srcOf 0x9 st) else t

/-- The firmware trains the links and channels of the stacks (R431 step 5), so that an end of training is the end of that one (R459; DEDUCED,
log 101). -/
def State.bootTrains (s : State) : Bool := s.boot == .firmware

/-- DIE_LINK_RETRAIN_END (R325, R459). -/
def execDieLinkRetrainEnd (st : Fin 12) (ok : Bool) (s : State) : Host.Outcome State Fault Refusal :=
  let k := s.stack st
  if !k.linkTraining && (s.linkFailed st || !s.bootTrains) then .next s
  else
    let t := s.setStack st { k with linkTraining := false, flits := [] }
    if ok then .next t
    else .next ((t.setBit (stkK st 0x8) 1 true).linkLost st (srcOf 0x9 st) (st * 0x1000000000))

/-- STK_CH_STAT of a channel. -/
def chK (st ch : Nat) : Nat := stkK st (0x800 + 8 * ch)

/-- A channel has failed; a channel retrains (R326). -/
def State.chFailed (s : State) (st ch : Nat) : Bool := s.regBit (stkK st 0x8) (32 + ch)
def State.chTraining (s : State) (st ch : Nat) : Bool := s.regBit (chK st ch) 62

/-- The source of a report about a channel: its first pseudo-channel (DEDUCED, log 42). -/
def chSource (st ch : Nat) : W16 := srcOf 0x8 (64 * st + 2 * ch)

/-- `s` with a channel failed (R326). -/
def State.failChannel (s : State) (st ch : Nat) : State :=
  let k := s.stack st
  let t := s.setStack st { k with chTries := tdel k.chTries ch, chSecond := k.chSecond.filter (· != ch) }
  ((t.setBit (stkK st 0x8) (32 + ch) true).setBit (chK st ch) 62 false).linkLost st (chSource st ch) (paOf st (2 * ch) 0)

/-- Retries per request: STK_CTRL.RETRY, where 0 acts as 1 (R343). -/
def State.retries (s : State) (st : Nat) : Nat := max 1 (s.regFld (stkK st 0) 4 4)

/-- DRAM_PARITY_FAIL (R326). -/
def execDramParityFail (st : Fin 12) (ch : Fin 32) (s : State) : Host.Outcome State Fault Refusal :=
  let k := s.stack st
  let n := tgetD k.chTries ch 0
  if s.chFailed st ch || s.chTraining st ch then .next s
  else if n < s.retries st then
    .next (((s.setStack st { k with chTries := tset k.chTries ch (n + 1) }).countSat (chK st ch) 0 16 1).report 0x03
      Code.MEM_LINK_RETRY (chSource st ch) { addr := BitVec.ofNat 64 (paOf st (2 * ch) 0), detail := s.reg (stkK st 0x30) })
  else if k.chSecond.contains ch then .next (s.failChannel st ch)
  else
    .next (((s.setStack st { k with chTries := tdel k.chTries ch }).countSat (chK st ch) 16 16 1).setBit (chK st ch) 62 true)

/-- CHANNEL_RETRAIN_END (R326, R459). -/
def execChannelRetrainEnd (st : Fin 12) (ch : Fin 32) (ok : Bool) (s : State) : Host.Outcome State Fault Refusal :=
  if !s.chTraining st ch && (s.chFailed st ch || !s.bootTrains) then .next s
  else if !ok then .next (s.failChannel st ch)
  else if s.chTraining st ch then
    .next ((s.setBit (chK st ch) 62 false).setStack st { s.stack st with chSecond := (s.stack st).chSecond ++ [ch.val] })
  else .next s

/-- The stack that holds the spill region of a quay (R31). -/
def spillStack (qy : Nat) : Nat := if qy < 4 then qy else qy + 2

/-- A granule of stack `st` is bound to one of contexts 1 to 15 (R337). -/
def State.stackBound (s : State) (st : Nat) : Bool :=
  s.regs.any fun p =>
    let o := p.1 - 0x100000
    0x110000 ≤ p.1 && p.1 < 0x200000 && 0x800 ≤ o % 0x10000 && o % 0x10000 < 0x2000 && bitAt p.2 63 && fld p.2 0 10 / 64 == st

/-- A write that sets OFFLINE of stack `st` is refused (R337). -/
def State.offlineRefused (s : State) (st : Nat) : Bool :=
  s.stackBound st || (List.range 8).any fun qy => spillStack qy == st && s.regBit (quayK qy 0x8) 63

/-- `s` after a write of STK_CTRL (R337, R343). -/
def State.stkCtrlWrite (s : State) (st : Nat) (v : W64) : State :=
  let t := s.setFld (stkK st 0) 4 4 (fld v 4 4)
  if !bitAt v 0 then t.setBit (stkK st 0) 0 false
  else if t.regBit (stkK st 0) 0 then t
  else if t.offlineRefused st then t.setBit (stkK st 0x8) 0 true
  else t.setBit (stkK st 0) 0 true

/-- OFFLINE_WRITE (R337). -/
def execOfflineWrite (ctx : Fin 16) (st : Fin 12) (v : W64) (s : State) : Host.Outcome State Fault Refusal :=
  .next (s.asRoot ctx (stkK st 0) fun s => s.stkCtrlWrite st v)

/-- Offset `o` of the echo registers of a channel (R343). -/
def echoK (st ch o : Nat) : Nat := stkK st (0x1000 + 0x20 * ch + o)

/-- `s` after GO with the fields of `v` (R336): refused with BADCMD, or a run. A GO with MODE 000 runs nothing. -/
def State.echoStart (s : State) (st ch : Nat) (v : W64) : State :=
  let m := fld v 35 3
  if m = 0 then s
  else if 4 ≤ m || (2 ≤ m && !s.regBit (stkK st 0) 0) then s.setBit (echoK st ch 0) 60 true
  else
    let k := s.stack st
    (s.setBit (echoK st ch 0) 62 true).setStack st { k with echo := tset k.echo ch (v, s.reg (echoK st ch 8)) }

/-- `s` after a write of STK_ECHO_CTRL (R336, R343). -/
def State.echoWrite (s : State) (st ch : Nat) (v : W64) : State :=
  let k := echoK st ch 0
  let o := s.reg k
  let o := putBit (putBit o 61 (bitAt o 61 && !bitAt v 61)) 60 (bitAt o 60 && !bitAt v 60)
  let t := s.setReg k (putFld o 0 38 (fld v 0 38))
  if bitAt v 63 && !s.regBit k 62 then t.echoStart st ch v else t

/-- ECHO_GO (R336). -/
def execEchoGo (ctx : Fin 16) (st : Fin 12) (ch : Fin 32) (v : W64) (s : State) : Host.Outcome State Fault Refusal :=
  .next (s.asRoot ctx (echoK st ch 0) fun s => s.echoWrite st ch v)

/-- Units of a pseudo-channel (R322). -/
def State.pchUnits (s : State) : Nat := if s.short then 0xC00000 else 0x1000000

/-- Units of an echo range within a pseudo-channel (R343); a range that reaches past the end stops there (DESIGN CHOICE, log 40). -/
def State.echoLen (s : State) (range : W64) : Nat :=
  let n := fld range 34 24
  let top := s.pchUnits - fld range 6 24
  if n = 0 then top else min n top

/-- Pseudo-channels of a run (R343). -/
def echoPchs (ctrl : W64) (ch : Nat) : List Nat :=
  match fld ctrl 31 2 with
  | 1 => [2 * ch]
  | 2 => [2 * ch + 1]
  | _ => [2 * ch, 2 * ch + 1]

/-- One step of the shift register of x^31 + x^28 + 1: its 31 bits, newest in bit 0; the new bit is the sum of the bits 31 and 28 steps
old (R336). -/
def prbsStep (x : BitVec 31) : BitVec 31 := (x <<< 1) ||| (BitVec.ofBool (x.getLsbD 30 != x.getLsbD 27)).setWidth 31

/-- `x` after `n` steps. -/
def prbsSkip : Nat → BitVec 31 → BitVec 31
  | 0, x => x
  | n + 1, x => prbsSkip n (prbsStep x)

/-- `n` bits of the sequence from state `x`, first bit first: each is the bit that a step brings in. -/
def prbsBits : Nat → BitVec 31 → List Bool
  | 0, _ => []
  | n + 1, x => (prbsStep x).getLsbD 0 :: prbsBits n (prbsStep x)

/-- The 512 bits that PRBS-31 from a seed puts at unit number `u` of pseudo-channel `p`, in a run from unit `lo`, in the order of the
sequence. -/
def prbsUnit (seed lo p u : Nat) : List Bool :=
  prbsBits 512 (prbsSkip (512 * Config.echoPlace lo p u) (BitVec.ofNat 31 seed))

/-- The unit that a pattern puts at unit number `u` of pseudo-channel `p`, in a run from unit `lo` (R336). -/
def echoUnit (ctrl : W64) (lo p u : Nat) : List Byte :=
  match fld ctrl 33 2 with
  | 0 =>
    let b := prbsUnit (max 1 (fld ctrl 0 31)) lo p u
    unitBytes (BitVec.ofNat 512 ((List.range 512).foldl (fun n i => if b.getD (Config.echoOrder i).toNat false then n + 2 ^ i else n) 0))
  | 1 => ((List.range 8).map fun i => leBytes 8 (64 * u + 8 * i)).flatten
  | 2 => List.replicate 64 (if (u + Config.echoPhase 2) % 2 = 0 then 0x00 else 0xFF)
  | _ => (List.replicate 8 (leBytes 8 (2 ^ ((u + Config.echoPhase 3) % 64)))).flatten

/-- `s` with a unit of pseudo-channel `p` of a stack written by its echo unit, with a good tag. -/
def State.echoPut (s : State) (st p u : Nat) (bs : List Byte) : State :=
  let pa := paOf st p (64 * u)
  { s with mem := memWrite s.mem pa bs, tags := tdel s.tags (pa / 64) }

/-- `s` with the pattern of a run written over its range. -/
def State.echoFill (s : State) (st ch : Nat) (ctrl range : W64) : State :=
  (echoPchs ctrl ch).foldl (fun s p =>
    (List.range (s.echoLen range)).foldl (fun s i => s.echoPut st p (fld range 6 24 + i) (echoUnit ctrl (fld range 6 24) p (fld range 6 24 + i))) s) s

/-- STK_ECHO_ERR of a difference (R343). -/
def echoErrWord (d : EchoDiff) : W64 :=
  putFld (putFld (putBit (putBit 0 63 true) 62 d.psel) 30 2 d.kind.toNat) 6 24 d.unit.toNat

/-- `s` with the differences of a run recorded, counted and reported once (R337). -/
def State.echoFound (s : State) (st ch : Nat) (diffs : List EchoDiff) : State :=
  match diffs with
  | [] => s
  | d :: _ =>
    let p := 2 * ch + d.psel.toNat
    ((s.countSat (echoK st ch 0x10) 32 32 diffs.length).first (echoK st ch 0x18) (echoErrWord d)).report 0x03 Code.ECHO_MISMATCH
      (srcOf 0x8 (64 * st + p)) { addr := BitVec.ofNat 64 (paOf st p (64 * d.unit.toNat)), detail := s.reg (stkK st 0x30) }

/-- ECHO_RUN_END (R336, R337). -/
def execEchoRunEnd (st : Fin 12) (ch : Fin 32) (diffs : List EchoDiff) (s : State) : Host.Outcome State Fault Refusal :=
  let k := s.stack st
  match tget k.echo ch with
  | none => .next s
  | some (ctrl, range) =>
    let t := (s.setStack st { k with echo := tdel k.echo ch }).setReg (echoK st ch 0)
      (putBit (putBit (s.reg (echoK st ch 0)) 62 false) 61 true)
    let t := if fld ctrl 35 3 = 2 then t.echoFill st ch ctrl range else t
    .next ((t.countSat (echoK st ch 0x10) 0 32 ((echoPchs ctrl ch).length * s.echoLen range)).echoFound st ch diffs)

end Sys2Proof.Machine
end

