-- ==== Sys2Proof/Machine/Target.lean ====
section
/-! DEFINITION. A quay as the target of Soxis requests: drops, notifications, the sequence and epoch checks, and the requests
(14_quays_and_soxis_fabric.md R348, R354 to R364, R370, R372, R373). -/

namespace Sys2Proof.Machine

/-- `s` with a Fabric-class report of a quay (R376, R394). -/
def State.quayReport (s : State) (qy : Nat) (code : W16) (ctx : Nat := 0xFF) (addr : W64 := 0) : State :=
  s.report 0x04 code (srcOf 0xA qy) { context := ctx, addr := addr, detail := s.reg (quayK qy 0x50) }

/-- `s` with a drop counted, and FAB_PARTNER_VIOLATION reported at most once per second per quay and reason (R372). -/
def State.drop (s : State) (qy r : Nat) : State :=
  let t := s.count (quayK qy (0x100 + 8 * r)) 1
  if t.violations.any fun x => x.1 == qy && x.2.1 == r && (t.time - x.2.2).toNat < 500000000 then t
  else
    ({ t with violations := (qy, r, t.time) :: t.violations.filter (fun x => !(x.1 == qy && x.2.1 == r)) } : State).quayReport qy
      Code.FAB_PARTNER_VIOLATION

/-- The link of a quay is up (R347). -/
def State.linkUp (s : State) (qy : Nat) : Bool := s.regBit (quayK qy 0x8) 63

/-- A packet's queue pair takes it: known, READY, and the P_Key is its own (R349, R372). -/
def State.qpTakes (s : State) (p : Packet) : Bool :=
  p.qp < 16384 && s.qpState p.qp == 1 && s.qpFld p.qp 0 29 16 == p.pkey.toNat

/-- `s` with a congestion notification sent for a marked packet, at most one per queue pair per CNPGAP µs (R364). -/
def State.notify (s : State) (p : Packet) : State :=
  let x := s.qp p.qp
  if p.ce && (match x.lastCnp with
      | some t => 500 * s.regFld (quayK (s.qpQuay p.qp) 0x40) 40 8 ≤ (s.time - t).toNat
      | none => true) then
    (s.setQp p.qp { x with lastCnp := some s.time }).sendOut p.qp none
  else s

/-- `s` after a received Soxis packet has been looked at: dropped unless its queue pair takes it, else acted on. -/
def State.taken (s : State) (qy : Nat) (p : Packet) (f : State → State) : State :=
  if !s.qpTakes p then s.drop qy 4 else f (s.notify p)

/-- The response to a request (R353, R354). -/
def State.answer (s : State) (p : Packet) (op : BitVec 8) : Packet :=
  { s.packet p.qp op p.psn with tdev := p.sdev }

/-- `s` with a request refused (R372, R373). -/
def State.refuseReq (s : State) (qy : Nat) (p : Packet) (reason : BitVec 8) : State :=
  (s.count (quayK qy 0x158) 1).sendOut p.qp (some { s.answer p 0x4F with status := reason, opa := s.epoch.setWidth 64 })

/-- Expected PSN of a queue pair, and the distance of a packet's PSN above it modulo 2^24 (R361). -/
def State.epsn (s : State) (n : Nat) : Nat := s.qpFld n 5 0 24
def State.psnDist (s : State) (p : Packet) : Nat := (p.psn - BitVec.ofNat 24 (s.epsn p.qp)).toNat

/-- How a request stands in its queue pair's sequence (R361). -/
inductive Order where
  | next | duplicate | above
deriving DecidableEq, Repr

/-- The order of a request: a PSN up to 2^23 - 1 above EPSN is above it, any other than EPSN below (DEDUCED, log 43). -/
def State.order (s : State) (p : Packet) : Order :=
  if s.psnDist p = 0 then .next else if s.psnDist p < 2 ^ 23 then .above else .duplicate

/-- `s` after a request above EPSN: one NAK_SEQ per gap, none behind an epoch refusal (R361, R370). -/
def State.gap (s : State) (p : Packet) : State :=
  if (s.qp p.qp).gapNak then s
  else (s.setQp p.qp { s.qp p.qp with gapNak := true }).sendOut p.qp
    (some { s.answer p 0x4E with opa := BitVec.ofNat 64 (s.epsn p.qp) })

/-- The epoch of a request is accepted (R370). -/
def State.epochOk (s : State) (p : Packet) : Bool := p.epoch == s.epoch || p.epoch == s.epoch - 1

/-- `s` with EPSN past a request (R361). -/
def State.psnConsumed (s : State) (p : Packet) : State :=
  (s.setQpFld p.qp 5 0 24 (s.epsn p.qp + 1)).setQp p.qp { s.qp p.qp with gapNak := false }

/-- What a request comes to: refused with a reason, or performed; `false`: its PSN is not consumed. -/
abbrev Performed := State × Bool

/-- The checks of every request before its own: VER, OP, TDEV (R372). `op`: the code of its command. -/
def State.headReason (s : State) (p : Packet) (op : BitVec 8) : Option (BitVec 8) :=
  if p.ver ≠ 1 then some 6
  else if p.op ≠ op then some 5
  else if p.tdev.toNat ≠ s.fuses.device then some 2
  else none

/-- `s` after a request packet (R361, R370). `op`: its code; `f`: its performance, told whether it is a duplicate. -/
def State.requested (s : State) (qy : Nat) (p : Packet) (op : BitVec 8) (f : Bool → State → Performed) : State :=
  s.taken qy p fun s =>
    match s.order p with
    | .above => s.gap p
    | .duplicate =>
      match s.headReason p op with
      | some r => s.refuseReq qy p r
      | none => (f true s).1
    | .next =>
      if !s.epochOk p then (s.setQp p.qp { s.qp p.qp with gapNak := true }).refuseReq qy p 1
      else match s.headReason p op with
        | some r => (s.refuseReq qy p r).psnConsumed p
        | none =>
          let r := f false s
          if r.2 then r.1.psnConsumed p else r.1

/-- The address checks of a request for `n` units at an alignment (R355, R360, R372): ADDR, or BIND. -/
def State.targetReason (s : State) (p : Packet) (n align_ : Nat) (imem : Bool) : Option (BitVec 8) :=
  let a := p.addr.toNat
  let o := offOf a
  if spaceOf a ≠ 1 || midOf a ≠ s.fuses.device || o % align_ ≠ 0 || s.qpUnits p.qp < n || 4096 < o % 4096 + 64 * n then some 3
  else
    let ps := (List.range (max 1 n)).map fun i => s.localPlace (s.qpCtx p.qp) (o + 64 * i)
    if ps.contains .bad || (!imem && regionOf o == some 3) then some 3
    else if ps.contains .miss then some 4
    else none

/-- `s` with a request turned away; its PSN is consumed. A BIND refusal logs the first unbound slot's address as a binding violation
(R27). -/
def State.turnedAway (s : State) (qy : Nat) (p : Packet) (reason : BitVec 8) : Performed :=
  let ctx := s.qpCtx p.qp
  let o := offOf p.addr.toNat
  let s := match reason == 4, ((List.range (max 1 p.nunits.toNat)).map (o + 64 * ·)).find? fun a => s.localPlace ctx a == .miss with
    | true, some a => s.missed ctx a
    | _, _ => s
  (s.refuseReq qy p reason, true)

/-- The number of units a request carries does not match its NUNITS: the frame is not as long as its headers say (R372, reason 1). -/
def lengthBad (p : Packet) : Bool := p.units.length != p.nunits.toNat

/-- The units of the target's memory as the transmit path sends them (R363). -/
def State.sendUnits (s : State) (ctx o n : Nat) : List SoxUnit :=
  (List.range n).map fun i =>
    match s.localPlace ctx (o + 64 * i) with
    | .mem pa => let u := s.readUnit pa; soxUnit u.data (u.tag == .good)
    | _ => { data := 0, tag := 0 }

/-- READ (R354, R358, R361): a duplicate is performed again. -/
def State.readReq (qy : Nat) (p : Packet) (_dup : Bool) (s : State) : Performed :=
  match s.targetReason p p.nunits.toNat 64 true with
  | some r => s.turnedAway qy p r
  | none =>
    ((s.wakeAll (s.qpCtx p.qp) ((List.range p.nunits.toNat).map fun i => offOf p.addr.toNat + 64 * i)).sendOut p.qp
      (some { s.answer p 0x41 with
        nunits := p.nunits, units := s.sendUnits (s.qpCtx p.qp) (offOf p.addr.toNat) p.nunits.toNat }), true)

/-- A carried unit is good (R363). -/
def goodUnit (u : SoxUnit) : Bool := u.tag == checkTag (unitBytes u.data)

/-- `s` with FAB_RX_POISON reported for a context (R363, R403). -/
def State.rxPoison (s : State) (qy : Nat) (p : Packet) (ctx : Nat) : State :=
  (s.quayReport qy Code.FAB_RX_POISON ctx p.addr).poisoned ctx

/-- Unit `i` of a write as a unit write with a nibble mask. -/
def wrOf (p : Packet) (i mask : Nat) (u : SoxUnit) : UnitWr :=
  { addr := p.addr.toNat + 64 * i, mask := mask, data := u.data.toNat, poison := !goodUnit u }

/-- `s` after the units of a write have landed (R358, R363). -/
def State.landReq (s : State) (qy : Nat) (p : Packet) (mask : Nat) : State :=
  let ctx := s.qpCtx p.qp
  let t := (s.landAll ctx none (p.units.zipIdx.map fun x => wrOf p x.2 mask x.1)).1
  if p.units.all goodUnit then t else t.rxPoison qy p ctx

/-- `s` with a request acknowledged. -/
def State.ackReq (s : State) (p : Packet) : Performed := (s.sendOut p.qp (some (s.answer p 0x42)), true)

/-- WRITE (R358, R361): a duplicate is acknowledged again without being performed. -/
def State.writeReq (qy : Nat) (p : Packet) (dup : Bool) (s : State) : Performed :=
  if dup then s.ackReq p
  else match s.targetReason p p.nunits.toNat 64 true with
    | some r => s.turnedAway qy p r
    | none => (s.landReq qy p fullMask).ackReq p

/-- WRITE_MASKED (R332, R354). -/
def State.maskedReq (qy : Nat) (p : Packet) (dup : Bool) (s : State) : Performed :=
  if dup then s.ackReq p
  else if p.nunits ≠ 1 then s.turnedAway qy p 3
  else match s.targetReason p 1 64 true with
    | some r => s.turnedAway qy p r
    | none => (s.landReq qy p (nibbleMask p.opa p.opb)).ackReq p

/-- `s` after an atomic on the word at `pa`: a bad unit is not modified (R333, R360). -/
def State.atomicAt (s : State) (cas : Bool) (pa : Nat) (a b : W64) : State × W64 :=
  let r := s.readBytes pa 8
  let old : W64 := BitVec.ofNat 64 (leNat r.data)
  if r.tag = .good then (s.through none pa fun s => s.writePart pa (leBytes 8 (atomNew cas old a b).toNat), old) else (s, old)

/-- `s` with an atomic's answer sent. -/
def State.atomicAnswer (s : State) (p : Packet) (old : W64) : Performed :=
  (s.sendOut p.qp (some { s.answer p 0x44 with opa := old }), true)

/-- FADD and CAS (R360, R361): a duplicate is answered from the cache, or refused with REPLAY. -/
def State.atomicReq (cas : Bool) (qy : Nat) (p : Packet) (dup : Bool) (s : State) : Performed :=
  if dup then
    match (s.qp p.qp).cache.find? (fun e => e.1 == p.psn) with
    | some e => s.atomicAnswer p e.2
    | none => s.turnedAway qy p 8
  else match s.targetReason p 0 8 false with
    | some r => s.turnedAway qy p r
    | none =>
      match s.localPlace (s.qpCtx p.qp) (offOf p.addr.toNat) with
      | .mem pa =>
        let r := (s.wakeFor pa).atomicAt cas pa p.opa p.opb
        let x := r.1.qp p.qp
        (r.1.setQp p.qp { x with cache := ((p.psn, r.2) :: x.cache).take 16 }).atomicAnswer p r.2
      | _ => s.turnedAway qy p 4

/-- The address and operand of a CTRL_WRITE are as R357 lays them out. -/
def ctrlFormOk (p : Packet) : Bool :=
  spaceOf p.addr.toNat == 2 && p.addr.toNat % 0x4000000000000000 / 0x10000 == 0 && fld p.addr 6 6 == 0 &&
    p.opa.toNat / 0x2000 == 0 && !bitAt p.opa 7 && fld p.opa 0 7 ≤ 64 && p.nunits.toNat == (if fld p.opa 0 7 = 0 then 0 else 1)

/-- The cluster that a CTRL_WRITE reaches through a channel configured for its queue pair (R308, R315, R372). -/
def State.ctrlChan (s : State) (p : Packet) : Option Nat :=
  match s.cluOf (s.qpCtx p.qp) (fld p.addr 12 4) with
  | some g =>
    let k := cluK g (0x4000 + 8 * fld p.addr 0 6)
    if s.cluUp g && s.regFld k 62 2 == 2 && s.regFld k 16 14 == p.qp then some g else none
  | none => none

/-- The message unit of a CTRL_WRITE: LEN bytes, then zeros. -/
def ctrlMsg (p : Packet) : UnitData :=
  unitOf ((unitBytes ((p.units.map (·.data)).headD 0)).take (fld p.opa 0 7) ++ zeros (64 - fld p.opa 0 7))

/-- `s` with a CTRL_WRITE delivered into channel `ch` of cluster `g` (R310, R311, R363). -/
def State.ctrlDeliver (s : State) (qy : Nat) (p : Packet) (g ch : Nat) : State :=
  let len := fld p.opa 0 7
  if len = 0 then s.ring_ g (fld p.opa 8 5)
  else
    let t := s.deliver g ch (.qp p.sdev.toNat (s.qpCtx p.qp) p.qp) len (fld p.opa 8 5) (ctrlMsg p) (!p.units.all goodUnit)
    if p.units.all goodUnit then t else t.rxPoison qy p (s.qpCtx p.qp)

/-- CTRL_WRITE (R315, R357): a full channel answers RNR, and the request's PSN is not consumed (DEDUCED, log 44). -/
def State.ctrlReq (qy : Nat) (p : Packet) (dup : Bool) (s : State) : Performed :=
  if dup then s.ackReq p
  else if !ctrlFormOk p then s.turnedAway qy p 3
  else match s.ctrlChan p with
    | none => s.turnedAway qy p 7
    | some g =>
      if fld p.opa 0 7 ≠ 0 && s.mbFull g (fld p.addr 0 6) then (s.sendOut p.qp (some { s.answer p 0x4D with opa := 10 }), false)
      else (s.ctrlDeliver qy p g (fld p.addr 0 6)).ackReq p

/-- READ served (R354). -/
def State.servedRead (s : State) (qy : Nat) (p : Packet) : State := s.requested qy p 1 (State.readReq qy p)

/-- WRITE served (R354, R358). -/
def State.servedWrite (s : State) (qy : Nat) (p : Packet) : State := s.requested qy p 2 (State.writeReq qy p)

/-- WRITE_MASKED served (R354). -/
def State.servedWriteMasked (s : State) (qy : Nat) (p : Packet) : State := s.requested qy p 3 (State.maskedReq qy p)

/-- FADD served (R360). -/
def State.servedFadd (s : State) (qy : Nat) (p : Packet) : State := s.requested qy p 4 (State.atomicReq false qy p)

/-- CAS served (R360). -/
def State.servedCas (s : State) (qy : Nat) (p : Packet) : State := s.requested qy p 5 (State.atomicReq true qy p)

/-- CTRL_WRITE served (R357). -/
def State.servedCtrlWrite (s : State) (qy : Nat) (p : Packet) : State := s.requested qy p 6 (State.ctrlReq qy p)

end Sys2Proof.Machine
end

