-- ==== Sys2Proof/Machine/Requester.lean ====
section
/-! DEFINITION. A quay as the requester: responses, retransmission, failures, queue-pair commands, rates, pauses and links
(14_quays_and_soxis_fabric.md R346 to R351, R361 to R373). -/

namespace Sys2Proof.Machine

/-- The instruction in flight with an id. -/
def State.flight (s : State) (c : Nat) (q : Queue) (id : Nat) : Option InFlight := (s.queue c q).inflight.find? (·.id == id)

/-- `s` with an instruction in flight done, with an error that does not replace an earlier one (`at_`: the bad unit that caused it), events
and a hold. -/
def State.remoteWork (s : State) (c : Nat) (q : Queue) (id : Nat) (w : Work) (err : Option W16) (ev : List W16) (h : Hold)
    (at_ : Nat := 0) : State :=
  s.mapFlight c q id fun f =>
    { f with work := w, error := f.error.or err, events := f.events ++ ev, hold := h,
             errAt := if f.error.isNone && err.isSome then BitVec.ofNat 64 (at_ / 64 * 64) else f.errAt }

/-- `s` with the failure recorded of a request for a unit whose queue pair has left READY since the instruction issued (R352, R362, R374). -/
def State.noteLost (s : State) (ctx a : Nat) : State :=
  match s.route ctx (midOf a) with
  | .bad e => if e = Code.FAB_QP_STATE then s.failEarly (s.routeQp ctx (midOf a)) else s
  | .home _ => s

/-- A job with units that no queue pair can fetch marked as failed (R352, R362). -/
def State.unreachable (s : State) (j : Job) (needs : List Nat) : List RemoteUnit :=
  (needs.filter fun a => match s.route j.ctx (midOf a) with | .bad _ => true | .home _ => false).map fun a =>
    { addr := a, unit := none }

/-- `s` with an LDQ that has received what it asked for: it runs, or asks for more; what it cannot ask for fails (R288, R352, R362). -/
def State.ldqNext (s : State) (c : Nat) (q : Queue) (f : InFlight) (j : Job) : State :=
  let needs := if ldqEmpty j then [] else s.ldqNeeds j
  let lost := s.unreachable j needs
  let ask := needs.filter fun a => !lost.any (·.addr == a)
  let j := { j with units := j.units ++ lost }
  let s := lost.foldl (fun s u => s.noteLost j.ctx u.addr) s
  let err := if lost = [] then none else some Code.FAB_QP_ERROR
  if ask = [] then
    let e := s.ldqRun c q f.pc j
    e.st.remoteWork c q f.id .done (err.or e.error) e.events e.hold (if err.isSome then 0 else e.errAt)
  else
    (s.remoteWork c q f.id (.gather j) err [] .none).requestUnits (.instr c q f.id) j.ctx ask

/-- `s` with a mover instruction that has received its whole source run (R264, R265, R288). -/
def State.gathered (s : State) (c : Nat) (q : Queue) (f : InFlight) (j : Job) : State :=
  match j.op with
  | .ldq => s.ldqNext c q f j
  | .stq =>
    let (x, sc) := s.stqElems j.ctx j.w j.seed (jobTensor j 0 3) (jobTensor j 1 3) (jobTensor j 2 3) j.units
    let (t, w, e) := s.finishMove c q f.pc j.w.optag j.ctx f.id x (groupWrites x.writes.reverse ++ groupWrites sc.reverse)
    t.remoteWork c q f.id w e [] .none x.errs.at_
  | _ =>
    let x := s.copyElems j.ctx j.w j.seed (jobTensor j 0 2) (jobTensor j 1 2) j.units
    let (t, w, e) := s.finishMove c q f.pc j.w.optag j.ctx f.id x (groupWrites x.writes.reverse)
    t.remoteWork c q f.id w e [] .none x.errs.at_

/-- `s` with a gather that has received its whole source run, unless it wakes gated clusters: then it runs when they are awake (R429). -/
def State.gatherEnd (s : State) (c : Nat) (q : Queue) (f : InFlight) (j : Job) : State := s.unlessGated (s.gathered c q f j)

/-- `s` with the gathers run that have received what they asked for and waited for clusters to wake (R429). -/
def State.resumeGathers (s : State) : State :=
  s.queues.foldl (fun s p =>
    let c := p.1 / 6
    let q := (allQueues[p.1 % 6]?).getD .mqf
    p.2.inflight.foldl (fun s f =>
      match f.work with
      | .gather j => if s.owes (.instr c q f.id) then s else s.gatherEnd c q f j
      | _ => s) s) s

/-- The units that a READ asked for, as received; `none`: the READ failed and delivers +0 (R362, R363). -/
def unitsRead (r : Req) (p : Option Packet) : List RemoteUnit :=
  (List.range r.nunits).map fun i =>
    { addr := r.addr.toNat + 64 * i, unit := p.bind fun p => p.units[i]? }

/-- `s` with the answer to a request of an instruction taken: `none`: the request failed with `err` (R362). -/
def State.tookAnswer (s : State) (c : Nat) (q : Queue) (f : InFlight) (r : Req) (p : Option Packet) (err : Option W16) : State :=
  let more := s.owes r.owner
  match f.work with
  | .gather j =>
    let j := { j with units := j.units ++ unitsRead r p }
    let t := s.remoteWork c q f.id (.gather j) err [] .none
    if more then t else t.gatherEnd c q f j
  | .acks => s.remoteWork c q f.id (if more then .acks else .done) err [] .none
  | .atomic res =>
    let old := match p with | some p => p.opa | none => 0
    (s.writePart (chamPa c res) (leBytes 8 old.toNat)).remoteWork c q f.id .done err [] .none
  | _ => s

/-- `s` with a request of this device ended. The kerb monitor looks at no answer; an abandoned instruction takes none (R150, R382). -/
def State.ended (s : State) (r : Req) (p : Option Packet) (err : Option W16) : State :=
  match r.owner with
  | .kerb _ => s
  | .instr c q id =>
    match s.flight c q id with
    | some f => s.tookAnswer c q f r p err
    | none => s

/-- `s` with a failed request recorded and ended (R362). -/
def State.failReq (s : State) (n reason : Nat) (code : W16) (r : Req) : State :=
  (s.first (quayK (s.qpQuay n) 0x50) (qpErrWord n reason code r.psn)).ended r none (some code)

/-- `s` with a queue pair in ERROR: every request outstanding or waiting fails (R351, R362). -/
def State.failQp (s : State) (n reason : Nat) (code : W16) : State :=
  let x := s.qp n
  let t := (s.setQpFld n 0 61 3 2).setQp n { x with outstanding := [], queued := [], holdOff := false, resume := none }
  (x.outstanding ++ x.queued).foldl (fun s r => s.failReq n reason code r) t

/-- The requests at and after the PSN from which a queue pair resumes, marked as to be sent again; none: every one. -/
def markDue (psn : Option (BitVec 24)) : List Req → List Req
  | [] => []
  | r :: rest =>
    if psn.isNone || psn == some r.psn then (r :: rest).map fun o => { o with due := true, retx := true } else r :: markDue psn rest

/-- `s` with the outstanding requests of a queue pair sent again, from a PSN or from the oldest, as far as may be (R361, R371). -/
def State.resend (s : State) (n : Nat) (psn : Option (BitVec 24)) : State :=
  (s.setQp n { s.qp n with outstanding := markDue psn (s.qp n).outstanding }).pumpQuay (s.qpQuay n)

/-- `s` with a queue pair retransmitting from its oldest unacknowledged PSN, or in ERROR after RETRY retransmissions of that PSN without a
response (R361, R362). -/
def State.goBack (s : State) (n : Nat) : State :=
  match (s.qp n).outstanding with
  | [] => s
  | r :: _ => if s.qpFld n 0 50 3 ≤ r.tries then s.failQp n 0 Code.FAB_TIMEOUT else s.resend n none

/-- `s` with a request no longer outstanding; what waited behind a limit may go (R356, R366). -/
def State.retired (s : State) (n : Nat) (psn : BitVec 24) : State :=
  s.setQp n { s.qp n with outstanding := (s.qp n).outstanding.filter (·.psn != psn) }

/-- `s` after a response that does not fit its request (R372, reason 6). -/
def State.unfit (s : State) (qy : Nat) (p : Packet) : State := (s.drop qy 6).failQp p.qp 0 Code.FAB_QP_ERROR

/-- The queue pair has sent the PSN since it became READY (R361). -/
def State.sentPsn (s : State) (p : Packet) : Bool :=
  let d := (BitVec.ofNat 24 (s.qpFld p.qp 5 24 24) - p.psn).toNat
  0 < d && d ≤ (s.qp p.qp).sent

/-- `s` after a response packet (R361, R372). `fits`: the kind and size of the response fit the request; `f`: its effect. -/
def State.responded (s : State) (qy : Nat) (p : Packet) (op : BitVec 8) (fits : Req → Bool) (f : Req → State → State) : State :=
  s.taken qy p fun s =>
    if p.op ≠ op then s.drop qy 5
    else match (s.qp p.qp).outstanding.find? (·.psn == p.psn) with
      | none => if s.sentPsn p then s else s.drop qy 5
      | some r => if fits r then f r s else s.unfit qy p

/-- `s` with one answered request ended. -/
def State.answered (s : State) (p : Packet) (r : Req) : State :=
  ((s.retired p.qp r.psn).ended r (some p) none).pumpQuay ((s.retired p.qp r.psn).qpQuay p.qp)

/-- READ_RESP served (R354, R363, R372). -/
def State.servedReadResp (s : State) (qy : Nat) (p : Packet) : State :=
  s.responded qy p 0x41 (fun r => r.op == 1 && p.status == 0 && p.nunits.toNat == r.nunits) fun r s => s.answered p r

/-- A request that an ACK completes. -/
def ackable (r : Req) : Bool := r.op == 2 || r.op == 3

/-- `s` after an ACK of the request `r`: every write up to it is complete (R354). -/
def State.acked (s : State) (p : Packet) (r : Req) : State :=
  let l := (s.qp p.qp).outstanding
  let i := (l.findIdx? (·.psn == r.psn)).getD 0
  ((l.take (i + 1)).filter ackable).foldl (fun s r => (s.retired p.qp r.psn).ended r (some p) none) s

/-- ACK served (R354, R361). -/
def State.servedAck (s : State) (qy : Nat) (p : Packet) : State :=
  s.responded qy p 0x42 (fun r => ackable r && p.nunits == 0 && p.status == 0) fun r s => (s.acked p r).pumpQuay (s.qpQuay p.qp)

/-- ATOMIC_RESP served (R354). -/
def State.servedAtomicResp (s : State) (qy : Nat) (p : Packet) : State :=
  s.responded qy p 0x44 (fun r => (r.op == 4 || r.op == 5) && p.nunits == 0 && p.status == 0) fun r s => s.answered p r

/-- `s` with a queue pair waiting before it repeats from a request, which has had a response (R357, R362, R371). -/
def State.holdQp (s : State) (n : Nat) (r : Req) : State :=
  s.setQp n { s.qp n with
    holdOff := true
    resume := some r.psn
    outstanding := (s.qp n).outstanding.map fun o => if o.psn = r.psn then { o with tries := 0 } else o }

/-- RNR served (R357): the request is sent again after its delay. -/
def State.servedRnr (s : State) (qy : Nat) (p : Packet) : State :=
  s.responded qy p 0x4D (fun _ => p.nunits == 0 && p.status == 0) fun r s => s.holdQp p.qp r

/-- `s` with a queue pair that waited sending again, from the request that was turned away (R357, R371). -/
def State.repeatQp (s : State) (n : Nat) : State :=
  if (s.qp n).holdOff && s.qpState n == 1 then
    (s.setQp n { s.qp n with holdOff := false, resume := none }).resend n (s.qp n).resume
  else s

/-- RNR_DELAY_EXPIRY (R357). -/
def execRnrDelayExpiry (qp : BitVec 14) (s : State) : Host.Outcome State Fault Refusal := .next (s.repeatQp qp.toNat)

/-- EPOCH_RETRY (R371). -/
def execEpochRetry (qp : BitVec 14) (s : State) : Host.Outcome State Fault Refusal := .next (s.repeatQp qp.toNat)

/-- NAK_SEQ served (R361): the requester retransmits from its oldest unacknowledged PSN. -/
def State.servedNakSeq (s : State) (qy : Nat) (p : Packet) : State :=
  s.responded qy p 0x4E (fun _ => p.nunits == 0 && p.status == 0) fun _ s => s.goBack p.qp

/-- The status that a refusal reason gives the requester; none: no reason of R373, or EPOCH (R373). -/
def refusalCode : Nat → Option W16
  | 2 => some Code.FAB_REFUSED
  | 3 => some Code.FAB_REFUSED
  | 4 => some Code.FAB_REFUSED_BIND
  | 5 => some Code.FAB_REFUSED
  | 6 => some Code.FAB_REFUSED
  | 7 => some Code.FAB_REFUSED
  | 8 => some Code.FAB_ATOMIC_LOST
  | _ => none

/-- Tries of one PSN under epoch refusals: QUAY_EPOCH.TRIES, 0 acting as 1 (R374). -/
def State.epochTries (s : State) (qy : Nat) : Nat := max 1 (s.regFld (quayK qy 0x48) 32 16)

/-- `s` after an epoch refusal of a request (R371). -/
def State.epochRefused (s : State) (n : Nat) (r : Req) : State :=
  if s.epochTries (s.qpQuay n) ≤ r.refusals + 1 then s.failQp n 1 Code.FAB_EPOCH_REFUSED
  else
    (s.setQp n { s.qp n with
      outstanding := (s.qp n).outstanding.map fun o => if o.psn = r.psn then { o with refusals := o.refusals + 1 } else o }).holdQp n r

/-- `s` after a REFUSE of a request (R371, R373). -/
def State.refused (s : State) (p : Packet) (r : Req) : State :=
  match refusalCode p.status.toNat with
  | some code => ((s.retired p.qp r.psn).failReq p.qp p.status.toNat code r).pumpQuay (s.qpQuay p.qp)
  | none => s.epochRefused p.qp r

/-- REFUSE served (R371, R373). -/
def State.servedRefuse (s : State) (qy : Nat) (p : Packet) : State :=
  s.responded qy p 0x4F (fun _ => p.nunits == 0 && 1 ≤ p.status.toNat && p.status.toNat ≤ 8) fun r s => s.refused p r

/-- RETRANSMIT_TIMEOUT (R361, R362). -/
def execRetransmitTimeout (qp : BitVec 14) (s : State) : Host.Outcome State Fault Refusal :=
  if s.qpState qp.toNat ≠ 1 || (s.qp qp.toNat).holdOff then .next s else .next (s.goBack qp.toNat)

/-- The MAC rate of a quay in Mbit/s (R346). -/
def State.lineRate (s : State) (qy : Nat) : Nat :=
  match s.regFld (quayK qy 0) 0 3 with
  | 1 => 800000
  | 2 => 400000
  | 3 => 200000
  | 4 => 200000
  | _ => 0

/-- `s` with the rates of a queue pair. -/
def State.setRates (s : State) (n rate target : Nat) : State := (s.setQpFld n 6 32 32 rate).setQpFld n 6 0 32 target

/-- `s` after cc_cnp on a queue pair (R365). -/
def State.ccCnp (s : State) (n : Nat) : State :=
  let k := quayK (s.qpQuay n) 0x40
  let rate := s.qpFld n 6 32 32
  let t := s.setRates n (max (s.regFld k 16 16) (rate - rate * s.regFld k 56 8 / 256)) rate
  t.setQp n { t.qp n with stage := 0 }

/-- CONGESTION_NOTIFICATION (R364, R365, R372). -/
def execCongestionNotification (qy : Fin 8) (qp : Nat) (s : State) : Host.Outcome State Fault Refusal :=
  if !s.linkUp qy then .next s
  else
    let t := (s.count (quayK qy 0x140) 1).count (quayK qy 0x160) 1
    if qp < 16384 && t.qpState qp == 1 then .next (t.ccCnp qp) else .next (t.drop qy 4)

/-- CC_TICK (R365). -/
def execCcTick (qp : BitVec 14) (s : State) : Host.Outcome State Fault Refusal :=
  let n := qp.toNat
  let x := s.qp n
  if s.qpState n ≠ 1 then .next s
  else
    let line := s.lineRate (s.qpQuay n)
    let rate := s.qpFld n 6 32 32
    let old := s.qpFld n 6 0 32
    let target := if x.stage < 5 then old else min line (old + s.regFld (quayK (s.qpQuay n) 0x40) 0 16)
    let t := s.setRates n (min line ((rate + target) / 2)) target
    .next (t.setQp n { x with stage := if x.stage < 5 then x.stage + 1 else x.stage })

/-- The storm bit of a class of a quay (R369, R374). -/
def State.storm (s : State) (qy cls : Nat) : Bool := s.regBit (quayK qy 0x8) (59 + cls)

/-- `s` with a class paused or not on transmit. -/
def State.setPause (s : State) (qy cls : Nat) (x : Bool) : State :=
  { s with paused := if x then tset s.paused (4 * qy + cls) true else tdel s.paused (4 * qy + cls) }

/-- PAUSE_FRAME (R368, R369, R372). -/
def execPauseFrame (qy : Fin 8) (cls : Fin 4) (xoff : Bool) (s : State) : Host.Outcome State Fault Refusal :=
  if !s.linkUp qy then .next s
  else if !s.regBit (quayK qy 0x30) (12 + cls) then .next (s.drop qy 7)
  else if s.storm qy cls then .next s
  else .next ((s.setPause qy cls xoff).pumpQuay qy)

/-- PFC_WATCHDOG_EXPIRY (R369). -/
def execPfcWatchdogExpiry (qy : Fin 8) (cls : Fin 4) (s : State) : Host.Outcome State Fault Refusal :=
  if s.classPaused qy cls && s.regFld (quayK qy 0x30) 48 16 ≠ 0 then
    .next ((((s.setBit (quayK qy 0x8) (59 + cls) true).setPause qy cls false).quayReport qy Code.FAB_PFC_STORM).pumpQuay qy)
  else .next s

/-- PFC_STORM_END (R369). -/
def execPfcStormEnd (qy : Fin 8) (cls : Fin 4) (s : State) : Host.Outcome State Fault Refusal :=
  .next (s.setBit (quayK qy 0x8) (59 + cls) false)

/-- MANAGEMENT_FRAME (R348): passed to the grotto controller, or dropped beyond its rate. -/
def execManagementFrame (qy : Fin 8) (overRate : Bool) (s : State) : Host.Outcome State Fault Refusal :=
  if !s.linkUp qy then .next s else if overRate then .next (s.drop qy 2) else .next (s.send (.frame qy))

/-- DROPPED_FRAME (R372). -/
def execDroppedFrame (qy : Fin 8) (reason : Fin 8) (s : State) : Host.Outcome State Fault Refusal :=
  if s.linkUp qy then .next (s.drop qy reason) else .next s

/-- `s` with the link of a quay taken down (R347): what waits there to answer others is lost, like the packets in flight. -/
def State.linkDown (s : State) (qy : Nat) : State :=
  if s.linkUp qy then
    let qps := s.qps.map fun p => if s.qpQuay p.1 = qy then (p.1, { p.2 with waiting := [] }) else p
    (({ s with qps := qps } : State).setBit (quayK qy 0x8) 63 false).quayReport qy Code.FAB_LINK_DOWN
  else s

/-- `s` after a MODE field is written (R346, R347). -/
def State.modeWrite (s : State) (qy m : Nat) : State :=
  if s.regBit (quayK qy 0) 3 then s
  else if 5 ≤ m then s.setBit (quayK qy 0x8) 58 true
  else s.setFld (quayK qy 0) 0 3 m

/-- `s` after a write of QUAY_CTRL (R346, R347): MODE as the quay stands, then EN. -/
def State.quayCtrlWrite (s : State) (qy : Nat) (v : W64) : State :=
  let t := (s.modeWrite qy (fld v 0 3)).setBit (quayK qy 0) 3 (bitAt v 3)
  if bitAt v 3 then t else t.linkDown qy

/-- QUAY_MODE_WRITE (R346, R347). -/
def execQuayModeWrite (ctx : Fin 16) (qy : Fin 8) (v : W64) (s : State) : Host.Outcome State Fault Refusal :=
  .next (s.asRoot ctx (quayK qy 0) fun s => s.quayCtrlWrite qy v)

/-- QUAY_EN_WRITE (R347). -/
def execQuayEnWrite (ctx : Fin 16) (qy : Fin 8) (v : W64) (s : State) : Host.Outcome State Fault Refusal :=
  .next (s.asRoot ctx (quayK qy 0) fun s => s.quayCtrlWrite qy v)

/-- QUAY_LINK_UP (R347): the link of an enabled quay with powered lanes comes up. -/
def execQuayLinkUp (qy : Fin 8) (s : State) : Host.Outcome State Fault Refusal :=
  if s.regBit (quayK qy 0) 3 && s.regFld (quayK qy 0) 0 3 ≠ 0 && !s.linkUp qy then
    .next (((s.setBit (quayK qy 0x8) 63 true).quayReport qy Code.FAB_LINK_UP).pumpQuay qy)
  else .next s

/-- QUAY_LINK_DOWN (R347). -/
def execQuayLinkDown (qy : Fin 8) (s : State) : Host.Outcome State Fault Refusal := .next (s.linkDown qy)

/-- FAB_QPCMD of a context that may act (R375): only context 0's bank has it. -/
def State.qpCommand (s : State) (ctx : Nat) (f : State → State) : State := if ctx = 0 then f s else s

/-- `s` with FAB_QPCMD.REFUSED set (R351). -/
def State.qpCmdRefused (s : State) : State := s.setBit (fabK 0 0x10) 61 true

/-- `s` after READY (R351): from RESET, with no refused code in the entry. -/
def State.qpToReady (s : State) (n : Nat) : State :=
  if s.qpState n == 0 && s.qpFld n 0 54 2 != 3 then
    ((s.setQpFld n 0 61 3 1).setQp n { s.qp n with sent := 0 }).setRates n (s.lineRate (s.qpQuay n)) (s.lineRate (s.qpQuay n))
  else s.qpCmdRefused

/-- `s` after RESET (R351): from ERROR. -/
def State.qpToReset (s : State) (n : Nat) : State :=
  if s.qpState n == 2 then (s.setQpFld n 0 61 3 0).setQp n { s.qp n with gapNak := false, holdOff := false, resume := none }
  else s.qpCmdRefused

/-- `s` after ERROR (R351): from any state. -/
def State.qpToError (s : State) (n : Nat) : State := s.failQp n 0 Code.FAB_QP_ERROR

/-- QP_READY (R351). -/
def execQpReady (ctx : Fin 16) (qp : BitVec 14) (s : State) : Host.Outcome State Fault Refusal :=
  .next (s.qpCommand ctx fun s => s.qpToReady qp.toNat)

/-- QP_RESET (R351). -/
def execQpReset (ctx : Fin 16) (qp : BitVec 14) (s : State) : Host.Outcome State Fault Refusal :=
  .next (s.qpCommand ctx fun s => s.qpToReset qp.toNat)

/-- QP_ERROR (R351). -/
def execQpError (ctx : Fin 16) (qp : BitVec 14) (s : State) : Host.Outcome State Fault Refusal :=
  .next (s.qpCommand ctx fun s => s.qpToError qp.toNat)

/-- `s` after a write of FAB_QPCMD (R375). -/
def State.qpCmdWrite (s : State) (v : W64) : State :=
  let s := if bitAt v 61 then s.setBit (fabK 0 0x10) 61 false else s
  match fld v 62 2 with
  | 1 => s.qpToReady (fld v 0 14)
  | 2 => s.qpToReset (fld v 0 14)
  | 3 => s.qpToError (fld v 0 14)
  | _ => s

end Sys2Proof.Machine
end

