-- ==== Sys2Proof/Machine/Binding.lean ====
section
/-! DEFINITION. The re-bind of contexts (15_contexts_and_binding.md R377 to R386, R316). -/

namespace Sys2Proof.Machine

/-- The listed entries of one copy of a bank, by offset in the copy (R380). -/
def State.bindCopy (s : State) (base : Nat) : Tbl W64 :=
  (s.regs.filter fun p => base ≤ p.1 && p.1 < base + 0x2000).map fun p => (p.1 - base, p.2)

/-- The active and staged copies of a context. -/
def State.activeCopy (s : State) (ctx : Nat) : Tbl W64 := s.bindCopy (bindK ctx 0)
def State.stagedCopy (s : State) (ctx : Nat) : Tbl W64 := s.bindCopy (stageK ctx 0)

/-- The physical numbers that the valid entries of a copy from offset `lo` to `hi` - 1 name, in `len` bits. -/
def boundIn (t : Tbl W64) (lo hi len : Nat) : List Nat :=
  ((t.filter fun p => lo ≤ p.1 && p.1 < hi && bitAt p.2 63).map fun p => fld p.2 0 len).eraseDups

/-- The clusters, shares, lines and granules of a copy. -/
def boundClusters (t : Tbl W64) : List Nat := boundIn t 0 0x80 4
def boundShares (t : Tbl W64) : List Nat := boundIn t 0x100 0x180 4
def boundLines (t : Tbl W64) : List Nat := boundIn t 0x300 0x400 5
def boundGrans (t : Tbl W64) : List Nat := boundIn t 0x800 0x2000 10

/-- BASE and COUNT of a die's semaphore window and of the queue pairs of a copy. -/
def dsemWindow (t : Tbl W64) (d : Nat) : Nat × Nat := (fld (tgetD t (0x200 + 8 * d) 0) 0 9, fld (tgetD t (0x200 + 8 * d) 0) 32 10)
def qpWindow (t : Tbl W64) : Nat × Nat := (fld (tgetD t 0x400 0) 0 14, fld (tgetD t 0x400 0) 32 15)

/-- Two windows share a number. -/
def windowsMeet (a b : Nat × Nat) : Bool := a.1 < b.1 + b.2 && b.1 < a.1 + a.2 && a.2 != 0 && b.2 != 0

/-- The numbers of window `a` outside window `b`. -/
def windowLess (a b : Nat × Nat) : List Nat :=
  ((List.range a.2).map (a.1 + ·)).filter fun x => !(b.1 ≤ x && x < b.1 + b.2)

/-- Two copies of different contexts name one resource (R379). -/
def copiesMeet (a b : Tbl W64) : Bool :=
  (boundClusters a).any (boundClusters b).contains || (boundShares a).any (boundShares b).contains ||
    (boundLines a).any (boundLines b).contains || (boundGrans a).any (boundGrans b).contains ||
    windowsMeet (dsemWindow a 0) (dsemWindow b 0) || windowsMeet (dsemWindow a 1) (dsemWindow b 1) ||
    windowsMeet (qpWindow a) (qpWindow b)

/-- The windows of a copy keep their limits (R380). -/
def windowsOk (t : Tbl W64) : Bool :=
  (dsemWindow t 0).1 + (dsemWindow t 0).2 ≤ 512 && (dsemWindow t 1).1 + (dsemWindow t 1).2 ≤ 512 &&
    (qpWindow t).1 + (qpWindow t).2 ≤ 16384

/-- Some pair of a list of copies names one resource. -/
def anyMeet : List (Tbl W64) → Bool
  | [] => false
  | a :: r => r.any (copiesMeet a) || anyMeet r

/-- A granule is absent in the grade, retired, or in a disabled stack (R4, R30, R400). -/
def State.granGone (s : State) (g : Nat) : Bool :=
  768 ≤ g || (s.short && 48 ≤ g % 64) || s.isDisabled (0x9000 + g / 64) || s.faults.granules.contains g

/-- A copy names a resource that is absent or disabled (R379, R401). -/
def State.namesAbsent (s : State) (t : Tbl W64) : Bool :=
  (boundClusters t).any (fun g => !s.cluUp g) || (boundShares t).any (fun g => !s.cluUp g) || (boundGrans t).any s.granGone

/-- The copies that would be active after a re-bind of the contexts in a mask, for contexts 1 to 15 (R381). -/
def State.copiesAfter (s : State) (mask : BitVec 16) : List (Tbl W64) :=
  (List.range 15).map fun i => if mask.getLsbD (i + 1) then s.stagedCopy (i + 1) else s.activeCopy (i + 1)

/-- The masked contexts, ascending; bit 0 is ignored (R390). -/
def maskCtxs (mask : BitVec 16) : List Nat := (List.range 16).filter fun c => c != 0 && mask.getLsbD c

/-- The refusal of a re-bind (R381, R401). -/
def State.rebindCheck (s : State) (mask : BitVec 16) : Option W16 :=
  let after := s.copiesAfter mask
  if s.rebind.isSome then some Code.BIND_BUSY
  else if anyMeet after || !((maskCtxs mask).all fun c => windowsOk (s.stagedCopy c)) then some Code.BIND_CONFLICT
  else if after.any s.namesAbsent then some Code.BIND_ABSENT
  else if (maskCtxs mask).any fun c => (boundGrans (s.stagedCopy c)).any (· % 64 == 0) then some Code.BIND_RESERVED
  else none

/-- The numbers of the first list that are not in the second, over the masked contexts: what is released (R381). -/
def State.releasedBy (s : State) (mask : BitVec 16) (f : Tbl W64 → List Nat) : List Nat :=
  ((maskCtxs mask).map fun c => (f (s.activeCopy c)).filter fun x => !(f (s.stagedCopy c)).contains x).flatten

/-- What a re-bind of the contexts in a mask releases (R381). -/
def State.rebindPlan (s : State) (mask : BitVec 16) : Rebind :=
  { mask := mask, staged := (maskCtxs mask).map fun c => (c, s.stagedCopy c), phase := .drain,
    clusters := s.releasedBy mask boundClusters, shares := s.releasedBy mask boundShares, grans := s.releasedBy mask boundGrans,
    lines := s.releasedBy mask boundLines,
    dsems := ((maskCtxs mask).map fun c => ((List.range 2).map fun d =>
      (windowLess (dsemWindow (s.activeCopy c) d) (dsemWindow (s.stagedCopy c) d)).map fun i => (d, i)).flatten).flatten,
    qps := ((maskCtxs mask).map fun c => windowLess (qpWindow (s.activeCopy c)) (qpWindow (s.stagedCopy c))).flatten,
    lost := (maskCtxs mask).filter fun c =>
      !(boundClusters (s.activeCopy c)).isEmpty && (boundClusters (s.stagedCopy c)).isEmpty }

/-- `s` with every snapshot of a context released (R174). -/
def State.dropSnaps (s : State) (ctx : Nat) : State :=
  (List.range 4).foldl (fun s i => (s.setBit (snapK ctx i) 63 false).setBit (snapK ctx i) 62 false) s

/-- The cores of a list of clusters. -/
def clusterCores (gs : List Nat) : List Nat := (gs.map fun g => (List.range 6).map (6 * g + ·)).flatten

/-- `s` with a code in BIND_STAT (R390). -/
def State.bindCode (s : State) (code : W16) : State := s.setFld (bindRegK 8) 32 16 code.toNat

/-- `s` with a re-bind accepted: the drain phase begins (R382). -/
def State.rebindStart (s : State) (r : Rebind) : State :=
  let t := r.lost.foldl State.dropSnaps (s.stopCores (clusterCores r.clusters))
  { r.qps.foldl State.qpToError t with rebind := some r }

/-- `s` after BIND_CMD orders a re-bind (R381). -/
def State.rebindCmd (s : State) (mask : BitVec 16) : State :=
  match s.rebindCheck mask with
  | some code => s.bindCode code
  | none => s.rebindStart (s.rebindPlan mask)

/-- REBIND (R381, R382). -/
def execRebind (ctx : Fin 16) (mask : BitVec 16) (s : State) : Host.Outcome State Fault Refusal :=
  .next (s.asRoot ctx (bindRegK 0) fun s => s.rebindCmd mask)

/-- Instructions in flight on a list of cores. -/
def State.inflightOn (s : State) (cs : List Nat) : Nat := (cs.map s.coreInflight).sum

/-- `s` with what is still in flight on the released clusters abandoned, counted and reported (R382). -/
def State.abandonReleased (s : State) (r : Rebind) : State :=
  let cs := clusterCores r.clusters
  let n := s.inflightOn cs
  if n = 0 then s
  else
    let t := s.abandon cs
    let t := (t.setReg (bindRegK 8) (putFld (t.reg (bindRegK 8)) 0 32 (t.regFld (bindRegK 8) 0 32 + n))).bindCode
      Code.BIND_DRAIN_ABANDONED
    t.report 0x05 Code.BIND_DRAIN_ABANDONED 0

/-- REBIND_DRAIN_TIMEOUT (R382). -/
def execRebindDrainTimeout (s : State) : Host.Outcome State Fault Refusal :=
  match s.rebind with
  | some r => if r.phase ≠ .drain then .next s else .next { s.abandonReleased r with rebind := some { r with late := true } }
  | none => .next s

/-- An instruction in flight will still access memory of its context: it waits for its update or for its remote source (R382). -/
def willAccess (f : InFlight) : Bool :=
  match f.work with
  | .upd _ => true
  | .gather _ => true
  | _ => false

/-- The semaphore at a control-space offset is released. -/
def semReleased (r : Rebind) (k : Nat) : Bool :=
  r.clusters.any (fun g => cluK g 0 ≤ k && k < cluK g 0x100000 || coreK (6 * g) 0 ≤ k && k < coreK (6 * g + 6) 0) ||
    r.dsems.any fun p => k == dieK p.1 (0x200000 + 8 * p.2)

/-- An instruction in flight will still signal a released semaphore, or send to a channel of a released cluster (R382, R384). -/
def owesReleased (r : Rebind) (f : InFlight) : Bool :=
  (f.sinc != 0 && semReleased r f.home) ||
    match f.work with
    | .mbsend g _ _ _ _ => r.clusters.contains g
    | _ => false

/-- A request of an instruction of a released cluster has left the device and is not answered (R382). -/
def State.sentReleased (s : State) (r : Rebind) : Bool :=
  s.qps.any fun p => p.2.outstanding.any fun x =>
    match x.owner with
    | .instr c _ _ => r.clusters.contains (c / 6)
    | .kerb _ => false

/-- The drain is over: nothing is in flight on released clusters or to released resources. What instructions of other clusters owe to
released resources is waited for until DRAINTMO (R382; DEDUCED, log 90). -/
def State.drained (s : State) (r : Rebind) : Bool :=
  s.inflightOn (clusterCores r.clusters) == 0 && !s.sigs.any (fun x => semReleased r x.home) && !s.sentReleased r &&
    (maskCtxs r.mask).all fun c => !(s.inflightOf c).any fun p => willAccess p.2.2 || (!r.late && owesReleased r p.2.2)

/-- An entry of an active copy names a resource that a re-bind releases. -/
def releases (r : Rebind) (o : Nat) (v : W64) : Bool :=
  bitAt v 63 &&
    ((o < 0x80 && r.clusters.contains (fld v 0 4)) || (0x100 ≤ o && o < 0x180 && r.shares.contains (fld v 0 4)) ||
     (0x300 ≤ o && o < 0x400 && r.lines.contains (fld v 0 5)) || (0x800 ≤ o && r.grans.contains (fld v 0 10)))

/-- COUNT of window `w` once the numbers outside window `v` are unbound: it ends where the numbers that stay end. Released numbers below
those that stay keep their place in the window, and the re-bind itself holds them back (DESIGN CHOICE, log 90). -/
def fencedCount (w v : Nat × Nat) : Nat :=
  if max w.1 v.1 < min (w.1 + w.2) (v.1 + v.2) then min (w.1 + w.2) (v.1 + v.2) - w.1 else 0

/-- `s` with the windows of a masked context cut at the fence. -/
def State.fenceWindows (s : State) (ctx : Nat) : State :=
  let a := s.activeCopy ctx
  let b := s.stagedCopy ctx
  let cut := fun (s : State) (o len : Nat) (w v : Nat × Nat) =>
    if fencedCount w v = w.2 then s else s.setFld (bindK ctx o) 32 len (fencedCount w v)
  cut (cut (cut s 0x200 10 (dsemWindow a 0) (dsemWindow b 0)) 0x208 10 (dsemWindow a 1) (dsemWindow b 1)) 0x400 15
    (qpWindow a) (qpWindow b)

/-- A queue of a masked context at the fence: a head that waits on a released line waits no more and meets R303, and what the drain has not
waited for any longer makes no signal (DEDUCED, log 90). -/
def QState.fence (x : QState) (r : Rebind) : QState :=
  { x with
    lineWait := x.lineWait.filter fun l => !r.lines.contains l
    inflight := x.inflight.map fun f => if f.sinc != 0 && semReleased r f.home then { f with sinc := 0 } else f }

/-- `s` with the released resources unbound in the active copies (R382 phase 2). -/
def State.fence (s : State) (r : Rebind) : State :=
  let t := (maskCtxs r.mask).foldl State.fenceWindows s
  { t with
    regs := t.regs.filter fun p =>
      !(0x110000 ≤ p.1 && p.1 < 0x200000 && p.1 % 0x10000 < 0x2000 && r.mask.getLsbD ((p.1 - 0x100000) / 0x10000) &&
        releases r (p.1 % 0x10000) p.2)
    queues := t.queues.map fun p => (p.1, if r.mask.getLsbD (s.ctxOf (p.1 / 6)) then p.2.fence r else p.2)
    rebind := some { r with phase := .scrub } }

/-- `s` with the memory from `lo` to `hi` - 1 zero with good tags (R335). -/
def State.zeroRange (s : State) (lo hi : Nat) : State :=
  { s with mem := s.mem.filter (fun p => p.1 < lo || hi ≤ p.1), tags := s.tags.filter fun p => p.1 < lo / 64 || hi / 64 ≤ p.1 }

/-- `s` with the registers from offset `lo` to `hi` - 1 at their reset values. -/
def State.resetRegs (s : State) (lo hi : Nat) : State := { s with regs := tdelRange s.regs lo hi }

/-- `s` with a released core scrubbed (R316, R382 phase 3). -/
def State.scrubCore (s : State) (c : Nat) : State :=
  let t := ((s.zeroRange (chamPa c 0) (chamPa c 0x400000)).zeroRange (imemPa c 0) (imemPa c 0x40000)).resetRegs (coreK c 0)
    (coreK (c + 1) 0)
  { t with queues := tdelRange t.queues (6 * c) (6 * c + 6), bufs := tdelRange t.bufs (4 * c) (4 * c + 4),
           lastLoser := tdel t.lastLoser c }

/-- `s` with a released cluster scrubbed (R316, R382 phase 3). -/
def State.scrubCluster (s : State) (g : Nat) : State :=
  let t := ((clusterCores [g]).foldl State.scrubCore s).resetRegs (cluK g 0) (cluK (g + 1) 0)
  { t with msgs := tdelRange t.msgs (64 * g) (64 * g + 64), loads := tdel t.loads g }

/-- `s` with a released line emptied, and its counts of generations, forced releases and repeated arrivals at 0 (R316, R386). -/
def State.scrubLine (s : State) (l : Nat) : State := s.resetRegs (xrdK l 0) (xrdK (l + 1) 0)

/-- `s` with a released die semaphore at 0 and its view clear (R316). -/
def State.scrubDsem (s : State) (p : Nat × Nat) : State :=
  let k := dieK p.1 (0x200000 + 8 * p.2)
  (s.setReg k 0).setReg (semView k) 0

/-- `s` with a released queue pair in RESET and its cache empty (R382). -/
def State.scrubQp (s : State) (n : Nat) : State :=
  let t := s.setQpFld n 0 61 3 0
  { t with qps := tdel t.qps n }

/-- `s` with the kerb, pipeline, update and fabric banks of a context at their reset values (R382). -/
def State.scrubBanks (s : State) (ctx : Nat) : State :=
  let t := [kerbK ctx 0, pipeK ctx 0, updK ctx 0, fabK ctx 0].foldl (fun s k => s.resetRegs k (k + 0x100)) s
  { t with kerb := tdel t.kerb ctx }

/-- `s` with scrub writes that failed: their units read poisoned. The fault is lasting, and its failed channel or link retires the stack under
AUTODIS (R383, R392, R400; DEDUCED, log 93). -/
def State.scrubFault (s : State) (failed : List Nat) : State :=
  match failed with
  | [] => s
  | a :: _ =>
    let t := failed.foldl (fun s a => s.writeUnit a (zeros 64) true) s
    let u := srcOf 0x9 (a / 0x1000000000)
    let t := (t.bindCode Code.BIND_SCRUB_FAULT).report 0x05 Code.BIND_SCRUB_FAULT (memSource a)
      { addr := BitVec.ofNat 64 (a / 64 * 64), detail := t.memDetail a }
    if a < stackEnd && t.autoDis u then t.startDisable u else t

/-- The first unit of a granule that lies on a failed channel or behind a failed link (R325, R326, R383). -/
def State.scrubFails (s : State) (g : Nat) : Option Nat :=
  let st := g / 64
  ((List.range 256).map fun i => g * 0x40000000 + 256 * i).find? fun pa =>
    s.regBit (stkK st 0x8) 1 || s.regBit (stkK st 0x8) (32 + pchOf pa / 2)

/-- `s` with a granule zero scrubbed (R335): an OFFLINE stack discards the writes and counts them (R337). -/
def State.scrubGranule (s : State) (g : Nat) : State :=
  if s.regBit (stkK (g / 64) 0) 0 then s.count (stkK (g / 64) 0x28) 0x1000000
  else s.zeroRange (g * 0x40000000) ((g + 1) * 0x40000000)

/-- What a re-bind scrubs and wakes of what it releases: a disabled resource is never scrubbed (R401). -/
def State.scrubbed (s : State) (r : Rebind) : Rebind :=
  { r with clusters := r.clusters.filter s.cluUp, shares := r.shares.filter s.cluUp, grans := r.grans.filter fun g => !s.granGone g }

/-- `s` with everything that a re-bind releases scrubbed (R382 phase 3). -/
def State.scrub (s : State) (r : Rebind) : State :=
  let s := r.grans.foldl State.scrubGranule s
  let s := r.shares.foldl (fun s g => s.zeroRange (galBase + g * 0x8000000) (galBase + (g + 1) * 0x8000000)) s
  let s := r.qps.foldl State.scrubQp (r.dsems.foldl State.scrubDsem (r.lines.foldl State.scrubLine
    (r.clusters.foldl State.scrubCluster s)))
  r.lost.foldl State.scrubBanks s

/-- `s` after the swap: the staged copies become active in one step (R382 phase 4). -/
def State.swap (s : State) (r : Rebind) : State :=
  let t := r.staged.foldl (fun s p => p.2.foldl (fun s e => s.setReg (bindK p.1 e.1) e.2)
    (s.resetRegs (bindK p.1 0) (bindK p.1 0x2000))) s
  { (t.setBit (bindRegK 8) 62 true).setBit (cfgK 0x10) 62 true with rebind := none }

end Sys2Proof.Machine
end

