-- ==== Sys2Proof/Machine/Digest.lean ====
section
/-! DEFINITION. The end of a re-bind, the configuration digest and the epoch (15_contexts_and_binding.md R382, R383, R387 to R390). -/

namespace Sys2Proof.Machine

/-- A test of a released cluster's unit is queued or running (R399). -/
def State.testOwed (s : State) (r : Rebind) : Bool :=
  (s.dies.map fun p => p.2.tests ++ p.2.running.toList).flatten.any fun t =>
    (srcType t.source = 7 && r.clusters.contains (srcIndex t.source)) ||
      (coresOf t.source).any fun c => srcType t.source ≠ 7 && r.clusters.contains (c / 6)

/-- CFG_CTRL.SECT has no reserved bit set (R387). -/
def sectOk (sect : Nat) : Bool := sect % 2 == 0 && sect < 256

/-- `s` with a COMPUTE running over the sections and contexts of CFG_CTRL (R387). -/
def State.computeStart (s : State) : State :=
  { s with compute := some (BitVec.ofNat 16 (s.regFld (cfgK 0) 0 16), BitVec.ofNat 16 (s.regFld (cfgK 0) 16 16)), computeWait := false }

/-- `s` after COMPUTE (R387, R389): refused, waiting for a swap, or running. While one runs or waits, another changes nothing
(DESIGN CHOICE, log 45). -/
def State.computeCmd (s : State) : State :=
  if !sectOk (s.regFld (cfgK 0) 0 16) then s.setBit (cfgK 0x10) 60 true
  else if s.compute.isSome || s.computeWait then s
  else if s.rebind.isSome then { s with computeWait := true }
  else s.computeStart

/-- `s` after the swap, with a COMPUTE that waited for it running (R389). -/
def State.swapped (s : State) (r : Rebind) : State :=
  let t := s.swap r
  if t.computeWait then t.computeStart else t

/-- Bytes for a digest, and whether an unbound one was read as zero (R387). -/
abbrev Hashed := List Byte × Bool

/-- `n` bytes of a context's local space, in pieces of 64 (R387). -/
def State.hashRead (s : State) (ctx addr : Nat) : Nat → Hashed
  | 0 => ([], false)
  | n + 1 =>
    let a := match s.localPlace ctx addr with
      | .mem pa => ((s.readUnit pa).data, false)
      | _ => (zeros 64, true)
    let r := s.hashRead ctx (addr + 64) n
    (a.1 ++ r.1, a.2 || r.2)

/-- The header of a piece (R387). -/
def pieceHead (code ctx len : Nat) : List Byte := leBytes 4 code ++ leBytes 4 ctx ++ leBytes 8 len

/-- A piece with its header; `f` blanks what reads as 0, entry by entry of `size` bytes. -/
def piece (code ctx size n : Nat) (h : Hashed) (f : List Byte → List Byte) : Hashed :=
  (pieceHead code ctx (size * n) ++ ((pieces size n h.1).map f).flatten, h.2)

/-- An entry of context 0's bank: the identity of R378. -/
def identEntry (o : Nat) : W64 :=
  if o < 0x80 then putFld (putBit 0 63 true) 0 4 (o / 8)
  else if o < 0x100 then 0
  else if o < 0x180 then putFld (putBit 0 63 true) 0 4 ((o - 0x100) / 8)
  else if o < 0x200 then 0
  else if o < 0x210 then putFld 0 32 10 512
  else if o < 0x300 then 0
  else if o < 0x400 then putFld (putBit 0 63 true) 0 5 ((o - 0x300) / 8)
  else if o = 0x400 then putFld 0 32 15 16384
  else if o < 0x800 then 0
  else putFld (putBit 0 63 true) 0 10 ((o - 0x800) / 8)

/-- Entry `o` of the active copy of a context (R378, R380). -/
def State.bankEntry (s : State) (ctx o : Nat) : W64 := if ctx = 0 then identEntry o else s.reg (bindK ctx o)

/-- Section 1: the active copies of contexts 0 to 15 (R387). -/
def State.bankBytes (s : State) : List Byte :=
  ((List.range 16).map fun c => ((List.range 1024).map fun i => leBytes 8 (s.bankEntry c (8 * i)).toNat).flatten).flatten

/-- An entry of the queue pair table with words 5 to 7 as 0; of the group table with words 12 to 15 as 0 (R387). -/
def blankQp (e : List Byte) : List Byte := e.take 40 ++ zeros 24
def blankGroup (e : List Byte) : List Byte := e.take 96 ++ zeros 32

/-- A layer table entry with HOLD and QUIET as 0, and RUNG as 0 where FIXED = 0 (R137, R387). -/
def blankLayer (e : List Byte) : List Byte :=
  let w : W64 := BitVec.ofNat 64 (leNat (e.take 8))
  leBytes 8 (if bitAt w 49 then w else putFld w 54 2 0).toNat ++ (e.drop 8).take 4 ++ zeros 4

/-- Section `code` of a context (R387): 3 route, 4 layer, 5 policy, 6 group and 7 curve table. -/
def State.ctxPiece (s : State) (code ctx : Nat) : Hashed :=
  let k := s.kerbNow ctx
  match code with
  | 3 => piece 3 ctx 64 4096 (s.hashRead ctx (tableAddr (s.reg (fabK ctx 0))) 4096) id
  | 4 => piece 4 ctx 16 (layersOf k.policy) (s.hashRead ctx (tableAddr k.ltbase) ((layersOf k.policy + 3) / 4)) blankLayer
  | 5 => piece 5 ctx 64 128 (s.hashRead ctx (tableAddr k.ptbase) 128) id
  | 6 => piece 6 ctx 128 4096 (s.hashRead ctx (s.groupAddr ctx 0) 8192) blankGroup
  | _ => piece 7 ctx 64 2048 (s.hashRead ctx (s.regFld (updK ctx 0x8) 7 39 * 128) 2048) id

/-- A context has a cluster bound (R387). -/
def State.hasCluster (s : State) (ctx : Nat) : Bool := ctx == 0 || !(boundClusters (s.activeCopy ctx)).isEmpty

/-- The contexts whose sections 3 to 7 are formed, ascending. -/
def State.hashCtxs (s : State) (mask : BitVec 16) : List Nat := (List.range 16).filter fun c => mask.getLsbD c && s.hasCluster c

/-- The pieces of section `code`. -/
def State.section_ (s : State) (mask : BitVec 16) (code : Nat) : List Hashed :=
  match code with
  | 1 => [(pieceHead 1 0 0x20000 ++ s.bankBytes, false)]
  | 2 => [piece 2 0 64 16384 (s.hashRead 0 (tableAddr (s.reg (fabK 0 8))) 16384) blankQp]
  | n => (s.hashCtxs mask).map (s.ctxPiece n)

/-- The whole preimage of a COMPUTE, sections in ascending code order (R387). -/
def State.preimage (s : State) (sect mask : BitVec 16) : Hashed :=
  let ps := (((List.range 8).filter fun n => n != 0 && sect.getLsbD n).map (s.section_ mask)).flatten
  ((ps.map (·.1)).flatten, ps.any (·.2))

/-- `s` with CFG_DIGEST holding a digest: byte 8i of it in bits 63 to 56 of register i (R390). -/
def State.putDigest (s : State) (d : List Byte) : State :=
  (List.range 4).foldl (fun s i => s.setReg (cfgK (0x20 + 8 * i)) (BitVec.ofNat 64 (beNat ((d.drop (8 * i)).take 8)))) s

/-- `s` after the epoch has advanced (R388), which measurement block 5 records (R445). -/
def State.advanceNow (s : State) : State :=
  let t := s.setFld (cfgK 0x18) 0 32 (s.epoch.toNat + 1)
  let t : State := { t with mgmt := { t.mgmt with advanced := s.epoch + 1 } }
  (List.range 4).foldl (fun t i => t.setReg (cfgK (0x40 + 8 * i)) (s.reg (cfgK (0x20 + 8 * i)))) t

/-- The ranges of context `ctx` that section `code` reads (R387). -/
def State.hashRange (s : State) (code ctx : Nat) : Nat × Nat :=
  let k := s.kerbNow ctx
  match code with
  | 3 => (tableAddr (s.reg (fabK ctx 0)), 0x40000)
  | 4 => (tableAddr k.ltbase, 16 * layersOf k.policy)
  | 5 => (tableAddr k.ptbase, 0x2000)
  | 6 => (s.groupAddr ctx 0, 0x80000)
  | _ => (s.regFld (updK ctx 0x8) 7 39 * 128, 0x20000)

/-- `s` after the tables of a COMPUTE have been read through the windows of gated clusters (R429). An unbound byte is read as zero and sets
HOLE, and logs nothing (R387; DEDUCED, log 36). -/
def State.hashTouch (s : State) (sect mask : BitVec 16) : State :=
  if (List.range 16).all fun g => s.gate g == 0 then s
  else
    let s := if sect.getLsbD 2 then s.wakeAll 0 (unitsOf (tableAddr (s.reg (fabK 0 8))) 0x100000) else s
    ((List.range 8).filter fun n => 3 ≤ n && sect.getLsbD n).foldl (fun s n =>
      (s.hashCtxs mask).foldl (fun s c => s.wakeAll c (unitsOf (s.hashRange n c).1 (s.hashRange n c).2)) s) s

/-- The digest of a COMPUTE and its HOLE: as formed before a fence, or as memory stands (R387, R389). -/
def State.digestOf (s : State) (sect mask : BitVec 16) : List Byte × Bool :=
  s.formed.getD (sha256 (s.preimage sect mask).1, (s.preimage sect mask).2)

/-- `s` with the digest formed of a COMPUTE that runs (R389). -/
def State.formNow (s : State) : State :=
  match s.compute with
  | some (sect, mask) => { s.hashTouch sect mask with formed := some (s.digestOf sect mask) }
  | none => s

/-- `s` with the digest of a COMPUTE in CFG_DIGEST, HOLE and STALE (R387, R390). -/
def State.computed (s : State) (sect mask : BitVec 16) : State :=
  let h := s.digestOf sect mask
  let u := if s.formed.isSome then s else s.hashTouch sect mask
  let t := ({ u with compute := none, formed := none }.putDigest h.1).setBit (cfgK 0x10) 62 false
  if h.2 then t.setBit (cfgK 0x10) 61 true else t

/-- `s` after a re-bind's fence: a COMPUTE that runs is formed over the binding that the fence ends (R389). -/
def State.fenceNow (s : State) (r : Rebind) : State := s.formNow.fence r

/-- REBIND_DRAIN_END (R382 phases 1 and 2): the scrub wakes the released clusters (R429). -/
def execRebindDrainEnd (s : State) : Host.Outcome State Fault Refusal :=
  match s.rebind with
  | some r =>
    if r.phase = .drain && s.drained r then .next ((s.unlessGated (s.fenceNow r)).rouse (s.scrubbed r).clusters) else .next s
  | none => .next s

/-- The units whose scrub write fails: those that the operand names, and one of each granule with a failed channel or link (R383). -/
def State.scrubFailures (s : State) (r : Rebind) (failed : List Nat) : List Nat :=
  failed.filter (fun a => r.grans.contains (a / 0x40000000)) ++ r.grans.filterMap s.scrubFails

/-- REBIND_SCRUB_END (R382, R383, R389, R399, R401, R429): the swap, unless a COMPUTE holds it, once the released clusters are awake.
`failed`: units of released granules whose scrub write failed. -/
def execRebindScrubEnd (failed : List Nat) (s : State) : Host.Outcome State Fault Refusal :=
  match s.rebind with
  | some r =>
    let x := s.scrubbed r
    if r.phase ≠ .scrub || s.testOwed r then .next s
    else if x.clusters.any fun g => s.gate g != 0 then .next (s.rouse x.clusters)
    else
      let t := (s.scrub x).scrubFault (s.scrubFailures x failed)
      if s.compute.isSome then .next { t with rebind := some { r with phase := .swapHeld } } else .next (t.swapped r)
  | none => .next s

/-- `s` after `n` waiting ADVANCEs (R388, R389). -/
def State.advances (s : State) : Nat → State
  | 0 => s
  | n + 1 => s.advanceNow.advances n

/-- `s` with what waited for the end of a COMPUTE going on: a held swap, pending ADVANCEs (R389). -/
def State.afterCompute (s : State) : State :=
  let t := match s.rebind with
    | some r => if r.phase = .swapHeld then s.swapped r else s
    | none => s
  if t.compute.isNone && !t.computeWait then { t with advanceWait := 0 }.advances t.advanceWait else t

/-- COMPUTE_END (R387, R389): it comes again once the clusters are awake that hold the tables (R429). -/
def execComputeEnd (s : State) : Host.Outcome State Fault Refusal :=
  match s.compute with
  | some (sect, mask) => .next (s.unlessGated (s.computed sect mask).afterCompute)
  | none => .next s

/-- `s` after ADVANCE (R388, R389): it waits for a COMPUTE that runs or waits. -/
def State.advanceCmd (s : State) : State :=
  if s.compute.isSome || s.computeWait then { s with advanceWait := s.advanceWait + 1 } else s.advanceNow

/-- COMPUTE (R387). -/
def execCompute (ctx : Fin 16) (s : State) : Host.Outcome State Fault Refusal :=
  .next (s.asRoot ctx (cfgK 8) State.computeCmd)

/-- ADVANCE (R388). -/
def execAdvance (ctx : Fin 16) (s : State) : Host.Outcome State Fault Refusal :=
  .next (s.asRoot ctx (cfgK 8) State.advanceCmd)

/-- `s` after COMPUTE then ADVANCE (R389); a refused COMPUTE leaves the ADVANCE to run by itself (DEDUCED, log 45). -/
def State.computeAdvanceCmd (s : State) : State := s.computeCmd.advanceCmd

/-- COMPUTE_THEN_ADVANCE (R389, R390). -/
def execComputeThenAdvance (ctx : Fin 16) (s : State) : Host.Outcome State Fault Refusal :=
  .next (s.asRoot ctx (cfgK 8) State.computeAdvanceCmd)

/-- `s` after a write of CFG_EPOCH (R388): it takes effect only while every quay has EN = 0. -/
def State.epochWrite (s : State) (v : W64) : State :=
  if (List.range 8).any fun qy => s.regBit (quayK qy 0) 3 then
    (s.setBit (cfgK 0x10) 59 true).report 0x05 Code.CFG_EPOCH_LOCKED 0
  else s.setFld (cfgK 0x18) 0 32 (fld v 0 32)

/-- EPOCH_WRITE (R388). -/
def execEpochWrite (ctx : Fin 16) (v : W64) (s : State) : Host.Outcome State Fault Refusal :=
  .next (s.asRoot ctx (cfgK 0x18) fun s => s.epochWrite v)

end Sys2Proof.Machine
end

