-- ==== Sys2Proof/Machine/Kerb.lean ====
section
/-! DEFINITION. The kerb monitor: KSTEP, closing a step, the replica reduction and the decision
(05_outliers_and_precision_ladder.md R139 to R156; R406). -/

namespace Sys2Proof.Machine

/-- Bytes of a statistics record (R141). -/
def KStat.bytes (k : KStat) : List Byte :=
  leBytes 8 k.elems ++ ([k.sat, k.uflow, k.excess, k.slots, k.nansc, k.zerosc, k.autogrp, k.inexact, k.tiles, k.slotmax,
    k.amaxPre, k.amaxPost, k.heli, k.drains].map (leBytes 4)).flatten

/-- The statistics record in 64 bytes (R141). -/
def kstatOf (bs : List Byte) : KStat :=
  let f := fun o n => leNat ((bs.drop o).take n)
  { elems := f 0 8, sat := f 0x08 4, uflow := f 0x0C 4, excess := f 0x10 4, slots := f 0x14 4, nansc := f 0x18 4,
    zerosc := f 0x1C 4, autogrp := f 0x20 4, inexact := f 0x24 4, tiles := f 0x28 4, slotmax := f 0x2C 4,
    amaxPre := f 0x30 4, amaxPost := f 0x34 4, heli := f 0x38 4, drains := f 0x3C 4 }

/-- A record header (R148). -/
structure KHdr where
  step : Nat
  nrep : Nat
  crcMin : Nat
  crcMax : Nat
  thaw : Nat
  mode : Nat
deriving DecidableEq, Repr

/-- Bytes of a header, ARRIVE as 0. -/
def KHdr.bytes (h : KHdr) : List Byte :=
  ([h.step, h.nrep, h.crcMin, h.crcMax, h.thaw].map (leBytes 4)).flatten ++ leBytes 1 h.mode ++ zeros 43

/-- The header in 64 bytes. -/
def khdrOf (bs : List Byte) : KHdr :=
  let f := fun o n => leNat ((bs.drop o).take n)
  { step := f 0 4, nrep := f 4 4, crcMin := f 8 4, crcMax := f 0xC 4, thaw := f 0x10 4, mode := f 0x14 1 }

/-- Two headers merged (R148). -/
def KHdr.merge (a b : KHdr) : KHdr :=
  { a with nrep := satSum 32 a.nrep b.nrep, crcMin := min a.crcMin b.crcMin, crcMax := max a.crcMax b.crcMax,
           thaw := max a.thaw b.thaw, mode := min a.mode b.mode }

/-- Two records of `layers` layers merged. -/
def mergeRecords (layers : Nat) (a b : List Byte) : List Byte :=
  ((khdrOf a).merge (khdrOf b)).bytes ++ ((List.range layers).map fun l =>
    ((kstatOf ((a.drop (64 + 64 * l)).take 64)).merge (kstatOf ((b.drop (64 + 64 * l)).take 64))).bytes).flatten

/-- G and SELF (R149, R155). -/
def KerbSample.g (k : KerbSample) : Nat := fld k.repl 32 16 + 1
def KerbSample.self (k : KerbSample) : Nat := fld k.repl 48 16
def KerbSample.qp (k : KerbSample) : Nat := fld k.repl 4 14

/-- Places in the statistics area (R147): a receive slot, 16 for the reduced record. -/
def slotOff (slot : Nat) : Nat := if slot = 16 then 0x1000000 else 0x1800000 + slot * 0x800000
def localOff : Nat := 0x800000

/-- Local address of a place in the statistics area. -/
def KerbSample.at_ (k : KerbSample) (off : Nat) : Nat := tableAddr k.stbase + off

/-- The configuration CRC (R148). -/
def State.configCrc (s : State) (ctx : Nat) (k : KerbSample) : Nat :=
  let regs := [putFld (putFld k.policy 32 32 0) 30 2 0, k.budget, k.storm, k.stbase, putFld k.repl 48 16 0]
  crc32 ((s.tableRead ctx (tableAddr k.ltbase) (16 * layersOf k.policy)).data ++ (s.tableRead ctx (tableAddr k.ptbase) 8192).data
    ++ (regs.map fun r => leBytes 8 r.toNat).flatten)

/-- KERB_POLICY.MODE, 11 read as 00 (R154, R155). -/
def modeOf (policy : W64) : Nat := if fld policy 30 2 = 3 then 0 else fld policy 30 2

/-- The local record of a closing step (R143, R145, R148). -/
def State.localRecord (s : State) (ctx : Nat) (k : Closing) : List Byte :=
  let crc := s.configCrc ctx k.sample
  let h : KHdr := { step := k.step.toNat, nrep := 1, crcMin := crc, crcMax := crc, thaw := fld k.sample.policy 32 32,
                    mode := modeOf k.sample.policy }
  let st := (s.kerbOf ctx).stats
  h.bytes ++ ((List.range (layersOf k.sample.policy)).map fun l =>
    ((tgetD st (statKey k.step 0 l) {}).merge (tgetD st (statKey k.step 1 l) {})).bytes).flatten

/-- `s` with a record stored at a local address, ARRIVE left as it is (R148, R150). -/
def State.putRecord (s : State) (ctx addr : Nat) (bs : List Byte) : State :=
  ((s.touched ctx addr bs.length).tableWrite ctx addr (bs.take 0x18)).tableWrite ctx (addr + 0x20) (bs.drop 0x20)

/-- The bytes of a record at a local address. -/
def State.getRecord (s : State) (ctx addr layers : Nat) : List Byte := (s.tableRead ctx addr (64 * (layers + 1))).data

/-- The ARRIVE word of a slot. -/
def State.arriveAt (s : State) (ctx addr : Nat) : W64 := BitVec.ofNat 64 (leNat (s.tableRead ctx (addr + 0x18) 8).data)

/-- The unit writes of a record (R150): the header without ARRIVE, then the layers. -/
def recordUnits (addr : Nat) (bs : List Byte) : List UnitWr :=
  let m := fullMask - (2 ^ 16 - 1) * 2 ^ 48
  { addr := addr, mask := m, data := leNat (bs.take 64), poison := false } ::
    (List.range (bs.length / 64 - 1)).map fun i =>
      { addr := addr + 64 + 64 * i, mask := fullMask, data := leNat ((bs.drop (64 + 64 * i)).take 64), poison := false }

/-- `s` with a record on its way to a device's slot (R150): remote stores, then a fetch-add of 1 on ARRIVE. A device's own number is
served as a local access (R22). -/
def State.emitRecord (s : State) (ctx : Nat) (k : KerbSample) (r : KerbSent) : State :=
  let a := k.at_ (slotOff r.slot)
  if r.device = s.fuses.device then
    let t := s.putRecord ctx a r.bytes
    t.tableWrite ctx (a + 0x18) (leBytes 8 (t.arriveAt ctx a + 1).toNat)
  else
    s.request k.qp (writeReqs (.kerb ctx) r.device (s.qpUnits k.qp) none (recordUnits a r.bytes)
      ++ [{ newReq (.kerb ctx) 4 (fabAddr r.device (a + 0x18)) with opa := 1 }])

/-- The device of a replica (R147). -/
def State.replica (s : State) (ctx : Nat) (k : KerbSample) (r : Nat) : Nat :=
  leNat (s.tableRead ctx (k.at_ (2 * r)) 2).data

/-- `s` with a record sent and kept for KRESEND (R406). -/
def State.sendKerb (s : State) (ctx : Nat) (k : Closing) (dest slot : Nat) (bs : List Byte) : State :=
  let r : KerbSent := { device := s.replica ctx k.sample dest, slot := slot, bytes := bs }
  let m := s.kerbOf ctx
  ((s.touched ctx (k.sample.at_ (2 * dest)) 2).setKerb ctx { m with sent := m.sent ++ [r] }).emitRecord ctx k.sample r

/-- The number of reduce rounds: j with 2^j < G. -/
def rounds (g : Nat) : Nat := bitLen (g - 1)

/-- What the reduce phase does from round `j` on (R149): wait for a slot, send up and leave, or reach the root. -/
inductive RedNext where
  | wait (j : Nat)
  | send (j : Nat)
  | root
deriving DecidableEq, Repr

/-- The next act of replica `r` of `g` among `n` rounds from `j`. -/
def redNext (g r : Nat) : Nat → Nat → RedNext
  | 0, _ => .root
  | n + 1, j =>
    if r % 2 ^ (j + 1) = 2 ^ j then .send j
    else if r % 2 ^ (j + 1) = 0 && r + 2 ^ j < g then .wait j
    else redNext g r n (j + 1)

/-- Rounds in which replica `r` forwards the reduced record, highest first (R149). -/
def bcastRounds (g r : Nat) : List Nat :=
  (List.range (rounds g)).reverse.filter fun j => r % 2 ^ (j + 1) == 0 && decide (r + 2 ^ j < g)

/-- `s` with the first closing of a context replaced. -/
def State.setClosing (s : State) (ctx : Nat) (k : Closing) : State :=
  let m := s.kerbOf ctx
  s.setKerb ctx { m with closings := k :: m.closings.tail }

/-- `s` with the reduced record held: forwarded, and ready for the decision (R149, R152). -/
def State.holdReduced (s : State) (ctx : Nat) (k : Closing) (bs : List Byte) : State :=
  let r := k.sample.self
  let t := (bcastRounds k.sample.g r).foldl (fun s j => s.sendKerb ctx k (r + 2 ^ j) 16 bs) s
  t.setClosing ctx { k with stage := .ready, own := bs }

/-- `s` with the reduce phase of a closing carried on from round `j` with the record merged so far (R149). With G = 1 the record is the
reduced record, whatever SELF. -/
def State.reduceFrom (s : State) (ctx : Nat) (k : Closing) (j : Nat) (bs : List Byte) : State :=
  let r := k.sample.self
  match redNext k.sample.g r (rounds k.sample.g - j) j with
  | .wait i => s.setClosing ctx { k with stage := .reduce i, own := bs }
  | .send i => (s.sendKerb ctx k (r - 2 ^ i) i bs).setClosing ctx { k with stage := .awaitReduced, own := bs }
  | .root =>
    if r = 0 || k.sample.g = 1 then (s.putRecord ctx (k.sample.at_ (slotOff 16)) bs).holdReduced ctx k bs
    else s.setClosing ctx { k with stage := .awaitReduced, own := bs }

/-- An LDQ or MDRN of the context tagged `n` is in flight (R145). -/
def State.quantising (s : State) (ctx : Nat) (n : BitVec 32) : Bool :=
  (s.inflightOf ctx).any fun p => (p.2.2.op == .ldq || p.2.2.op == .mdrn) && p.2.2.step == n

/-- `s` without the statistics held for a step. -/
def State.dropStats (s : State) (ctx : Nat) (n : BitVec 32) : State :=
  let m := s.kerbOf ctx
  s.setKerb ctx { m with stats := tdelRange m.stats (statKey n 0 0) (statKey n 0 0 + 131072) }

/-- The tables that the configuration CRC of a closing covers (R148). -/
def Closing.tables (k : Closing) : List (Nat × Nat) :=
  [(tableAddr k.sample.ltbase, 16 * layersOf k.sample.policy), (tableAddr k.sample.ptbase, 8192)]

/-- KERB_CLOSE_MERGE (R145 steps 2 to 5), once the gated clusters that hold its tables are awake (R429). -/
def execKerbCloseMerge (ctx : Fin 16) (s : State) : Host.Outcome State Fault Refusal :=
  match (s.kerbOf ctx).closings with
  | [] => .next s
  | k :: _ =>
    if k.stage ≠ .waitWork || s.quantising ctx k.step then .next s
    else
      let bs := s.localRecord ctx k
      let t := ((s.touchedAll ctx k.tables).putRecord ctx (k.sample.at_ localOff) bs).dropStats ctx k.step
      let t := t.setKerb ctx { t.kerbOf ctx with merged := [], sent := [], sentStep := k.step }
      .next (s.unlessGated (t.reduceFrom ctx k 0 bs))

/-- The kerb registers of the reduction under way, or of the last one. -/
def State.reduceRegs (s : State) (ctx : Nat) : KerbSample := (((s.kerbOf ctx).closings.head?).map (·.sample)).getD (s.kerbNow ctx)

/-- `s` with an arrival discarded and counted (R150, R406). -/
def State.refuseRecord (s : State) (ctx : Nat) : State :=
  s.report 0x02 Code.KERB_RECV_REFUSED 0 { context := ctx }

/-- What an arrival in a slot calls for (R150, R406). -/
inductive Arrival where
  | merge (k : Closing)
  | reduced (k : Closing)
  | early
  | refuse
deriving DecidableEq, Repr

/-- The replica waits for the record of round `j` later in the reduction it is in. -/
def laterRound (k : Closing) (j : Nat) : Bool :=
  let r := k.sample.self
  r % 2 ^ (j + 1) == 0 && decide (r + 2 ^ j < k.sample.g) &&
    match k.stage with
    | .waitWork => true
    | .reduce i => i < j
    | _ => false

/-- The record of step `n` in a slot: for the round awaited, for one that the replica awaits and has not reached, or to be discarded, as
every record is whose step this replica has not closed or has decided (R150). -/
def State.arrival (s : State) (ctx slot : Nat) (n : BitVec 32) : Arrival :=
  let m := s.kerbOf ctx
  match m.closings with
  | [] => .refuse
  | k :: r =>
    if n ≠ k.step then (if r.any (·.step == n) then .early else .refuse)
    else if slot = 16 then (if k.stage = .awaitReduced then .reduced k else .refuse)
    else if k.stage = .reduce slot && !m.merged.contains slot then .merge k
    else if laterRound k slot then .early
    else .refuse

/-- `s` after the arrival of a record in a slot has been looked at (R149, R150, R406). -/
def State.recordArrived (s : State) (ctx slot : Nat) : State :=
  let a := (s.reduceRegs ctx).at_ (slotOff slot)
  let now := s.arriveAt ctx a
  let last := tgetD (s.kerbOf ctx).seen slot 0
  let saw := fun (v : W64) => s.setKerb ctx { s.kerbOf ctx with seen := tset (s.kerbOf ctx).seen slot v }
  if now.toNat ≤ last.toNat then saw now
  else
    let took := saw (last + 1)
    match s.arrival ctx slot (BitVec.ofNat 32 (khdrOf (s.getRecord ctx a 0)).step) with
    | .early => s
    | .refuse => took.refuseRecord ctx
    | .merge k =>
      let layers := layersOf k.sample.policy
      let bs := s.getRecord ctx a layers
      let t := (took.touched ctx a bs.length).setKerb ctx { took.kerbOf ctx with merged := slot :: (took.kerbOf ctx).merged }
      t.reduceFrom ctx k (slot + 1) (mergeRecords layers k.own bs)
    | .reduced k =>
      let bs := s.getRecord ctx a (layersOf k.sample.policy)
      (took.touched ctx a bs.length).holdReduced ctx k bs

/-- KERB_RECORD_ARRIVAL (R149, R150, R406). A replica awaits the records of every step that it has closed and not decided: one that comes
before the round that takes it stays in its slot until then (DEDUCED, log 38). -/
def execKerbRecordArrival (ctx : Fin 16) (slot : Fin 17) (s : State) : Host.Outcome State Fault Refusal :=
  let t := s.wakeAll ctx (unitsOf ((s.reduceRegs ctx).at_ (slotOff slot)) 64)
  .next (s.unlessGated (t.recordArrived ctx slot))

/-- A layer table entry as the decision works on it (R137). -/
structure Lay where
  w0 : W64
  w1 : W64
  rung : Nat
  hold : Nat
  quiet : Nat
  want : Int
deriving DecidableEq, Repr

/-- The entry in its two words. -/
def layOf (w0 w1 : W64) : Lay :=
  { w0 := w0, w1 := w1, rung := rungOf w0, hold := fld w1 48 16, quiet := fld w1 32 16, want := 0 }

def Lay.fixed (l : Lay) : Bool := bitAt l.w0 49
def Lay.cost (l : Lay) : Nat := fld l.w0 0 32
def Lay.prio (l : Lay) : Nat := fld l.w0 32 8

/-- The words of an entry after a decision (R139). -/
def Lay.words (l : Lay) : W64 × W64 := (putFld l.w0 54 2 l.rung, putFld (putFld l.w1 48 16 l.hold) 32 16 l.quiet)

/-- A policy table entry (R140). -/
structure Pol where
  satUp : Nat
  satDown : Nat
  uflowUp : Nat
  uflowDown : Nat
  inexUp : Nat
  minElems : Nat
  holdSteps : Nat
  quietSteps : Nat
deriving DecidableEq, Repr

def polOf (bs : List Byte) : Pol :=
  let f := fun o n => leNat ((bs.drop o).take n)
  { satUp := f 0 4, satDown := f 4 4, uflowUp := f 8 4, uflowDown := f 0xC 4, inexUp := f 0x10 4, minElems := f 0x14 4,
    holdSteps := f 0x18 2, quietSteps := f 0x1A 2 }

/-- Addition that saturates at 0xFFFF (R152). -/
def sat16 (a : Nat) : Nat := min (a + 1) 0xFFFF

/-- The first loop of kerb_decide for one layer (R152). -/
def wantOf (l : Lay) (p : Pol) (k : KStat) : Lay :=
  if l.fixed then l
  else
    let l := { l with hold := sat16 l.hold }
    if k.elems < p.minElems then l
    else
      let m := 2 ^ 24
      let up := decide (p.satUp * k.elems < k.sat * m) || decide (p.uflowUp * k.elems < k.uflow * m)
        || decide (p.inexUp < k.inexact) || (!ovfOf l.w0 && k.excess != 0)
      let calm := decide (k.sat * m ≤ p.satDown * k.elems) && decide (k.uflow * m ≤ p.uflowDown * k.elems)
        && k.inexact == 0 && k.excess == 0 && k.nansc == 0
      let l := { l with quiet := if calm && !up then sat16 l.quiet else 0 }
      if up && l.rung < fld l.w0 50 2 then { l with want := 1 }
      else if !up && p.quietSteps ≤ l.quiet && p.holdSteps ≤ l.hold && fld l.w0 52 2 < l.rung then { l with want := -1 }
      else l

/-- Budget multipliers by rung (R136, R152). -/
def rungMult (r : Nat) : Nat := if r ≤ 1 then 1 else if r = 2 then 2 else 4

/-- The index of a request placed by priority descending, then layer ascending. -/
def insertReq (ls : List Lay) (i : Nat) : List Nat → List Nat
  | [] => [i]
  | j :: r =>
    if ((ls[j]?).map Lay.prio).getD 0 < ((ls[i]?).map Lay.prio).getD 0 then i :: j :: r else j :: insertReq ls i r

/-- What a decision leaves. -/
structure Decision where
  layers : List Lay
  moved : Nat := 0
  denied : Nat := 0
  frozen : Bool
  stormed : Bool := false
deriving DecidableEq, Repr

/-- Escalations within the budget (R152). -/
def escalate (budget : Nat) (d : Decision) (used : Nat) : List Nat → Decision
  | [] => d
  | i :: r =>
    match d.layers[i]? with
    | none => escalate budget d used r
    | some l =>
      let x := l.cost * (rungMult (l.rung + 1) - rungMult l.rung)
      if used + x ≤ budget then
        escalate budget { d with layers := d.layers.set i { l with rung := l.rung + 1, hold := 0, quiet := 0 }, moved := d.moved + 1 }
          (used + x) r
      else escalate budget { d with denied := d.denied + 1 } used r

/-- kerb_decide over layers whose wants are formed (R152): `frozen` after the thaw rule. -/
def decideMoves (k : KerbSample) (frozen : Bool) (ls : List Lay) : Decision :=
  let movable := (ls.filter fun l => !l.fixed).length
  let req := (ls.filter fun l => l.want = 1).length
  if frozen then { layers := ls, frozen := true }
  else if req ≠ 0 && fld k.storm 12 16 ≤ req && fld k.storm 0 9 * movable ≤ req * 256 then
    { layers := ls, frozen := true, stormed := true }
  else
    let ls' := ls.map fun l => if l.want < 0 then { l with rung := l.rung - 1, hold := 0, quiet := 0 } else l
    let used := (ls'.map fun l => l.cost * rungMult l.rung).sum
    let order := (List.range ls'.length).foldl (fun o i =>
      if ((ls'[i]?).map Lay.want).getD 0 = 1 then insertReq ls' i o else o) []
    escalate k.budget.toNat { layers := ls', moved := (ls.filter fun l => l.want < 0).length, frozen := false } used order

/-- The layer table as a decision reads it, at the address where LDQs read it (R137). -/
def State.layerEntries (s : State) (ctx : Nat) (k : KerbSample) : List Lay :=
  (List.range (layersOf k.policy)).map fun i =>
    let bs := (s.tableRead ctx (s.layerAddr ctx i) 16).data
    layOf (BitVec.ofNat 64 (leNat (bs.take 8))) (BitVec.ofNat 64 (leNat (bs.drop 8)))

/-- The ladder stays frozen at a decision (R152, R153). -/
def stillFrozen (storm : W64) (h : KHdr) : Bool :=
  bitAt storm 31 && !(fld storm 32 32 < h.thaw && h.thaw ≤ h.step)

/-- The decision on a reduced record (R152). -/
def State.decision (s : State) (ctx : Nat) (k : Closing) : Decision :=
  let h := khdrOf k.own
  let ls := (s.layerEntries ctx k.sample).zipIdx.map fun p =>
    wantOf p.1 (polOf (s.tableRead ctx (tableAddr k.sample.ptbase + 32 * fld p.1.w0 56 8) 32).data)
      (kstatOf ((k.own.drop (64 + 64 * p.2)).take 64))
  decideMoves k.sample (stillFrozen (s.reg (kerbK ctx 0x30)) h) ls

/-- `s` with the entries of the layers that a decision may move written back, words whole, where LDQs read them (R137, R139). -/
def State.putLayers (s : State) (ctx : Nat) (ls : List Lay) : State :=
  ls.zipIdx.foldl (fun s p =>
    if p.1.fixed then s
    else
      let a := s.layerAddr ctx p.2
      let w := p.1.words
      let s := if w.1 = p.1.w0 then s else s.tableWrite ctx a (leBytes 8 w.1.toNat)
      s.tableWrite ctx (a + 8) (leBytes 8 w.2.toNat)) s

/-- `s` with a decision applied in active mode (R152). -/
def State.applyDecision (s : State) (ctx : Nat) (k : Closing) (d : Decision) : State :=
  let s := s.putLayers ctx d.layers
  let s := s.setBit (kerbK ctx 0x30) 31 d.frozen
  let s := if d.stormed then
      ((s.setFld (kerbK ctx 0x30) 32 32 k.step.toNat).count (kerbK ctx 0x60) 1).report 0x02 Code.LADDER_STORM 0 { context := ctx }
    else s
  let s := if d.moved = 0 then s
    else (s.count (kerbK ctx 0x50) d.moved).report 0x02 Code.LADDER_MOVED 0 { context := ctx }
  if d.denied = 0 then s
  else ((s.count (kerbK ctx 0x58) d.denied).setBit (kerbK ctx 0x38) 4 true).report 0x02 Code.LADDER_BUDGET_DENIED 0 { context := ctx }

/-- The tables that a decision reads: the layer table, and the policies of the layers that it may move. -/
def State.decisionTables (s : State) (ctx : Nat) (k : Closing) : List (Nat × Nat) :=
  let ls := (s.layerEntries ctx k.sample).filter fun l => !l.fixed
  (s.layerAddr ctx 0, 16 * layersOf k.sample.policy) ::
    ((ls.map fun l => fld l.w0 56 8).eraseDups.map fun i => (tableAddr k.sample.ptbase + 32 * i, 32))

/-- `s` after kerb_decide on the reduced record of a closing (R152, R154). -/
def State.kerbDecide (s : State) (ctx : Nat) (k : Closing) : State :=
  let h := khdrOf k.own
  if h.crcMin ≠ h.crcMax || h.nrep ≠ k.sample.g then
    (s.setBit (kerbK ctx 0x38) 5 true).report 0x02 Code.KERB_REPLICA_MISMATCH 0 { context := ctx }
  else if h.mode = 0 || 3 ≤ h.mode then s
  else
    let d := s.decision ctx k
    let s := s.touchedAll ctx (s.decisionTables ctx k)
    if h.mode = 1 then s.count (kerbK ctx 0x68) d.moved else s.applyDecision ctx k d

/-- A KSTEP that needs the decision of a step that is not outstanding has done its work (R145). -/
def State.releaseKsteps (s : State) (ctx : Nat) : State :=
  let cs := (s.kerbOf ctx).closings
  (s.inflightOf ctx).foldl (fun s p =>
    match p.2.2.work with
    | .kstep x n =>
      if x = ctx && !cs.any (·.step == n) then s.mapFlight p.1 p.2.1 p.2.2.id fun f => { f with work := .done } else s
    | _ => s) s

/-- KERB_DECIDE (R152): the decision on the reduced record of the oldest closing, once the gated clusters that hold its tables are awake
(R429). -/
def execKerbDecide (ctx : Fin 16) (s : State) : Host.Outcome State Fault Refusal :=
  match (s.kerbOf ctx).closings with
  | [] => .next s
  | k :: r =>
    if k.stage ≠ .ready then .next s
    else
      let t := s.kerbDecide ctx k
      let t := t.setKerb ctx { t.kerbOf ctx with closings := r, decided := k.step }
      .next (s.unlessGated (t.releaseKsteps ctx))

/-- KERB_REDUCE_TIMEOUT (R151). -/
def execKerbReduceTimeout (ctx : Fin 16) (s : State) : Host.Outcome State Fault Refusal :=
  match (s.kerbOf ctx).closings with
  | [] => .next s
  | k :: _ =>
    if k.stage = .ready || k.timeout || s.regFld (kerbK ctx 0x40) 0 32 = 0 then .next s
    else .next (((s.setClosing ctx { k with timeout := true }).setBit (kerbK ctx 0x38) 6 true).report 0x02
      Code.KERB_REDUCE_TIMEOUT 0 { context := ctx })

/-- The step whose decision a KSTEP of step `n` waits for (R145). -/
def kstepNeeds (policy : W64) (n : BitVec 32) : BitVec 32 := if bitAt policy 29 then n - 1 else n

/-- `s` with step `n` of a context closed (R145 step 1). -/
def State.closeStep (s : State) (ctx : Nat) (n : BitVec 32) : State :=
  let k := s.kerbRegs ctx
  let m := s.kerbOf ctx
  (s.setFld (kerbK ctx 0x38) 32 32 n.toNat).setKerb ctx
    { m with sample := some k, closings := m.closings ++ [{ step := n, sample := k, stage := .waitWork }] }

/-- The refusal of a KSTEP at issue (R144). -/
def State.kstepCheck (s : State) (c : Nat) (q : Queue) (w : InstrWord) : Option Ref :=
  let n := s.stepField c q w
  let k := BitVec.ofNat 32 (s.kstepNow (s.ctxOf c))
  need (n == k + 1 || n == k) Code.KSTEP_ORDER

/-- A KSTEP that issues: it closes its step or joins its close (R144, R145). -/
def State.kstepIssue (s : State) (c : Nat) (q : Queue) (w : InstrWord) : Issued :=
  let ctx := s.ctxOf c
  let n := s.stepField c q w
  let t := if n = BitVec.ofNat 32 (s.kstepNow ctx) then s else s.closeStep ctx n
  let x := kstepNeeds (t.kerbNow ctx).policy n
  { st := t, work := if (t.kerbOf ctx).closings.any (·.step == x) then .kstep ctx x else .done, step := n }

/-- KSTEP (R144, R145, R269). -/
def execKstep (c : Fin 96) (q : Queue) (w : InstrWord) (s : State) : Host.Outcome State Fault Refusal :=
  .next (s.runHead c q .kstep w fun s =>
    match s.kstepCheck c q w with
    | some r => .refuseRef r
    | none => .issue (s.kstepIssue c q w))

/-- The statistics of the open step under a new step number (R155). -/
def rekeyStats (old new : BitVec 32) (t : Tbl KStat) : Tbl KStat :=
  t.foldl (fun r p =>
    if statKey old 0 0 ≤ p.1 && p.1 < statKey old 0 0 + 131072 then tset r (p.1 - statKey old 0 0 + statKey new 0 0) p.2
    else if statKey new 0 0 ≤ p.1 && p.1 < statKey new 0 0 + 131072 then r
    else tset r p.1 p.2) []

/-- `s` after a write of KERB_STATUS: the write-1-to-clear bits, and STEP unless it is held (R155). -/
def State.kerbStatusWrite (s : State) (ctx : Nat) (v : W64) : State :=
  let k := kerbK ctx 0x38
  let s := s.setFld k 4 3 (s.regFld k 4 3 - (s.regFld k 4 3 &&& fld v 4 3))
  if s.ladderBusy ctx || (s.inflightOf ctx).any (fun p => p.2.2.op == .kstep) then s
  else
    let m := s.kerbOf ctx
    let n := BitVec.ofNat 32 (fld v 32 32)
    let old := s.openStep ctx
    (s.setFld k 32 32 n.toNat).setKerb ctx
      { m with closings := [], decided := n, stats := if old = n + 1 then m.stats else rekeyStats old (n + 1) m.stats }

/-- KERB_STATUS_STEP_WRITE (R155). -/
def execKerbStatusStepWrite (ctx bank : Fin 16) (v : W64) (s : State) : Host.Outcome State Fault Refusal :=
  .next (s.bankWrite ctx bank (kerbK bank 0x38) fun b => s.kerbStatusWrite b v)

/-- Instructions that quantise are in flight, or a decision is outstanding: DISCARD_KSTAT is refused (R406). -/
def State.discardRefused (s : State) (ctx : Nat) : Bool :=
  s.ladderBusy ctx || (s.inflightOf ctx).any fun p => p.2.2.op == .ldq || p.2.2.op == .mdrn

/-- `s` after DISCARD_KSTAT (R406). -/
def State.discardKstat (s : State) (ctx : Nat) : State :=
  if s.discardRefused ctx then s.setBit (errK ctx 8) 61 true else s.dropStats ctx (s.openStep ctx)

/-- `s` after KRESEND (R406). -/
def State.kresend (s : State) (ctx : Nat) : State :=
  let m := s.kerbOf ctx
  if m.sent = [] then s.setBit (errK ctx 8) 61 true
  else m.sent.foldl (fun s r => s.emitRecord ctx (s.reduceRegs ctx) r) s

/-- DISCARD_KSTAT (R406). -/
def execDiscardKstat (ctx bank : Fin 16) (s : State) : Host.Outcome State Fault Refusal :=
  .next (s.bankWrite ctx bank (errK bank 8) fun b => s.discardKstat b)

/-- KRESEND (R406). -/
def execKresend (ctx bank : Fin 16) (s : State) : Host.Outcome State Fault Refusal :=
  .next (s.bankWrite ctx bank (errK bank 8) fun b => s.kresend b)

end Sys2Proof.Machine
end

