-- ==== Sys2Proof/Machine/Matrix.lean ====
section
/-! DEFINITION. The matrix engines, the helictite unit and the pick scheduler (04_matrix_engines.md; R128 to R134, R158, R162 to
R171). -/

namespace Sys2Proof.Machine

/-- A tile header as read (R94). -/
structure Hdr where
  layer : Nat
  rung : Nat
  form : Nat
  efmt : Nat
  rotsz : Nat
  group : Nat
  flags : Nat
  lines : Nat
  nslot : Nat
  kp : Nat
  k0 : Nat
  rotSeed : Nat
  ndecl : Nat
  scaleOff : Nat
  elemOff : Nat
  sideOff : Nat
  bytes : Nat
  /-- the bytes that R94 marks 0 are 0 -/
  zeros : Bool
deriving DecidableEq, Repr

/-- The header in 64 bytes (R94). -/
def hdrOf (bs : List Byte) : Hdr :=
  let f := fun o n => leNat ((bs.drop o).take n)
  { layer := f 0 2, rung := f 2 1, form := f 3 1, efmt := f 4 1, rotsz := f 5 1, group := f 6 1, flags := f 7 1, lines := f 8 2,
    nslot := f 0xA 2, kp := f 0xC 4, k0 := f 0x10 8, rotSeed := f 0x18 8, ndecl := f 0x20 2, scaleOff := f 0x24 4,
    elemOff := f 0x28 4, sideOff := f 0x2C 4, bytes := f 0x30 4, zeros := f 0x22 2 == 0 && f 0x34 12 == 0 }

/-- Bits per element of a tile (R94). -/
def Hdr.w (h : Hdr) : Nat := if h.efmt = 4 then 16 else if h.efmt = 2 then 8 else 4
def Hdr.g (h : Hdr) : Nat := groupSize h.group
def Hdr.ngroups (h : Hdr) : Nat := h.kp / h.g

/-- Bytes of the scale area (R94). -/
def Hdr.scaleBytes (h : Hdr) : Nat :=
  match h.form with
  | 0 => 2 * h.lines
  | 1 => 4 * h.lines
  | 2 => h.lines * h.ngroups
  | 3 => 4 * h.lines + h.lines * h.ngroups
  | _ => 0

/-- Bytes of the element area (R94, R160). -/
def Hdr.elemBytes (h : Hdr) : Nat := (h.lines + 31) / 32 * segCount h.kp h.w * 2048

/-- The combinations of R467. -/
def Hdr.combo (h : Hdr) : Bool :=
  match h.rung with
  | 0 => h.form ≤ 2 && h.efmt ≤ 1 && (h.form != 0 || h.kp ≤ 16384)
  | 1 => (h.form == 2 || h.form == 3) && h.efmt ≤ 1
  | 2 => h.form ≤ 2 && h.efmt == 2 && (h.form != 0 || h.kp ≤ 16384)
  | 3 => h.form == 4 && h.efmt == 4
  | _ => false

/-- A header at chamber offset `off` is valid (R467), FLAGS bit 4 apart. -/
def Hdr.ok (h : Hdr) (off : Nat) : Bool :=
  let p := max (rotSize h.rotsz) (max h.g 32)
  let elemEnd := h.elemOff + h.elemBytes
  h.combo && h.flags < 32 && h.flags.testBit 0 == (h.nslot != 0) && h.flags.testBit 3 == (h.ndecl != 0)
    && h.flags.testBit 1 == (h.form == 2 && (h.rung == 0 || h.rung == 2))
    && (if h.rung = 0 then 4 ≤ h.rotsz && h.rotsz ≤ 8 else if h.rung = 1 then h.rotsz == 0 || (4 ≤ h.rotsz && h.rotsz ≤ 8)
        else h.rotsz == 0)
    && h.group ≤ 2 && 1 ≤ h.lines && h.lines ≤ 256 && h.nslot ≤ 32 && h.ndecl ≤ 128
    && (h.rung ≤ 1 || (h.nslot == 0 && h.ndecl == 0))
    && h.kp != 0 && h.kp % p == 0 && h.k0 % p == 0 && h.scaleOff == 0x40
    && h.elemOff + off == alignUp (off + 0x40 + h.scaleBytes) 2048
    && (if h.nslot = 0 && h.ndecl = 0 then h.sideOff == 0 && h.bytes == elemEnd else h.sideOff == elemEnd && h.sideOff < h.bytes)
    && h.bytes % 64 == 0 && h.zeros

/-- Bytes of a core's chamber from an offset; beyond the window they are a free value (log 26). -/
def State.chamRead (s : State) (c off n : Nat) : UnitRd :=
  let k := min n (0x400000 - off)
  let r := s.readBytes (chamPa c off) k
  { r with data := r.data ++ (List.range (n - k)).map fun i => Config.beyondChamber (off + k + i) }

/-- The first bad unit of a stretch of a core's chamber, with its outcome. -/
def State.chamBad (s : State) (c off n : Nat) : Option (Nat × TagSt) :=
  (unitsOf off (min n (0x400000 - off))).findSome? fun u =>
    let t := (s.readUnit (chamPa c u)).tag
    if t = .good then none else some (u, t)

def State.tileA (s : State) (c : Nat) (q : Queue) (w : InstrWord) : Nat := s.offs c q w (opnd w 63 48 * 64)
def State.tileB (s : State) (c : Nat) (q : Queue) (w : InstrWord) : Nat := s.offs c q w (opnd w 47 32 * 64)

/-- KOFF with XR (R259). -/
def State.koff (s : State) (c : Nat) (q : Queue) (w : InstrWord) : Nat :=
  (BitVec.ofNat 64 (opnd w 31 20 * 32) + (if w.f3 then s.sreg c q 14 else 0)).toNat
def klen (w : InstrWord) : Nat := opnd w 19 7 * 32
def proleOf (w : InstrWord) : Nat := opnd w 6 5

/-- The header at an offset of a core's chamber. -/
def State.hdrAt (s : State) (c off : Nat) : Hdr := hdrOf (s.readUnit (chamPa c off)).data

/-- TILE_INVALID for a header in a bad unit (R333). -/
def State.hdrBad (s : State) (c off : Nat) : Option Ref :=
  let u := s.readUnit (chamPa c off)
  if u.tag = .good then none else some { code := Code.TILE_INVALID, bad := some (badKind (tagCode u.tag), s.chamAddr c off) }

/-- The layer table entry in a bad unit. -/
def State.layerBad (s : State) (ctx layer : Nat) : Option Ref :=
  let u := s.layerWord ctx layer
  if u.tag = .good then none else some { code := Code.TILE_INVALID, bad := some (badKind (tagCode u.tag), s.layerAddr ctx layer) }

/-- A fresh MMA that opens a null buffer (R166): PROLE 10 and WFROZ of the layer. -/
def State.opensNull (s : State) (c : Nat) (q : Queue) (w : InstrWord) : Bool :=
  !w.f0 && proleOf w == 2 && wfrozOf (s.layerVal (s.ctxOf c) (s.hdrAt c (s.tileA c q w)).layer)

/-- The MMA runs as null (R166). -/
def State.runsNull (s : State) (c : Nat) (q : Queue) (w : InstrWord) : Bool :=
  if w.f0 then (s.buf c (bufOf q w)).null else s.opensNull c q w

/-- The two headers agree, and with the buffer that they continue (R107). -/
def hdrsAgree (a b : Hdr) (cont : Option MxBuf) : Bool :=
  a.layer == b.layer && a.rung == b.rung && a.k0 == b.k0 && a.rotsz == b.rotsz && a.rotSeed == b.rotSeed
    && !a.flags.testBit 4 && !b.flags.testBit 4 &&
    match cont with
    | some x => x.rows == a.lines && x.cols == b.lines
    | none => true

/-- What the checks of an MMA read of the context's tables: the entry of its layer, for a fresh one with PROLE 10 (R166). -/
def State.mmaTables (s : State) (c : Nat) (q : Queue) (w : InstrWord) : List (Nat × Nat) :=
  if !w.f0 && proleOf w == 2 && (s.hdrBad c (s.tileA c q w)).isNone then
    [(s.layerAddr (s.ctxOf c) (s.hdrAt c (s.tileA c q w)).layer, 8)]
  else []

/-- The refusals of an MMA (R105, R107, R109, R158, R166, R259, R333). -/
def State.mmaCheck (s : State) (c : Nat) (q : Queue) (w : InstrWord) : Option Ref :=
  let x := s.buf c (bufOf q w)
  let oa := s.tileA c q w
  let ob := s.tileB c q w
  let a := s.hdrAt c oa
  let b := s.hdrAt c ob
  firstRef
    [ need (s.koff c q w % 32 == 0) Code.KLEN_INVALID,
      need (w.f0 || proleOf w != 3) Code.TILE_INVALID,
      need (!w.f0 || x.mode == .open_) Code.ACC_NOT_OPEN,
      s.hdrBad c oa, s.hdrBad c ob,
      if !w.f0 && proleOf w = 2 then s.layerBad (s.ctxOf c) a.layer else none,
      if s.runsNull c q w then need (a.layer == b.layer) Code.TILE_INVALID
      else
        firstRef
          [ need (a.ok oa && b.ok ob && hdrsAgree a b (if w.f0 then some x else none)) Code.TILE_INVALID,
            need (s.koff c q w + klen w ≤ min a.kp b.kp) Code.KLEN_INVALID,
            need ((if w.f0 then x.used else 0) + klen w ≤ 2 ^ 24) Code.KACC_LIMIT ] ]

/-- What an MMA needs of the engines (R162). -/
inductive MxNeed where
  | null | engine (e : Bool) | any | wait
deriving DecidableEq, Repr

/-- The need of an MMA that no check refuses (R109, R162, R166). -/
def State.mxNeed (s : State) (c : Nat) (q : Queue) (w : InstrWord) : MxNeed :=
  let x := s.buf c (bufOf q w)
  if x.mode = .draining then .wait
  else if s.runsNull c q w then .null
  else if x.mode = .free || x.null then .any else .engine x.engine

/-- MMAs that an engine runs: the accumulation cycles that remain of each (R163). Commands take no time, so how many have passed is a free
value (DESIGN CHOICE, log 18). -/
def State.engineLoad (s : State) (c : Nat) (e : Bool) : List Nat :=
  ([Queue.mqf, Queue.mqb].map fun q => (s.queue c q).inflight.filterMap fun f =>
    match f.work with
    | .mma _ g n => if g = e then some (n - Config.elapsedCycles s.ids f.id) else none
    | _ => none).flatten

/-- Unit identifier of an engine (R395). -/
def engineUnit (c : Nat) (e : Bool) : W16 := srcOf (if e then 2 else 1) c

/-- The issue slot of an engine is free (R162); an engine under self-test takes no instructions (R397). -/
def State.slotFree (s : State) (c : Nat) (e : Bool) : Bool :=
  (s.engineLoad c e).length ≤ 1 && !s.underTest (engineUnit c e)

/-- Physical buffer `p` of an engine is in use (R108). -/
def State.physUsed (s : State) (c : Nat) (e p : Bool) : Bool :=
  (List.range 4).any fun i =>
    let x := s.buf c i
    x.mode != .free && !x.null && x.engine == e && x.phys == p

/-- Engines that a fresh MMA may take (R162, R163). -/
def State.mxFree (s : State) (c : Nat) : List Bool :=
  [false, true].filter fun e => s.slotFree c e && (!s.physUsed c e false || !s.physUsed c e true)

/-- The engine with the fewer remaining accumulation cycles; MXA on a tie (R163). -/
def State.leastLoaded (s : State) (c : Nat) : List Bool → Option Bool
  | [] => none
  | [e] => some e
  | _ => some (decide ((s.engineLoad c true).sum < (s.engineLoad c false).sum))

/-- The other matrix queue. -/
def otherMx : Queue → Queue
  | .mqb => .mqf
  | _ => .mqb

/-- The eligible MMA at the head of a matrix queue (R162). -/
def State.mxHead (s : State) (c : Nat) (q : Queue) : Option InstrWord :=
  let x := s.queue c q
  match x.fetched with
  | none => none
  | some b =>
    let w := frameOf b
    if opOf (opField b) == some .mma && x.headIs .mma w && s.waitMet c q w && x.room q .mma && (s.frameCheck c q .mma w).isNone
      && (s.mmaCheck c q w).isNone then some w else none

/-- A queue that has lost LIMIT conflicts in a row (R164). -/
def State.forcedWin (s : State) (c : Nat) (q : Queue) : Bool :=
  let lim := s.regFld (coreK c 0xA00) 16 16
  s.regFld (coreK c 0xA00) 0 2 != 2 && lim != 0 && lim ≤ (s.queue c q).lost

/-- MQB wins a conflict of the two heads, by the MB of each as read when it became the head (R164). -/
def State.mqbWins (s : State) (c : Nat) : Bool :=
  if s.forcedWin c .mqf then false
  else if s.forcedWin c .mqb then true
  else match s.regFld (coreK c 0xA00) 0 2 with
    | 0 => false
    | 1 => true
    | 2 => (tget s.lastLoser c).getD false
    | _ => s.regBit (pipeK (s.ctxOf c) 0) 0 && decide ((s.queue c .mqb).mb < (s.queue c .mqf).mb)

/-- The head of `q` wins a conflict against the other queue's head. -/
def State.winsPick (s : State) (c : Nat) (q : Queue) : Bool := if q = .mqb then s.mqbWins c else !s.mqbWins c

/-- What the scheduler gives a head (R162 to R164). `conflict`: it won one. `other`: the engine that it leaves to the other queue's
fresh MMA. -/
inductive Pick where
  | wait
  | take (e : Option Bool) (conflict : Bool) (other : Option Bool := none)
deriving DecidableEq, Repr

/-- The engine that the other head has left to a head, when it can still be taken (R163). -/
def State.leftTo (s : State) (c : Nat) (q : Queue) : Option Bool := (s.queue c q).given.filter fun e => (s.mxFree c).contains e

/-- The scheduler's choice for the MMA at the head of a matrix queue (R162 to R164). -/
def State.pick (s : State) (c : Nat) (q : Queue) (w : InstrWord) : Pick :=
  let other := (s.mxHead c (otherMx q)).map fun o => s.mxNeed c (otherMx q) o
  let free := s.mxFree c
  let contest := fun (e : Bool) => if s.winsPick c q then Pick.take (some e) true else .wait
  match s.mxNeed c q w with
  | .wait => .wait
  | .null => .take none false
  | .engine e =>
    if !s.slotFree c e then .wait
    else match other with
      | some (.engine e') => if e' = e then contest e else .take (some e) false
      | some .any => if free = [e] then contest e else .take (some e) false
      | _ => .take (some e) false
  | .any =>
    match s.leftTo c q, s.leastLoaded c free with
    | some e, _ => .take (some e) false
    | none, none => .wait
    | none, some best =>
      match other with
      | some (.engine e') =>
        if !s.slotFree c e' then .take (some best) false
        else match s.leastLoaded c (free.filter (· ≠ e')) with
          | some e => .take (some e) false
          | none => contest e'
      | some .any =>
        if free.length < 2 then contest best
        else
          let e := if s.winsPick c q then best else !best
          .take (some e) false (some !e)
      | _ => .take (some best) false

/-- `s` with a won conflict counted (R164, R176). -/
def State.countPick (s : State) (c : Nat) (q : Queue) (conflict : Bool) : State :=
  if conflict then
    let o := otherMx q
    let s := if s.forcedWin c q then s.count (coreK c 0xA10) 1 else s
    let s := s.countSat (coreK c 0xA08) (if q = .mqb then 32 else 0) 32 1
    let s := { s with lastLoser := tset s.lastLoser c (o == Queue.mqb) }
    let s := s.setQueue c o { s.queue c o with lost := (s.queue c o).lost + 1 }
    s.setQueue c q { s.queue c q with lost := 0 }
  else s.setQueue c q { s.queue c q with lost := 0 }

/-- `s` with an engine left to the other queue's head (R163). -/
def State.leave (s : State) (c : Nat) (q : Queue) : Option Bool → State
  | some e => s.setQueue c (otherMx q) { s.queue c (otherMx q) with given := some e }
  | none => s

/-- An operand element as a cell reads it (R99, R101). `int q p`: q * 2^p. -/
inductive MxEl where
  | nan
  | inf (neg : Bool)
  | int (q p : Int)
deriving DecidableEq, Repr

/-- Unit exponent of an element format (R99). -/
def unitExp (efmt : Nat) : Int := match efmt with | 0 => 1 | 2 => 9 | _ => 0

/-- An element code as operand (R99, R101). BF16 keeps its exponent; the other formats are integers in their unit. -/
def elOf (efmt code : Nat) : MxEl :=
  match efmt with
  | 4 =>
    match Fmt.bf16.value code with
    | .nan => .nan
    | .inf n => .inf n
    | .fin _ _ =>
      let e := code / 128 % 256
      let m : Int := if e = 0 then (code % 128 : Nat) else (code % 128 : Nat) + 128
      .int (if code / 0x8000 % 2 = 1 then -m else m) (if e = 0 then -133 else (e : Int) - 134)
  | _ =>
    match (match efmt with | 0 => Fmt.e2m1 | 1 => Fmt.int4 | _ => Fmt.e4m3).value code with
    | .fin m e => .int (m * 2 ^ (e + unitExp efmt).toNat) 0
    | _ => .nan

/-- A governing scale over a chunk (R100); none: a NaN scale. -/
abbrev MxScale := Option (Int × Int)

/-- Scale integer and exponent of an E8M3 container (R100). -/
def lineScale (x : Nat) : MxScale :=
  let a := x % 4096
  if 0x7F8 ≤ a then none
  else if a < 8 then some (a, -129) else some (8 + (a % 8 : Nat), (a / 8 : Nat) - 130)

/-- Scale integer and exponent of an E8M0 code (R100). -/
def groupScale (x : Nat) : MxScale := if x % 256 = 255 then none else some (1, (x % 256 : Nat) - 127)

/-- The accumulator of R102: L, W, S, Z. -/
structure Acc where
  l : Int
  w : Int
  s : Bool
  z : Bool
deriving DecidableEq, Repr

/-- add_term over a register of `lim` usable bits (R102, R131). -/
def addTerm (lim : Nat) (r : Acc) (t e : Int) : Acc :=
  if r.z then { r with l := t, w := e, z := false }
  else
    let r := if e < r.w then
        let sh := min (r.w - e).toNat (lim - bitLen r.l.natAbs)
        { r with l := r.l * 2 ^ sh, w := r.w - sh }
      else r
    let r := if r.w ≤ e then
        let up := (bitLen t.natAbs : Int) + (e - r.w) - lim
        let r := if 0 < up then
            { r with s := r.s || r.l % 2 ^ up.toNat != 0, l := r.l / 2 ^ up.toNat, w := r.w + up }
          else r
        { r with l := r.l + t * 2 ^ (e - r.w).toNat }
      else
        let d := (r.w - e).toNat
        { r with s := r.s || t % 2 ^ d != 0, l := r.l + t / 2 ^ d }
    if lim < bitLen r.l.natAbs then { r with s := r.s || r.l % 2 != 0, l := r.l / 2, w := r.w + 1 } else r

/-- A term added to the long register of a cell (R102). -/
def MxCell.add (x : MxCell) (t e : Int) : MxCell :=
  let r := addTerm 62 { l := x.l.toInt, w := x.w.toInt, s := x.s, z := x.z } t e
  { x with l := BitVec.ofInt 64 r.l, w := BitVec.ofInt 16 r.w, s := r.s, z := r.z }

/-- A term added to the helictite register of a cell: an empty register is positioned (R128, R131). -/
def MxCell.addHeli (x : MxCell) (t e : Int) : MxCell :=
  let r := addTerm 78 { l := x.hv.toInt, w := x.hx.toInt, s := x.hs, z := x.hv == 0 && !x.hs } t e
  { x with hv := BitVec.ofInt 80 r.l, hx := BitVec.ofInt 12 r.w, hs := r.s }

/-- The cell's output is NaN by its flags (R115). -/
def MxCell.isNan (x : MxCell) : Bool := x.n || x.hn || ((x.p || x.hp) && (x.m || x.hm))

/-- The origin written when an event first makes the output NaN (R114). -/
def MxCell.origin1 (x : MxCell) (code : BitVec 3) : MxCell :=
  if x.isNan && x.origin.isNone then { x with origin := some code } else x

/-- What a product of two operands does (R113). -/
inductive MxProd where
  | nan (code : BitVec 3)
  | inf (neg : Bool)
  | none
  | term (t e : Int)
deriving DecidableEq, Repr

/-- The product of two operand elements, each under a scale that may be NaN (R113, R114). -/
def mxProd (a b : MxEl) (aNan bNan : Bool) : MxProd :=
  let na := aNan || a == .nan
  let nb := bNan || b == .nan
  if na && nb then .nan 2
  else if na then .nan 0
  else if nb then .nan 1
  else match a, b with
    | .inf x, .inf y => .inf (x != y)
    | .inf x, .int q _ => if q = 0 then .nan 3 else .inf (x != decide (q < 0))
    | .int q _, .inf y => if q = 0 then .nan 3 else .inf (y != decide (q < 0))
    | .int q p, .int r o => if q = 0 || r = 0 then .none else .term (q * r) (p + o)
    | _, _ => .none

/-- One chunk of a line: its 32 elements and its governing scale. -/
structure Chunk where
  els : List MxEl
  sc : MxScale
deriving DecidableEq, Repr

/-- A chunk of rungs 0 to 2 in one cell (R100, R113): `u` is the sum of the unit exponents. -/
def MxCell.chunk (u : Int) (x : MxCell) (a b : Chunk) : MxCell :=
  let ps := (a.els.zip b.els).map fun p => mxProd p.1 p.2 a.sc.isNone b.sc.isNone
  let x := ps.foldl (fun x p => match p with | .nan k => ({ x with n := true } : MxCell).origin1 k | _ => x) x
  let sum := ps.foldl (fun t p => match p with | .term v _ => t + v | _ => t) (0 : Int)
  match a.sc, b.sc with
  | some (ma, xa), some (mb, xb) =>
    let t := sum * ma * mb
    if t = 0 then x else x.add t (xa + xb - u)
  | _, _ => x

/-- A product of rung 3 in one cell (R101, R113). -/
def MxCell.prod (x : MxCell) (a b : MxEl) : MxCell :=
  match mxProd a b false false with
  | .nan k => ({ x with n := true } : MxCell).origin1 k
  | .inf neg => (if neg then { x with m := true } else { x with p := true } : MxCell).origin1 4
  | .none => x
  | .term t e => x.add t e

/-- A product of a rank-one update in one cell (R131). -/
def MxCell.rank (x : MxCell) (a b : MxEl) : MxCell :=
  match mxProd a b false false with
  | .nan _ => ({ x with hn := true } : MxCell).origin1 5
  | .inf neg => (if neg then { x with hm := true } else { x with hp := true } : MxCell).origin1 5
  | .none => x
  | .term t e => x.addHeli t e

/-- A tile opened for reading: core, chamber offset and header. -/
structure TileAt where
  c : Nat
  off : Nat
  h : Hdr
deriving DecidableEq, Repr

/-- The bytes of segment `j` of line `i` of a tile (R160). -/
def State.segment (s : State) (t : TileAt) (i j : Nat) : List Byte :=
  (s.chamRead t.c (t.off + t.h.elemOff + (i / 32 * segCount t.h.kp t.h.w + j) * 2048 + (i % 32 + j) % 32 * 64) 64).data

/-- The element codes `k` to `k` + 31 of a line, from the tile's K0 (R160). -/
def State.chunkCodes (s : State) (t : TileAt) (i k : Nat) : List Nat :=
  let w := t.h.w
  let v := leNat (s.segment t i (k * w / 512))
  (List.range 32).map fun n => v >>> ((k + n) * w % 512) % 2 ^ w

/-- The table entry of line `i`: 1.0 where the tile is not in table form (R111). -/
def State.tableEntry (s : State) (t : TileAt) (i : Nat) : BitVec 32 :=
  if t.h.form = 1 || t.h.form = 3 then BitVec.ofNat 32 (leNat (s.chamRead t.c (t.off + 0x40 + 4 * i) 4).data) else 0x3F800000

/-- The table entries of a tile's lines. -/
def State.tableOf (s : State) (t : TileAt) : List (BitVec 32) := (List.range t.h.lines).map (s.tableEntry t)

/-- The table entry is a NaN: the elements it governs stand under a NaN scale (R88, R113). -/
def entryNan (x : BitVec 32) : Bool := v32 x.toNat == .nan

/-- The governing scale of line `i` over the chunk at `k` (R100). `tab`: the latched table entry. -/
def State.chunkScale (s : State) (t : TileAt) (tab : BitVec 32) (i k : Nat) : MxScale :=
  let group := fun base => groupScale (leNat (s.chamRead t.c (t.off + base + i * t.h.ngroups + k / t.h.g) 1).data)
  match t.h.form with
  | 0 => lineScale (leNat (s.chamRead t.c (t.off + 0x40 + 2 * i) 2).data)
  | 2 => group 0x40
  | 3 => if entryNan tab then none else group (0x40 + 4 * t.h.lines)
  | _ => if entryNan tab then none else some (1, 0)

/-- The chunks of one line over the consumed range (R100, R106). -/
def State.lineChunks (s : State) (t : TileAt) (tab : BitVec 32) (koff len i : Nat) : List Chunk :=
  (List.range (len / 32)).map fun n =>
    let k := koff + 32 * n
    { els := (s.chunkCodes t i k).map (elOf t.h.efmt), sc := s.chunkScale t tab i k }

/-- An entry of a side record (R94): channel, values, and for a slot its companion row; with its place. -/
structure SideEnt where
  ch : Nat
  vals : List Nat
  comp : Option (List Nat)
  at_ : Nat
  len : Nat
deriving DecidableEq, Repr

/-- The value at an index of a list of BF16 patterns in bytes. -/
def bf16s (n : Nat) (bs : List Byte) : List Nat := (List.range n).map fun i => leNat ((bs.drop (2 * i)).take 2)

/-- The entries of a side record from an offset of the tile: `nd` declared ones, then `ns` slots (R94). -/
def State.sideFrom (s : State) (t : TileAt) : Nat → Nat → Nat → List SideEnt
  | 0, 0, _ => []
  | nd + 1, ns, p =>
    let r := s.chamRead t.c (t.off + p) (4 + 2 * t.h.lines)
    let len := alignUp (4 + 2 * t.h.lines) 16
    { ch := leNat (r.data.take 4), vals := bf16s t.h.lines (r.data.drop 4), comp := none, at_ := p, len := len } ::
      s.sideFrom t nd ns (p + len)
  | 0, ns + 1, p =>
    let r := s.chamRead t.c (t.off + p) (8 + 2 * t.h.lines)
    let cl := leNat ((r.data.drop (4 + 2 * t.h.lines)).take 4)
    let cs := (s.chamRead t.c (t.off + p + 8 + 2 * t.h.lines) (2 * min cl 0x400000)).data
    let len := alignUp (8 + 2 * t.h.lines + 2 * cl) 16
    { ch := leNat (r.data.take 4), vals := bf16s t.h.lines (r.data.drop 4), comp := some (bf16s cl cs), at_ := p, len := len } ::
      s.sideFrom t 0 ns (p + len)

/-- The side record entries of a tile whose channels lie in the consumed range (R129). -/
def State.sideOf (s : State) (t : TileAt) (koff len : Nat) : List SideEnt :=
  if t.h.sideOff = 0 then []
  else (s.sideFrom t t.h.ndecl t.h.nslot t.h.sideOff).filter fun e => t.h.k0 + koff ≤ e.ch && e.ch < t.h.k0 + koff + len

/-- A rank-one update: channel, A values and B values (R129). -/
structure RankOne where
  ch : Nat
  a : List Nat
  b : List Nat
deriving DecidableEq, Repr

/-- The updates of two side records and whether an entry contributes nothing (R129, R130). A declared entry whose channel the other tile
lists only as a dynamic slot has no declared partner and contributes nothing (DEDUCED, log 83). -/
def rankOnes (rows cols : Nat) (sa sb : List SideEnt) : List RankOne × Bool :=
  let da := sa.filter (·.comp.isNone)
  let db := sb.filter (·.comp.isNone)
  let la := sa.filter (·.comp.isSome)
  let lb := sb.filter (·.comp.isSome)
  let pairs := da.filterMap fun x => (db.find? (·.ch == x.ch)).map fun y => ({ ch := x.ch, a := x.vals, b := y.vals } : RankOne)
  let fa := la.filter fun x => (x.comp.getD []).length == cols
  let fb := lb.filter fun x => (x.comp.getD []).length == rows
  let lone := da.any (fun x => !db.any (·.ch == x.ch)) || db.any (fun y => !da.any (·.ch == y.ch))
    || fa.length < la.length || fb.length < lb.length
  (pairs ++ fa.map (fun x => ({ ch := x.ch, a := x.vals, b := x.comp.getD [] } : RankOne)) ++
    fb.map (fun y => ({ ch := y.ch, a := y.comp.getD [], b := y.vals } : RankOne)), lone)

/-- Updates in increasing channel order (R114). -/
def sortRanks : List RankOne → List RankOne
  | [] => []
  | r :: rs =>
    let rec put : List RankOne → List RankOne
      | [] => [r]
      | x :: xs => if r.ch ≤ x.ch then r :: x :: xs else x :: put xs
    put (sortRanks rs)

/-- One cell after an MMA: four-bit terms, then helictite terms (R100 to R102, R114, R131). -/
def cellMma (rung : Nat) (u : Int) (as bs : List Chunk) (rk : List (MxEl × MxEl)) (x : MxCell) : MxCell :=
  let x := if rung = 3 then
      (as.zip bs).foldl (fun x p => (p.1.els.zip p.2.els).foldl (fun x e => x.prod e.1 e.2) x) x
    else (as.zip bs).foldl (fun x p => x.chunk u p.1 p.2) x
  rk.foldl (fun x p => x.rank p.1 p.2) x

/-- The cells of a buffer after an MMA, in row-major order (R106). -/
def State.mmaCells (s : State) (a b : TileAt) (x : MxBuf) (koff len : Nat) (rks : List RankOne) : List MxCell :=
  let u := unitExp a.h.efmt + unitExp b.h.efmt
  let as := (List.range x.rows).map fun i => s.lineChunks a (x.aTable.getD i 0) koff len i
  let bs := (List.range x.cols).map fun j => s.lineChunks b (x.bTable.getD j 0) koff len j
  x.cells.zipIdx.map fun p =>
    let i := p.2 / x.cols
    let j := p.2 % x.cols
    cellMma a.h.rung u (as.getD i []) (bs.getD j [])
      (rks.map fun r => (elOf 4 (r.a.getD i 0), elOf 4 (r.b.getD j 0))) p.1

/-- The stretches of a tile that an MMA consumes, as (offset, length) from the header (R333). -/
def consumed (t : TileAt) (fresh : Bool) (koff len : Nat) (side : List SideEnt) : List (Nat × Nat) :=
  let h := t.h
  let tab := if fresh && (h.form = 1 || h.form = 3) then [(0x40, 4 * h.lines)] else []
  if len = 0 then tab
  else
    let line := if h.form = 0 then [(0x40, 2 * h.lines)] else []
    let base := if h.form = 3 then 0x40 + 4 * h.lines else 0x40
    let grp := if h.form = 2 || h.form = 3 then
        (List.range h.lines).map fun i => (base + i * h.ngroups + koff / h.g, (koff + len - 1) / h.g - koff / h.g + 1)
      else []
    let segs := (List.range h.lines).map fun i =>
      (List.range ((koff + len) * h.w / 512 + (if (koff + len) * h.w % 512 = 0 then 0 else 1) - koff * h.w / 512)).map fun n =>
        let j := koff * h.w / 512 + n
        (h.elemOff + (i / 32 * segCount h.kp h.w + j) * 2048 + (i % 32 + j) % 32 * 64, 64)
    tab ++ line ++ grp ++ segs.flatten ++ side.map fun e => (e.at_, e.len)

/-- The first bad unit that an MMA consumes of a tile, as a chamber offset with its outcome. -/
def State.tileBad (s : State) (t : TileAt) (fresh : Bool) (koff len : Nat) (side : List SideEnt) : Option (Nat × TagSt) :=
  (consumed t fresh koff len side).findSome? fun p => s.chamBad t.c (t.off + p.1) p.2

/-- Cycles that an MMA holds its engine (R124). -/
def mmaCycles (rung len : Nat) : Nat := (if rung = 3 then 16 else if rung = 2 then 4 else 1) * len

/-- A buffer that a fresh MMA opens (R102, R109 to R111). -/
def openBuf (w : InstrWord) (e p : Bool) (a b : Hdr) (ta tb : List (BitVec 32)) : MxBuf :=
  { mode := .open_, engine := e, phys := p, layer := a.layer, rows := a.lines, cols := b.lines,
    prole := BitVec.ofNat 2 (proleOf w), slot := BitVec.ofNat 5 (slotOf w), aTable := ta, bTable := tb,
    cells := List.replicate (a.lines * b.lines) {} }

/-- `s` with a consumed bad unit recorded: the first one in CORE_MEM_ERR, and a mismatch triggers a self-test (R333, R397). -/
def State.mmaBad (s : State) (c : Nat) (q : Queue) (optag : W16) : Option (Nat × TagSt) → State
  | some (u, t) => s.tookTag c q optag (s.chamAddr c u) (chamPa c u) t
  | none => s

/-- An MMA that runs as null (R166): it completes in queue order, and its buffer's MDRN waits for that. -/
def State.mmaNull (s : State) (c : Nat) (q : Queue) (w : InstrWord) : Issued :=
  let i := bufOf q w
  let x := s.buf c i
  let s := s.count (coreK c 0xA18) 1
  if w.f0 then { st := s, work := .null i }
  else
    { work := .null i,
      st := s.setBuf c i { mode := .open_, null := true, layer := (s.hdrAt c (s.tileA c q w)).layer,
                            prole := BitVec.ofNat 2 (proleOf w), slot := BitVec.ofNat 5 (slotOf w) },
      events := if x.mode = .open_ then [Code.ACC_DISCARDED] else [] }

/-- An MMA that runs on engine `e` (R100 to R114, R128 to R131). -/
def State.mmaRun (s : State) (c : Nat) (q : Queue) (w : InstrWord) (e : Bool) : Issued :=
  let i := bufOf q w
  let x := s.buf c i
  let a : TileAt := { c := c, off := s.tileA c q w, h := s.hdrAt c (s.tileA c q w) }
  let b : TileAt := { c := c, off := s.tileB c q w, h := s.hdrAt c (s.tileB c q w) }
  let held := x.mode = .open_ && !x.null
  let y := if w.f0 then x
    else openBuf w e (if held then x.phys else s.physUsed c e false) a.h b.h (s.tableOf a) (s.tableOf b)
  let len := klen w
  let koff := s.koff c q w
  let sa := if len = 0 then [] else s.sideOf a koff len
  let sb := if len = 0 then [] else s.sideOf b koff len
  let (rks, lone) := rankOnes y.rows y.cols sa sb
  let rks := sortRanks rks
  let badA := s.tileBad a (!w.f0) koff len sa
  let badB := s.tileBad b (!w.f0) koff len sb
  let cells := if len = 0 then y.cells else s.mmaCells a b y koff len rks
  let y := { y with cells := cells, used := (if w.f0 then y.used else 0) + len, heli := y.heli + rks.length,
                    poisoned := y.poisoned || badA.isSome || badB.isSome }
  let t := (s.mmaBad c q w.optag (badA.or badB)).setBuf c i y
  { st := t, work := .mma i e (mmaCycles a.h.rung len),
    events := (if !w.f0 && x.mode = .open_ then [Code.ACC_DISCARDED] else []) ++
      (if w.f0 && (s.tableOf a != x.aTable || s.tableOf b != x.bTable) then [Code.SCALE_TABLE_CHANGED] else []) ++
      (if lone then [Code.HELI_UNPAIRED] else []) }

/-- An MMA that the scheduler has given what it needs. -/
def State.mmaIssue (s : State) (c : Nat) (q : Queue) (w : InstrWord) (e : Option Bool) (conflict : Bool) (other : Option Bool) : Issued :=
  let s := (s.countPick c q conflict).leave c q other
  match e with
  | some e => s.mmaRun c q w e
  | none => s.mmaNull c q w

/-- The refusals of an MMA in its first eligible cycle, with what they read (R162). -/
def State.mmaEarly (s : State) (c : Nat) (q : Queue) (w : InstrWord) : Option Ref :=
  (s.mmaCheck c q w).map fun r => { r with tables := s.mmaTables c q w }

/-- MMA: the pick scheduler, once no check refuses it (R106, R162). -/
def mmaVerdict (s : State) (c : Nat) (q : Queue) (w : InstrWord) : Verdict :=
  match s.pick c q w with
  | .wait => .wait .resource
  | .take e k o => (Verdict.issue (s.mmaIssue c q w e k o)).reading s (s.ctxOf c) (s.mmaTables c q w)

/-- MMA (R106, R259). -/
def execMma (c : Fin 96) (q : Queue) (w : InstrWord) (s : State) : Host.Outcome State Fault Refusal :=
  .next (s.runHead c q .mma w (fun s => mmaVerdict s c q w) (some fun s => s.mmaEarly c q w))

/-- The oldest instruction of a queue in flight whose work satisfies a test. -/
def QState.oldest (x : QState) (p : Work → Bool) : Option InFlight := x.inflight.find? fun f => p f.work

/-- The work is an MMA's, or an MDRN's. -/
def Work.isMma : Work → Bool
  | .mma _ _ _ => true
  | _ => false
def Work.isMdrn : Work → Bool
  | .mdrn _ => true
  | _ => false

/-- `s` with the work of an instruction in flight finished. -/
def State.workDone (s : State) (c : Nat) (q : Queue) (f : InFlight) : State :=
  s.mapFlight c q f.id fun g => { g with work := .done }

/-- MMA_COMPLETE (R112): the last term of the queue's oldest running MMA has been added. -/
def execMmaComplete (c : Fin 96) (q : Queue) (s : State) : Host.Outcome State Fault Refusal :=
  match (s.queue c q).oldest Work.isMma with
  | some f => if s.coreHung c then .next s else .next (s.workDone c q f)
  | none => .next s

/-- A register of a cell in the wide intermediate: a sticky bit counts as a discarded bit (R117 step 1, R132). A register of 0
has no significant bit to set (log 27). -/
def wideReg (l w : Int) (sticky : Bool) : Num :=
  if l = 0 then .zero
  else if sticky then
    let a : Int := (l.natAbs * 2 ^ 42 + 1 : Nat)
    wide (.fin (if l < 0 then -a else a) (w - 42))
  else wide (.fin l w)

/-- A cell's value before rounding, and its output when its flags decide it (R115, R117 steps 1 to 4). -/
def cellValue (ta tb : BitVec 32) (x : MxCell) : Num :=
  let main : Num :=
    if x.z then .zero
    else
      wide ((wide ((wideReg x.l.toInt x.w.toInt x.s).mul (v32 ta.toNat))).mul (v32 tb.toNat))
  let heli : Num := wideReg x.hv.toInt x.hx.toInt x.hs
  if x.isNan then .nan
  else if x.p || x.hp then .inf false
  else if x.m || x.hm then .inf true
  else if x.hv = 0 && !x.hs then main else wide (main.add heli)

/-- A drained cell: pattern, saturation, flushed to zero, NaN (R117). -/
structure Drained where
  pat : Nat
  sat : Bool
  uflow : Bool
  nan : Bool
deriving DecidableEq, Repr

/-- One cell through R117. -/
def drainCell (f : Fmt) (mode : Rnd) (seed : W64) (tag : W16) (x : MxBuf) (i j : Nat) (cell : MxCell) : Drained :=
  let v := cellValue (x.aTable.getD i 0) (x.bTable.getD j 0) cell
  let p := f.conv mode (srBits seed tag 0 (i * 256 + j)) v
  { pat := p.bits, sat := p.sat, uflow := v.isFin && !v.isZero && p.bits == 0, nan := v == .nan }

/-- The drained cells in row-major order. -/
def drainCells (f : Fmt) (mode : Rnd) (seed : W64) (tag : W16) (x : MxBuf) : List Drained :=
  x.cells.zipIdx.map fun p => drainCell f mode seed tag x (p.2 / x.cols) (p.2 % x.cols) p.1

/-- The tile is checked (R121). -/
def State.residueChecked (s : State) (c : Nat) (tag : W16) (dst : Nat) : Bool :=
  let z := mix64 ((BitVec.ofNat 64 tag.toNat <<< 32) ||| BitVec.ofNat 64 (dst / 64))
  decide (fld z 0 8 < s.regFld (coreK c 0x900) 0 9)

/-- The mismatches that count: within the tile, and the shadow of cells whose S is 0 (R122). -/
def residueReal (x : MxBuf) (f : ResidueFinding) : ResidueFinding :=
  { rows := f.rows.filter (· < x.rows), cols := f.cols.filter (· < x.cols),
    shadow := f.shadow.filter fun p => p.1 < x.rows && p.2 < x.cols && !(x.cells.getD (p.1 * x.cols + p.2) {}).s }

/-- A finding holds a mismatch. -/
def findingAny (f : ResidueFinding) : Bool := f.rows != [] || f.cols != [] || f.shadow != []

/-- The rows that a finding locates; none located but a column: every row (R122). -/
def findingMarks (f : ResidueFinding) (row : Nat) : Bool :=
  let rows := f.rows ++ f.shadow.map (·.1)
  if rows = [] then f.cols != [] else rows.contains row

/-- CORE_MX_RESERR of a tile's mismatches (R127). R122 orders them not: the row is the first that is located, by the row sums and then by
the shadows, and the column likewise on its own (DESIGN CHOICE, log 82). -/
def reserrWord (e : Bool) (buf : Nat) (f : ResidueFinding) (tag : W16) (pc : BitVec 14) : W64 :=
  let row := (f.rows ++ f.shadow.map (·.1)).head?
  let col := (f.cols ++ f.shadow.map (·.2)).head?
  let v := putFld (putBit (putBit 0 63 true) 62 e) 60 2 buf
  let v := putBit (putFld v 52 8 (row.getD 0)) 43 row.isSome
  let v := putBit (putFld v 44 8 (col.getD 0)) 42 col.isSome
  putFld (putFld (putBit v 41 (f.shadow != [])) 16 16 tag.toNat) 0 14 pc.toNat

/-- Bytes of one row of a drained tile, padded to whole units (R119). -/
def drainRow (bytes : Nat) (ds : List Drained) : List Byte :=
  let bs := (ds.map fun d => leBytes bytes d.pat).flatten
  bs ++ zeros (alignUp bs.length 64 - bs.length)

/-- `s` with the rows of a drained tile written from a chamber offset (R119, R120, R122, R333). -/
def State.drainWrite (s : State) (c dst bytes : Nat) (x : MxBuf) (ds : List Drained) (f : ResidueFinding) : State :=
  let units := ((chunks x.cols ds).zipIdx.map fun r =>
    (chunks 64 (drainRow bytes r.1)).map fun u => (u, x.poisoned || findingMarks f r.2)).flatten
  let room := (0x400000 - dst) / 64
  let s := (units.take room).zipIdx.foldl (fun s u => s.writeUnit (chamPa c (dst + 64 * u.2)) u.1.1 u.1.2) s
  (s.wrotePoison c ((units.take room).filter (·.2)).length).count (coreK c 0xC10) (units.length - room)

/-- An MDRN of a null buffer (R166). -/
def State.mdrnNull (s : State) (c i : Nat) : Issued :=
  { st := (s.count (coreK c 0xA18) 1).setBuf c i { s.buf c i with mode := .draining }, work := .mdrn i,
    step := s.openStep (s.ctxOf c) }

/-- The finding that applies to a drain: none where the tile is not checked (R121, R122). -/
def State.drainFinding (s : State) (c : Nat) (tag : W16) (dst : Nat) (x : MxBuf) (f : ResidueFinding) : ResidueFinding :=
  if s.residueChecked c tag dst then residueReal x f else {}

/-- `s` after the counters and registers of a drain (R104, R117, R121, R122, R127, R141). -/
def State.drainCount (s : State) (c i : Nat) (q : Queue) (w : InstrWord) (dst : Nat) (x : MxBuf) (ds : List Drained)
    (f : ResidueFinding) : State :=
  let inexact := x.cells.any (·.s)
  let s := (s.count (coreK c 0x910) 1).count (coreK c 0x918) (if inexact then 1 else 0)
  let s := s.count (coreK c 0x920) (if s.residueChecked c w.optag dst then 1 else 0)
  let s := if findingAny f then
      (s.count (coreK c 0x928) 1).first (coreK c 0x930) (reserrWord x.engine i f w.optag (s.queue c q).pc)
    else s
  s.addStat (s.ctxOf c) c x.layer (s.openStep (s.ctxOf c))
    { sat := (ds.filter Drained.sat).length, uflow := (ds.filter Drained.uflow).length, inexact := if inexact then 1 else 0,
      heli := x.heli, drains := 1 }

/-- An MDRN of a buffer with contents (R115 to R122). -/
def State.mdrnRun (s : State) (c : Nat) (q : Queue) (w : InstrWord) (found : ResidueFinding) : Issued :=
  let i := bufOf q w
  let x := s.buf c i
  let dst := s.offs c q w (opnd w 15 0 * 64)
  let fm := (fmtOf (opnd w 63 60)).getD .fp32
  let ds := drainCells fm ((rndOf (opnd w 59 58)).getD .rne) (s.reg (seedK c q)) w.optag x
  let f := s.drainFinding c w.optag dst x found
  let step := s.openStep (s.ctxOf c)
  let t := (s.drainWrite c dst (fm.bits / 8) x ds f).drainCount c i q w dst x ds f
  let t := t.setBuf c i { x with mode := .draining }
  let err := if findingAny f then some Code.RESIDUE_MISMATCH else none
  match ds.findIdx? (·.nan) with
  | none => { st := t, work := .mdrn i, error := err, step := step }
  | some n =>
    let cell := x.cells.getD n {}
    let origin := (cell.origin.getD (Config.nanOrigin w.optag.toNat)).toNat
    { st := t.nanTrap c q 0 origin (s.queue c q).pc w.optag (n / x.cols * 256 + n % x.cols), work := .mdrn i, error := err,
      events := if s.nanFills c then [Code.NAN_TRAPPED] else [], hold := if s.nanFills c then s.nanHold c else .none,
      step := step }

/-- The refusals of an MDRN (R109, R118). -/
def State.mdrnCheck (s : State) (c : Nat) (q : Queue) (w : InstrWord) : Option Ref :=
  firstRef
    [ need (2 ≤ opnd w 63 60 && opnd w 63 60 ≤ 5) Code.FORMAT_INVALID, need (rndOf (opnd w 59 58)).isSome Code.RND_RESERVED,
      need ((s.buf c (bufOf q w)).mode == .open_) Code.ACC_NOT_OPEN ]

/-- The last MMA into the buffer has not completed, and the buffer's MDRN is not eligible (R162). -/
def QState.mmaRuns (x : QState) (buf : Nat) : Bool :=
  x.inflight.any fun f => match f.work with
    | .mma i _ _ => i == buf
    | .null i => i == buf
    | _ => false

/-- An MDRN that issues. -/
def State.mdrnIssue (s : State) (c : Nat) (q : Queue) (w : InstrWord) (found : ResidueFinding) : Issued :=
  if (s.buf c (bufOf q w)).null then s.mdrnNull c (bufOf q w) else s.mdrnRun c q w found

/-- The refusals of an MDRN in its first eligible cycle (R162). -/
def State.mdrnEarly (s : State) (c : Nat) (q : Queue) (w : InstrWord) : Option Ref :=
  if (s.queue c q).mmaRuns (bufOf q w) then none else s.mdrnCheck c q w

/-- MDRN: eligible once its buffer's last MMA has completed (R162), with its drain path then free; an engine under test takes it not
(R397). -/
def mdrnVerdict (s : State) (c : Nat) (q : Queue) (w : InstrWord) (found : ResidueFinding) : Verdict :=
  let x := s.buf c (bufOf q w)
  if (s.queue c q).mmaRuns (bufOf q w) || (!x.null && s.underTest (engineUnit c x.engine)) then .wait .resource
  else .issue (s.mdrnIssue c q w found)

/-- MDRN (R117, R260), with what the residue checker finds (R122). -/
def execMdrn (c : Fin 96) (q : Queue) (w : InstrWord) (f : ResidueFinding) (s : State) : Host.Outcome State Fault Refusal :=
  .next (s.runHead c q .mdrn w (fun s => mdrnVerdict s c q w f) (some fun s => s.mdrnEarly c q w))

/-- Words 2 and 3 of a slot table entry after a drain (R170). -/
def slotWord (old : W64) (prole : BitVec 2) (layer : Nat) : W64 :=
  if prole = 0 then putFld (putFld old 48 16 layer) 16 16 (min (fld old 16 16 + 1) 0xFFFF)
  else putFld (putFld old 32 16 layer) 0 16 (min (fld old 0 16 + 1) 0xFFFF)

/-- `s` with the slot table updated after a drain of a buffer (R170, R171). -/
def State.slotUpdate (s : State) (ctx : Nat) (x : MxBuf) : State :=
  if s.regBit (pipeK ctx 0) 0 then
    let a := tableAddr (s.reg (pipeK ctx 0)) + 32 * x.slot.toNat + 16
    let old : W64 := BitVec.ofNat 64 (leNat (s.tableRead ctx a 8).data)
    (s.touched ctx a 16).tableWrite ctx a (leBytes 8 (slotWord old x.prole x.layer).toNat ++ leBytes 8 s.time.toNat)
  else s

/-- MDRN_COMPLETE (R109, R112, R170): the last write is in the chamber; the buffer becomes FREE. The slot table is updated first, once a
gated cluster that holds it is awake (R429). -/
def execMdrnComplete (c : Fin 96) (q : Queue) (s : State) : Host.Outcome State Fault Refusal :=
  match (s.queue c q).oldest Work.isMdrn with
  | some f =>
    match f.work with
    | .mdrn i => if s.coreHung c then .next s else .next (s.unlessGated (((s.slotUpdate (s.ctxOf c) (s.buf c i)).setBuf c i {}).workDone c q f))
    | _ => .next s
  | none => .next s

end Sys2Proof.Machine
end

