-- ==== Sys2Proof/Machine/Hss.lean ====
section
/-! DEFINITION. Hash-based signatures with SHA-256 and n = 32 (18_management_and_security.md R443, R446): the manual names RFC 8554, whose
algorithms this file states (PRESUMED, log 97). -/

namespace Sys2Proof.Machine

/-- Winternitz width of a one-time signature type code, and the tree height of a tree type code; none: a type that R443 does not accept. -/
def otsWidth (code : Nat) : Option Nat := [1, 2, 4, 8][code - 1]?.filter fun _ => code != 0
def treeHeight (code : Nat) : Option Nat := [5, 10, 15, 20, 25][code - 5]?.filter fun _ => 5 ≤ code

/-- Digits of a 32-byte hash, of its checksum, and of both, for width `w`. -/
def hashDigits (w : Nat) : Nat := 256 / w
def sumDigits (w : Nat) : Nat := match w with | 1 => 9 | 2 => 5 | 4 => 3 | _ => 2
def otsDigits (w : Nat) : Nat := hashDigits w + sumDigits w

/-- Digit `i`, of `w` bits, of bytes, the most significant bits of a byte first. -/
def digit (w : Nat) (bs : List Byte) (i : Nat) : Nat :=
  let k := 8 / w
  (bs.getD (i / k) 0).toNat / 2 ^ (w * (k - 1 - i % k)) % 2 ^ w

/-- A hash with its checksum: what the digits reach short of their top, in 16 bits, shifted so that its digits lead. -/
def withSum (w : Nat) (h : List Byte) : List Byte :=
  let c := ((List.range (hashDigits w)).map fun i => 2 ^ w - 1 - digit w h i).sum
  h ++ beBytes 2 (c * 2 ^ (16 - w * sumDigits w))

/-- `n` steps of chain `i` of leaf `q` from step `j`. -/
def chain (id : List Byte) (q i : Nat) : Nat → Nat → List Byte → List Byte
  | 0, _, x => x
  | n + 1, j, x => chain id q i n (j + 1) (sha256 (id ++ beBytes 4 q ++ beBytes 2 i ++ beBytes 1 j ++ x))

/-- The one-time public key that the ends of its chains give. -/
def otsKey (id : List Byte) (q : Nat) (ends : List (List Byte)) : List Byte := sha256 (id ++ beBytes 4 q ++ [0x80, 0x80] ++ ends.flatten)

/-- The hash that a one-time signature with randomizer `c` signs. -/
def otsHash (id : List Byte) (q : Nat) (c msg : List Byte) : List Byte := sha256 (id ++ beBytes 4 q ++ [0x81, 0x81] ++ c ++ msg)

/-- The one-time public key that a signature's randomizer and chain values stand for. -/
def otsCandidate (w : Nat) (id : List Byte) (q : Nat) (c : List Byte) (ys : List (List Byte)) (msg : List Byte) : List Byte :=
  let d := withSum w (otsHash id q c msg)
  otsKey id q (ys.zipIdx.map fun y => chain id q y.2 (2 ^ w - 1 - digit w d y.2) (digit w d y.2) y.1)

/-- A leaf and an inner node `r` of a tree. -/
def leafHash (id : List Byte) (r : Nat) (key : List Byte) : List Byte := sha256 (id ++ beBytes 4 r ++ [0x82, 0x82] ++ key)
def nodeHash (id : List Byte) (r : Nat) (a b : List Byte) : List Byte := sha256 (id ++ beBytes 4 r ++ [0x83, 0x83] ++ a ++ b)

/-- The root above node `r` with value `x`, along a path. -/
def rootOf (id : List Byte) : Nat → List Byte → List (List Byte) → List Byte
  | _, x, [] => x
  | r, x, p :: ps => rootOf id (r / 2) (if r % 2 = 0 then nodeHash id (r / 2) x p else nodeHash id (r / 2) p x) ps

/-- Bytes of a tree's signature whose types have width `w` and height `h`. -/
def treeSigLen (w h : Nat) : Nat := 4 + (4 + 32 * (otsDigits w + 1)) + 4 + 32 * h

/-- The width and height that the 56 bytes of a tree's public key name. -/
def keyTypes (pub : List Byte) : Option (Nat × Nat) :=
  if pub.length ≠ 56 then none
  else (treeHeight (beNat (pub.take 4))).bind fun h => (otsWidth (beNat ((pub.drop 4).take 4))).map fun w => (w, h)

/-- A tree's signature of a message verifies under its public key. -/
def treeVerifies (pub sig msg : List Byte) : Bool :=
  match keyTypes pub with
  | none => false
  | some (w, h) =>
    let id := (pub.drop 8).take 16
    let q := beNat (sig.take 4)
    let ots := sig.drop 4
    let tail := sig.drop (8 + 32 * (otsDigits w + 1))
    let key := otsCandidate w id q ((ots.drop 4).take 32) (pieces 32 (otsDigits w) (ots.drop 36)) msg
    sig.length == treeSigLen w h && q < 2 ^ h && ots.take 4 == (pub.drop 4).take 4 && tail.take 4 == pub.take 4 &&
      rootOf id (2 ^ h + q) (leafHash id (2 ^ h + q) key) (pieces 32 h (tail.drop 4)) == pub.drop 24

/-- The rest of a signature, with `n` more signed public keys, verifies under a tree's public key. -/
def levelsVerify (msg : List Byte) : Nat → List Byte → List Byte → Bool
  | 0, pub, sig => treeVerifies pub sig msg
  | n + 1, pub, sig =>
    match keyTypes pub with
    | none => false
    | some (w, h) =>
      let k := treeSigLen w h
      treeVerifies pub (sig.take k) ((sig.drop k).take 56) && levelsVerify msg n ((sig.drop k).take 56) (sig.drop (k + 56))

/-- A signature of a message verifies under a public key of 1 to 8 levels (R443 check 4). -/
def hssVerifies (pub sig msg : List Byte) : Bool :=
  let l := beNat (pub.take 4)
  pub.length == 60 && 1 ≤ l && l ≤ 8 && beNat (sig.take 4) + 1 == l && levelsVerify msg (l - 1) (pub.drop 4) (sig.drop 4)

/-- The private start of chain `i` of leaf `q` (R446: generated from a seed as Appendix A lays down). -/
def chainStart (id seed : List Byte) (q i : Nat) : List Byte := sha256 (id ++ beBytes 4 q ++ beBytes 2 i ++ [0xFF] ++ seed)

/-- The one-time public key of leaf `q` at width 8. -/
def leafKey (id seed : List Byte) (q : Nat) : List Byte :=
  otsKey id q ((List.range (otsDigits 8)).map fun i => chain id q i 255 0 (chainStart id seed q i))

/-- Node `r` of a tree of height 20, `n` levels above its leaves. -/
def treeNode (id seed : List Byte) : Nat → Nat → List Byte
  | 0, r => leafHash id r (leafKey id seed (r - 2 ^ 20))
  | n + 1, r => nodeHash id r (treeNode id seed n (2 * r)) (treeNode id seed n (2 * r + 1))

/-- The public key of a tree of the types of R446: height 20 and width 8. -/
def treePublic (id seed : List Byte) : List Byte := beBytes 4 8 ++ beBytes 4 4 ++ id ++ treeNode id seed 20 1

/-- A tree's signature of a message by its leaf `q`, with randomizer `c`. -/
def treeSign (id seed : List Byte) (q : Nat) (c msg : List Byte) : List Byte :=
  let d := withSum 8 (otsHash id q c msg)
  beBytes 4 q ++ beBytes 4 4 ++ c ++
    ((List.range (otsDigits 8)).map fun i => chain id q i (digit 8 d i) 0 (chainStart id seed q i)).flatten ++ beBytes 4 8 ++
    ((List.range 20).map fun n => treeNode id seed n (((2 ^ 20 + q) / 2 ^ n) ^^^ 1)).flatten

/-- The identifier and seed of the device's attestation tree `n`: 0 the top, 1 + i the bottom tree i (R446). -/
def ownTree (n : Nat) : List Byte × List Byte :=
  (beBytes 16 (Config.treeId Config.deviceSecret n).toNat, beBytes 32 (Config.treeSeed Config.deviceSecret n).toNat)

/-- The public key of the device's attestation tree `n`, and its HSS public key of two levels (R446). -/
@[irreducible] def ownPublic (n : Nat) : List Byte := treePublic (ownTree n).1 (ownTree n).2
def hssPublic : List Byte := beBytes 4 2 ++ ownPublic 0

/-- Half `i` of the device's identity: bytes 8i to 8i + 7 of the SHA-256 of its HSS public key, the first in bits 63 to 56 (R446, R452). -/
@[irreducible] def deviceId (i : Nat) : W64 := BitVec.ofNat 64 (beNat (((sha256 hssPublic).drop (8 * i)).take 8))

/-- The 3,604 bytes of the attestation signature over a digest with one-time index `q`: bits 39 to 20 of `q` select the top leaf, which signs
the key of the bottom tree, and bits 19 to 0 the leaf of that tree (R446, R447). -/
@[irreducible] def hssSign (q : Nat) (digest : BitVec 256) : List Byte :=
  let n := 1 + q / 2 ^ 20
  beBytes 4 1 ++
    treeSign (ownTree 0).1 (ownTree 0).2 (q / 2 ^ 20) (beBytes 32 (Config.randomizer (q / 2 ^ 20) 0).toNat) (ownPublic n) ++ ownPublic n ++
    treeSign (ownTree n).1 (ownTree n).2 (q % 2 ^ 20) (beBytes 32 (Config.randomizer q 1).toNat) (beBytes 32 digest.toNat)

end Sys2Proof.Machine
end

