-- ==== Sys2Proof/Machine/Flash.lean ====
section
/-! DEFINITION. The boot flash: its layout, the two copies of the fault table, and the LMS journal (18_management_and_security.md R442, R448 to
R450). The manual names the parts of a table copy and of a journal entry and not their places; the places are this model's (DESIGN CHOICE,
log 96). -/

namespace Sys2Proof.Machine

/-- `n` flash bytes from offset `o`; an erased byte is 0xFF (R442). -/
def flashRead (f : Tbl Byte) (o n : Nat) : List Byte :=
  let w := f.filter fun p => o ≤ p.1 && p.1 < o + n
  (List.range n).map fun i => tgetD w (o + i) 0xFF

/-- The listed cells of the bytes `bs` from offset `o`: erased bytes are not listed. -/
def flashCells (o : Nat) : List Byte → Tbl Byte
  | [] => []
  | b :: bs => if b = 0xFF then flashCells (o + 1) bs else (o, b) :: flashCells (o + 1) bs

/-- `f` with the `n` bytes from offset `o` replaced by listed cells of them. -/
def flashSplice (f : Tbl Byte) (o n : Nat) (cells : Tbl Byte) : Tbl Byte :=
  f.filter (fun p => p.1 < o) ++ (cells ++ f.filter fun p => o + n ≤ p.1)

/-- `f` with the bytes `bs` from offset `o`, and with `n` bytes erased. -/
def flashPut (f : Tbl Byte) (o : Nat) (bs : List Byte) : Tbl Byte := flashSplice f o bs.length (flashCells o bs)
def flashErase (f : Tbl Byte) (o n : Nat) : Tbl Byte := flashSplice f o n []

/-- Bytes of the staging area and of the image slot (R439, R442). -/
def imageBytes : Nat := 0x2000000

/-- The image slot, at offset 0 (R442). -/
def flashSlot (f : Tbl Byte) : Tbl Byte := f.filter fun p => p.1 < imageBytes

/-- `f` with an image in its slot. -/
def flashImage (f img : Tbl Byte) : Tbl Byte := flashSplice f 0 imageBytes (flashSlot img)

/-- Where copy `k` of the fault table, and the journal, begin (R442). -/
def tabBase (k : Nat) : Nat := 0x2000000 + 0x10000 * k
def journalBase : Nat := 0x3000000

/-- The bytes of a copy of the fault table (R450): sequence number, hours, the numbers of entries, the entries, and their CRC-32. -/
def tabBytes (seq : Nat) (f : FaultTab) : List Byte :=
  let b := leBytes 4 seq ++ leBytes 4 f.hours ++ leBytes 2 f.disabled.length ++ leBytes 2 f.verdicts.length ++
    leBytes 2 f.granules.length ++ leBytes 2 f.spares.length ++ (f.disabled.map fun u => leBytes 2 u.toNat).flatten ++
    (f.verdicts.map fun p => leBytes 2 p.1.toNat ++ leBytes 4 p.2).flatten ++ (f.granules.map (leBytes 2)).flatten ++
    (f.spares.map fun p => leBytes 2 p.1 ++ leBytes 2 p.2).flatten
  b ++ leBytes 4 (crc32 b)

/-- Little-endian numbers at the start of bytes. -/
def le2 (b : List Byte) : Nat := leNat (b.take 2)
def le4 (b : List Byte) : Nat := leNat (b.take 4)

/-- The fault table that the bytes of a copy hold. -/
def tabParse (b : List Byte) : FaultTab :=
  let nd := le2 (b.drop 8)
  let nv := le2 (b.drop 10)
  let ng := le2 (b.drop 12)
  let e := b.drop 16
  let v := e.drop (2 * nd)
  let g := v.drop (6 * nv)
  { hours := le4 (b.drop 4), disabled := (pieces 2 nd e).map fun x => BitVec.ofNat 16 (leNat x),
    verdicts := (pieces 6 nv v).map fun x => (BitVec.ofNat 16 (le2 x), le4 (x.drop 2)), granules := (pieces 2 ng g).map leNat,
    spares := (pieces 4 (le2 (b.drop 14)) (g.drop (2 * ng))).map fun x => (le2 x, le2 (x.drop 2)) }

/-- The sequence number and table of copy `k`; none: its CRC-32 is wrong (R450). -/
def tabCopy (f : Tbl Byte) (k : Nat) : Option (Nat × FaultTab) :=
  let h := flashRead f (tabBase k) 16
  let n := 16 + 2 * le2 (h.drop 8) + 6 * le2 (h.drop 10) + 2 * le2 (h.drop 12) + 4 * le2 (h.drop 14)
  if 0x10000 < n + 4 then none
  else
    let b := flashRead f (tabBase k) (n + 4)
    if leNat (b.drop n) = crc32 (b.take n) then some (le4 b, tabParse b) else none

/-- The newest valid copy of the fault table: its number, sequence number and contents (R450). -/
def newestTab (f : Tbl Byte) : Option (Nat × Nat × FaultTab) :=
  match tabCopy f 0, tabCopy f 1 with
  | some a, some b => if a.1 < b.1 then some (1, b) else some (0, a)
  | some a, none => some (0, a)
  | none, some b => some (1, b)
  | none, none => none

/-- The copy that the next write of the table takes: not the one in force (R450). -/
def nextCopy (f : Tbl Byte) : Nat := match newestTab f with | some (0, _) => 1 | _ => 0

/-- `f` with the copy erased that the next write takes. -/
def tabErase (f : Tbl Byte) : Tbl Byte := flashErase f (tabBase (nextCopy f)) 0x10000

/-- `f` after a write of the fault table (R450). -/
def tabWrite (f : Tbl Byte) (t : FaultTab) : Tbl Byte :=
  flashPut (tabErase f) (tabBase (nextCopy f)) (tabBytes (((newestTab f).map (·.2.1)).getD 0 + 1) t)

/-- The 32 bytes of a journal entry (R448): MAGIC, sequence number, limit, CRC-32. -/
def entryBytes (seq limit : Nat) : List Byte :=
  let b := leBytes 4 Config.journalMagic.toNat ++ leBytes 8 seq ++ leBytes 8 limit ++ zeros 8
  b ++ leBytes 4 (crc32 b)

/-- The sequence number and limit of the journal entry in place `i`; none: its MAGIC or CRC-32 is wrong. -/
def journalAt (f : Tbl Byte) (i : Nat) : Option (Nat × Nat) :=
  let b := flashRead f (journalBase + 32 * i) 32
  if leNat (b.drop 28) = crc32 (b.take 28) && le4 b = Config.journalMagic.toNat then
    some (leNat ((b.drop 4).take 8), leNat ((b.drop 12).take 8))
  else none

/-- The valid entries of the journal; an erased place holds none. -/
def journal (f : Tbl Byte) : List (Nat × Nat) :=
  (((f.filter fun p => journalBase ≤ p.1 && p.1 < journalBase + 0x400000).map fun p => (p.1 - journalBase) / 32).eraseDups).filterMap
    (journalAt f)

/-- The valid entry with the highest sequence number (R449). -/
def newestEntry (f : Tbl Byte) : Option (Nat × Nat) :=
  (journal f).foldl (fun m e => match m with | some x => if x.1 < e.1 then some e else m | none => some e) none

/-- `f` with an entry appended to the journal (R442, R448): its 64 sectors are used in rotation, and a sector is erased when its first entry
comes. -/
def journalAppend (f : Tbl Byte) (limit : Nat) : Tbl Byte :=
  let seq := ((newestEntry f).map fun e => e.1 + 1).getD 0
  let i := seq % 0x20000
  let g := if i % 2048 = 0 then flashErase f (journalBase + 32 * i) 0x10000 else f
  flashPut g (journalBase + 32 * i) (entryBytes seq limit)

end Sys2Proof.Machine
end

