-- ==== Sys2Proof/Machine/Power.lean ====
section
/-! DEFINITION. Clocks, supply dips, throttling, temperatures, resets and the boot sequence (17_clocks_power_reset.md;
19_package_and_electrical.md R458). -/

namespace Sys2Proof.Machine

/-- `s` with a clock or power report (R394, R434). -/
def State.powerReport (s : State) (code : W16) (src : W16 := srcOf 0xC 0) (detail : W64 := 0) : State :=
  s.report 0x0A code src { detail := detail }

/-- Control-space offset `o` of a die's clock and power registers (R433). -/
def clkK (d o : Nat) : Nat := dieK d (0x360000 + o)

/-- CLK_STAT.LOCK and SRC of a die. -/
def State.locked (s : State) (d : Nat) : Bool := s.regBit (clkK d 0) 63
def State.srcSel (s : State) (d : Nat) : Nat := s.regFld (clkK d 0) 0 3

/-- `s` with a native switch of a die's domains to the selection under way: gated until 64 cycles of the new clock (R415). -/
def State.startSwitch (s : State) (d : Nat) (sel : BitVec 3) : State := s.setDie d { s.die d with switch := some sel }

/-- `s` with a die's domains on the selection `sel`: the clock of a die is stretched while a dip lasts and a domain runs from the PLL (R418,
R433). -/
def State.setSrc (s : State) (d sel : Nat) : State :=
  let t := s.setFld (clkK d 0) 0 3 sel
  if (s.die d).dip.isSome then t.setBit (clkK d 0x18) 16 (sel ≠ 0) else t

/-- `s` after a switch of the domains whose selection changes (R415, R416): native, or with the legacy multiplexer. A die that hangs or
is in a switch takes no other (DESIGN CHOICE, log 48). -/
def State.switchTo (s : State) (d : Nat) (sel : BitVec 3) : State :=
  if sel.toNat = s.srcSel d || s.regBit (clkK d 0) 62 || (s.die d).switch.isSome then s
  else if !s.locked d && sel.toNat &&& (7 - s.srcSel d) ≠ 0 then
    (s.setBit (clkK d 0) 3 true).powerReport Code.CLK_SWITCH_REFUSED
  else if s.regBit (clkK d 8) 62 then s.setSrc d sel.toNat
  else s.startSwitch d sel

/-- `s` after a write of CLK_SW (R433). -/
def State.clkSwWrite (s : State) (d : Nat) (v : W64) : State :=
  let t := (s.setBit (clkK d 8) 62 (bitAt v 62)).setFld (clkK d 8) 0 3 (fld v 0 3)
  if bitAt v 63 then t.switchTo d (BitVec.ofNat 3 (fld v 0 3)) else t

/-- CLOCK_SWITCH (R415, R416). -/
def execClockSwitch (ctx : Fin 16) (d : Fin 2) (v : W64) (s : State) : Host.Outcome State Fault Refusal :=
  .next (s.asRoot ctx (clkK d 8) fun s => s.clkSwWrite d v)

/-- `s` past boot step 3 once the domains of both dies run from their PLLs (R431). -/
def State.bootClocked (s : State) : State :=
  if s.boot = .pll && s.srcSel 0 = 7 && s.srcSel 1 = 7 then { s with boot := .rom } else s

/-- CLOCK_UNGATE (R415). -/
def execClockUngate (d : Fin 2) (s : State) : Host.Outcome State Fault Refusal :=
  match (s.die d).switch with
  | some sel => .next (((s.setSrc d sel.toNat).setDie d { s.die d with switch := none }).bootClocked)
  | none => .next s

/-- PLL_LOCK (R410, R417, R431): at boot by the native switch, after a loss of lock in the mode of CLK_SW.LEGACY. -/
def execPllLock (d : Fin 2) (s : State) : Host.Outcome State Fault Refusal :=
  if !s.refStarted || s.locked d then .next s
  else
    let t := s.setBit (clkK d 0) 63 true
    if t.boot = .pll then .next (t.startSwitch d 7)
    else if t.regBit (clkK d 0) 62 then .next t
    else if t.regBit (clkK d 8) 62 then .next (t.setSrc d 7)
    else .next (t.startSwitch d 7)

/-- `s` with a die's domains switched to the reference after a loss of lock (R416, R417): a native switch to the PLL that is under way does
not end. A legacy switch hangs only where a domain runs from the PLL. -/
def State.toReference (s : State) (d : Nat) : State :=
  if s.srcSel d = 0 && (s.die d).switch.isNone then s
  else if !s.regBit (clkK d 8) 62 then s.startSwitch d 0
  else
    let t := s.draw.setDie d { s.die d with switch := none }
    if s.srcSel d ≠ 0 && Config.pllStopped s.draws then t.setBit (clkK d 0) 62 true else t.setSrc d 0

/-- PLL_UNLOCK (R417). -/
def execPllUnlock (d : Fin 2) (s : State) : Host.Outcome State Fault Refusal :=
  if !s.locked d then .next s
  else
    .next ((((s.setBit (clkK d 0) 63 false).countSat (clkK d 0) 16 16 1).powerReport Code.CLK_PLL_UNLOCK).toReference d)

/-- Vset of a die in mV, and its warning level (R419). -/
def State.vset (s : State) (d : Nat) : Nat := s.regFld (clkK d 0x10) 32 16
def State.warnLevel (s : State) (d : Nat) : Nat := max 505 (s.vset d - 5 * s.regFld (clkK d 0x18) 59 5)

/-- Reset kinds, coded as PKG_RSTCAUSE.LAST codes them (R430). -/
inductive RstKind where
  | powerOn | supply | thermal | pin | warm | wdog | reference
deriving DecidableEq, Repr

/-- LAST of a kind (R430). -/
def RstKind.code : RstKind → BitVec 3
  | .powerOn => 0
  | .supply => 1
  | .thermal => 2
  | .pin => 3
  | .warm => 4
  | .wdog => 5
  | .reference => 6

/-- The reset kind of a cause (R430). -/
def kindOf : RstCause → RstKind
  | .powerOn => .powerOn
  | .supply => .supply
  | .reference => .reference
  | .thermal => .thermal
  | .pin => .pin

/-- The kind recorded when causes meet in one reference cycle: the first in the order of R458. -/
def firstKind (cs : List RstCause) : RstKind :=
  ((([.powerOn, .supply, .reference, .thermal, .pin] : List RstCause).find? cs.contains).map kindOf).getD .powerOn

/-- A kind is WARM (R430). -/
def RstKind.isWarm : RstKind → Bool
  | .warm => true
  | .wdog => true
  | _ => false

/-- A unit whose removal from the list was ordered leaves it (R402). -/
def FaultTab.enable (f : FaultTab) (us : List W16) : FaultTab := { f with disabled := f.disabled.filter fun u => !us.contains u }

/-- The firmware has loaded the fault table (R431 step 5). -/
def State.tableLoaded (s : State) : Bool := s.boot == .scrub || s.boot == .ready

/-- The boot flash with the fault table as it stands: a table that has changed since its last write is written, unless that write failed
(R402, R430, R450; DEDUCED, log 51). -/
def State.flashNow (s : State) : Tbl Byte :=
  let f := s.mgmt.flash
  if s.tableLoaded && !s.flashFailed && (newestTab f).map (·.2.2) ≠ some s.faults then tabWrite f s.faults else f

/-- The boot flash as a reset leaves it: the units leave the list whose removal was ordered (R402). -/
def State.flashKept (s : State) : Tbl Byte :=
  let f := s.flashNow
  match newestTab f with
  | some (_, _, t) => if t.enable s.enables = t then f else tabWrite f (t.enable s.enables)
  | none => f

/-- What a reset leaves of the management state: the boot flash (R442). An image write that it cuts off leaves the slot incomplete (R439). -/
def State.mgmtKept (s : State) : Mgmt := { flash := s.flashKept, slotBroken := s.mgmt.slotBroken || s.mgmt.writing.isSome }

/-- The registers that a reset leaves (R409, R430): PKG_WDOG in the always-on domain, and under WARM the lock and source of each die. -/
def State.keptRegs (s : State) (k : RstKind) : Tbl W64 :=
  let w : Tbl W64 := if s.reg (pkgK 0x118) = 0 then [] else [(pkgK 0x118, s.reg (pkgK 0x118))]
  if k.isWarm then
    [0, 1].foldl (fun t d => tset t (clkK d 0) (putFld (putBit 0 63 (s.locked d)) 0 3 (s.srcSel d))) w
  else w

/-- PKG_RSTCAUSE.SEEN after a reset (R430, R432). -/
def State.seenAfter (s : State) (k : RstKind) : BitVec 7 :=
  if k = .powerOn then 0 else s.rstSeen ||| (1 <<< k.code.toNat)

/-- The machine after a reset of a kind (R402, R409, R430, R440). Memory keeps its bytes until the boot scrub; a POWER_ON loses them
(DESIGN CHOICE, log 2). -/
def State.resetKind (s : State) (k : RstKind) : State :=
  { State.reset with
    pending := s.pending, tx := s.tx, draws := s.draws, fuses := s.fuses,
    mem := if k = .powerOn then [] else s.mem, tags := if k = .powerOn then [] else s.tags,
    regs := s.keptRegs k, mgmt := s.mgmtKept, time := if k.isWarm then s.time else 0, time1 := if k.isWarm then s.time1 else 0,
    boot := if k.isWarm then .rom else .refWait, refStarted := k.isWarm && s.refStarted,
    released := match k with | .powerOn => false | .supply => false | .pin => false | _ => s.released,
    rstLast := k.code, rstSeen := s.seenAfter k, throtN := s.throtN, thermtrip := s.thermtrip }

/-- The reference cycle in which a cause of a reset comes (R458): commands take no time, so that it is that of the causes before it with no
count between (DEDUCED, log 102). -/
def State.cycleNow (s : State) : RstCycle :=
  s.cycle.getD { causes := [], released := s.released, started := s.refStarted, seen := s.rstSeen }

/-- `s` after a cause of a reset: of those that meet in its reference cycle the first in the order of R458 is recorded, and a rail or RESET_N
among them holds the device in reset. -/
def State.resetFor (s : State) (c : RstCause) : State :=
  let y := { s.cycleNow with causes := c :: s.cycleNow.causes }
  let t := ({ s with rstSeen := y.seen } : State).resetKind (firstKind y.causes)
  { t with cycle := some y, released := t.released && !(y.causes.any fun c => c == .powerOn || c == .supply || c == .pin) }

/-- PKG_RST acts only with its key and command 01 (R432), and not while the management domain hangs (R416). -/
def State.pkgRstWrite (s : State) (v : W64) : State :=
  if fld v 48 16 = 0xA5C3 && fld v 0 2 = 1 && !s.domHung 0 2 then s.resetKind .warm else s

/-- PKG_RST_WARM (R430, R432). -/
def execPkgRstWarm (ctx : Fin 16) (v : W64) (s : State) : Host.Outcome State Fault Refusal :=
  .next (s.asRoot ctx (pkgK 0x110) fun s => s.pkgRstWrite v)

/-- `s` after a write of PKG_WDOG (R432): TIMEOUT stored; KICK restarts a count that only time shows. -/
def State.wdogWrite (s : State) (v : W64) : State := s.setFld (pkgK 0x118) 0 16 (fld v 0 16)

/-- WDOG_KICK (R432). -/
def execWdogKick (ctx : Fin 16) (v : W64) (s : State) : Host.Outcome State Fault Refusal :=
  .next (s.asRoot ctx (pkgK 0x118) fun s => s.wdogWrite v)

/-- WDOG_EXPIRY (R430): a TIMEOUT of 0 is off, and a device that is held in reset stays in it (R458). -/
def execWdogExpiry (s : State) : Host.Outcome State Fault Refusal :=
  if s.regFld (pkgK 0x118) 0 16 = 0 || !s.released then .next s else .next (s.resetKind .wdog)

/-- `s` after VDD_IO has fallen: the always-on domain and the driver of THERMTRIP_N lose what they hold (R409, R460). -/
def State.ioLost (s : State) : State := { s.clearReg (pkgK 0x118) with thermtrip := [] }

/-- POWER_ON_RESET (R458, R460). Whether the rail is VDD_IO, which carries the always-on domain, is free. -/
def execPowerOnReset (s : State) : Host.Outcome State Fault Refusal :=
  .next (((if Config.ioFell s.draws then s.ioLost else s).draw).resetFor .powerOn)

/-- SUPPLY_RESET (R420, R458): after release. -/
def execSupplyReset (s : State) : Host.Outcome State Fault Refusal :=
  if s.cycleNow.released then .next (s.resetFor .supply) else .next s

/-- PIN_RESET (R430, R458). -/
def execPinReset (s : State) : Host.Outcome State Fault Refusal := .next (s.resetFor .pin)

/-- RESET_RELEASE (R458). -/
def execResetRelease (s : State) : Host.Outcome State Fault Refusal := .next { s with released := true, cycle := none }

/-- REFERENCE_LOST (R409, R458): a reference that has started. -/
def execReferenceLost (s : State) : Host.Outcome State Fault Refusal :=
  if s.cycleNow.started then .next (s.resetFor .reference) else .next s

/-- REFERENCE_STARTED (R409, R430, R431): boot waits for release, and after a thermal reset for THERMTRIP_N. -/
def execReferenceStarted (s : State) : Host.Outcome State Fault Refusal :=
  if s.released && s.boot = .refWait && s.thermtrip = [] then .next { s with refStarted := true, boot := .pll, cycle := none } else .next s

/-- REFCOUNT_RESTART (R409): the count starts again, with STAGE at REFWAIT; the count itself is a matter of time. -/
def execRefcountRestart (s : State) : Host.Outcome State Fault Refusal := .next s

/-- `s` after VDD_CORE has reached a voltage at or below the warning level (R418, R420): the root clock is stretched unless the die runs
from the reference. -/
def State.droop (s : State) (d mv : Nat) : State :=
  let k := s.die d
  let t := s.setDie d { k with dip := some (min mv (k.dip.getD mv)), above := false, clear := false }
  t.setBit (clkK d 0x18) 16 (t.srcSel d ≠ 0)

/-- DROOP_WARNING (R419, R420, R458): after release; at the reset level a supply reset follows. -/
def execDroopWarning (d : Fin 2) (mv : Nat) (s : State) : Host.Outcome State Fault Refusal :=
  if mv ≤ 500 then execSupplyReset s
  else if s.released && mv ≤ s.warnLevel d then .next (s.droop d mv)
  else .next s

/-- VDD_CORE_RECOVERY (R420): the counts of HOLD and of 1 ms start. -/
def execVddCoreRecovery (d : Fin 2) (mv : Nat) (s : State) : Host.Outcome State Fault Refusal :=
  let k := s.die d
  .next (s.setDie d { k with above := k.above || s.warnLevel d < mv, clear := k.clear || s.warnLevel d + 10 < mv })

/-- The PWR_VMIN bucket of a lowest voltage (R422). -/
def vminBucket (vset low : Nat) : Nat := min 7 ((vset - low) / 10)

/-- DROOP_HOLD_EXPIRY (R420, R422). -/
def execDroopHoldExpiry (d : Fin 2) (lowest : Nat) (s : State) : Host.Outcome State Fault Refusal :=
  let k := s.die d
  match k.dip with
  | some m =>
    if !k.clear then .next s
    else
      let t := (s.setDie d { k with dip := none }).setBit (clkK d 0x18) 16 false
      .next (((t.count (clkK d (0x40 + 8 * vminBucket (s.vset d) (min m lowest))) 1).countSat (clkK d 0x18) 0 16 1).powerReport
        Code.PWR_DROOP)
  | none => .next s

/-- DROOP_PERSIST_EXPIRY (R420). -/
def execDroopPersistExpiry (d : Fin 2) (s : State) : Host.Outcome State Fault Refusal :=
  let k := s.die d
  if k.dip.isSome && !k.above && !k.dipReq then
    .next ((s.setDie d { k with dipReq := true }).powerReport Code.PWR_DROOP_THROTTLE)
  else .next s

/-- DIP_THROTTLE_END (R420). -/
def execDipThrottleEnd (d : Fin 2) (s : State) : Host.Outcome State Fault Refusal :=
  let k := s.die d
  if k.dipReq && k.above then .next (s.setDie d { k with dipReq := false }) else .next s

/-- A level with entry points `e` and a 3 °C hysteresis, from level `old` at temperature `t`: entered at its point, left 3 °C below. -/
def levelAt (e : List Nat) (old t : Nat) : Nat :=
  ((List.range e.length).filter fun i => e.getD i 0 ≤ t || (i < old && e.getD i 0 < t + 3)).foldl (fun m i => max m (i + 1)) 0

/-- PWR_THERM.TRIP: values above 0x7D act as 0x7D (R433). -/
def State.trip (s : State) (d : Nat) : Nat := min 0x7D (s.regFld (clkK d 0x20) 40 8)

/-- `s` with the junction reading of a die stored and the thermal request set (R425). -/
def State.thermal (s : State) (d t : Nat) : State :=
  let k := clkK d 0x20
  let e := s.regFld k 48 8
  let old := s.regFld k 0 2
  let new := levelAt [e, e + 5, e + 10] old t
  let u := (s.setFld k 56 8 t).setFld k 0 2 new
  if old < new then u.powerReport Code.PWR_THERMAL_THROTTLE else u

/-- THERMAL_READING (R425, R427, R430, R458). -/
def execThermalReading (d : Fin 2) (tj : BitVec 8) (s : State) : Host.Outcome State Fault Refusal :=
  let trip := s.trip d
  if trip ≤ tj.toNat then
    if s.thermtrip.contains d.val then .next s
    else .next ({ s with thermtrip := s.thermtrip ++ [d.val] }.resetFor .thermal)
  else
    let t := if tj.toNat + 10 ≤ trip then { s with thermtrip := s.thermtrip.filter (· != d.val) } else s
    .next (t.thermal d tj.toNat)

/-- The refresh interval of a band in ns (R338). -/
def bandInterval : Nat → Nat
  | 0 => 3900
  | 1 => 1950
  | _ => 975

/-- `s` with the refresh band of a stack set (R338). -/
def State.band (s : State) (st t : Nat) : State :=
  let k := stkK st 0x10
  let old := s.regFld k 8 2
  let new := levelAt [85, 95, 105] old t
  let u := (s.setReg k (putFld (putFld 0 8 2 new) 0 8 t)).setStack st { s.stack st with interval := bandInterval new }
  if new = 3 && old ≠ 3 then u.report 0x03 Code.MEM_THERMAL (srcOf 0x9 st) { detail := u.reg (stkK st 0x30) } else u

/-- `s` with the throttle state of a stack set (R426). -/
def State.stackThrottle (s : State) (st t : Nat) : State :=
  let e := s.regFld (clkK (st / 6) 0x20) 32 8
  let k := s.stack st
  let new := levelAt [e, e + 5] k.throttle t
  let u := s.setStack st { k with throttle := new }
  if k.throttle < new then u.powerReport Code.STK_THROTTLE (srcOf 0x9 st) (u.firstError (srcOf 0x9 st)) else u

/-- DRAM_TEMP_READING (R338, R426). -/
def execDramTempReading (st : Fin 12) (t : BitVec 8) (s : State) : Host.Outcome State Fault Refusal :=
  .next ((s.band st t.toNat).stackThrottle st t.toNat)

/-- THROT_N_ASSERT (R427). -/
def execThrotNAssert (s : State) : Host.Outcome State Fault Refusal :=
  if s.throtN then .next ({ s with throtN := false }.powerReport Code.PWR_PIN_THROTTLE) else .next s

/-- THROT_N_RELEASE (R427). -/
def execThrotNRelease (s : State) : Host.Outcome State Fault Refusal := .next { s with throtN := true }

/-- The effective throttle level of a die (R424): the highest request. -/
def State.throttle (s : State) (d : Nat) : Nat :=
  [ if (s.die d).dipReq then s.regFld (clkK d 0x18) 30 2 else 0, s.regFld (clkK d 0x20) 0 2,
    if s.throtN then 0 else s.regFld (clkK d 0x28) 60 2, s.regFld (clkK d 0x28) 58 2,
    if 3 ≤ (s.die d).avsFails then 1 else 0 ].foldl max
    (((List.range 6).map fun i =>
      let n := (s.stack (6 * d + i)).throttle
      if n = 0 then 0 else (Config.stackLevel n).toNat).foldl max 0)

/-- ALERT_N is driven low (R427): the level is above 0, or a supply warning is present. -/
def State.alert (s : State) : Bool :=
  [0, 1].any fun d => s.throttle d ≠ 0 || !(s.die d).above

/-- The setpoint that the voltage loop asks for (R423). -/
def State.vtarget (s : State) (d : Nat) : Nat :=
  min 750 (max 550 (Config.voltageTable (max (s.regFld (clkK 0 0x20) 56 8) (s.regFld (clkK 1 0x20) 56 8)) +
    s.regFld (clkK d 0x10) 16 16))

/-- Vset one step of 5 mV nearer to its target (R423). -/
def stepVset (v target : Nat) : Nat := if v + 5 ≤ target then v + 5 else if target + 5 ≤ v then v - 5 else v

/-- AVS_STEP (R423, R457): a transaction on AVSBus to the regulator of the die's rail. -/
def execAvsStep (d : Fin 2) (ok : Bool) (s : State) : Host.Outcome State Fault Refusal :=
  let k := s.die d
  let v := stepVset (s.vset d) (s.vtarget d)
  if !s.regBit (clkK d 0x10) 63 then .next s
  else if ok then
    .next (((s.send (.avs d v)).setFld (clkK d 0x10) 32 16 v).setDie d { k with avsFails := 0 })
  else
    let t := (s.send (.avs d v)).setDie d { k with avsFails := k.avsFails + 1 }
    if k.avsFails + 1 = 3 then .next ((t.setBit (clkK d 0x10) 0 true).powerReport Code.PWR_AVS_FAULT) else .next t

/-- `s` with everything zero that boot step 6 scrubs: all but granule 0 of each stack (R31, R431). -/
def State.bootZero (s : State) : State :=
  let keep := fun pa => pa < stackEnd && pa % 0x1000000000 < 0x40000000
  { s with mem := s.mem.filter (fun p => keep p.1), tags := s.tags.filter fun p => keep (64 * p.1) }

/-- `s` as step 7 of the boot sequence leaves it, whatever came before (R431): every queue IDLE, contexts 1 to 15 bind nothing, every quay
has EN = 0, E is 0, and domain switches use LEGACY = 0. -/
def State.bootState (s : State) : State :=
  let t : State := { s with
    queues := [], rebind := none,
    regs := s.regs.filter fun p => !(0x110000 ≤ p.1 && p.1 < 0x200000 && p.1 % 0x10000 < 0x2000) }
  let off : Nat → Nat → State → State := fun k n t => if t.regBit k n then t.setBit k n false else t
  let t : State := (List.range 8).foldl (fun t qy => off (quayK qy 0) 3 t) t
  let t : State := off (clkK 0 8) 62 (off (clkK 1 8) 62 t)
  if t.regFld (cfgK 0x18) 0 32 = 0 then t else t.setFld (cfgK 0x18) 0 32 0

/-- BOOT_SCRUB_END (R383, R431): `failed` are the units whose scrub write failed. -/
def execBootScrubEnd (failed : List Nat) (s : State) : Host.Outcome State Fault Refusal :=
  if s.boot ≠ .scrub then .next s
  else
    let t := (s.bootState.bootZero.scrubFault failed).powerReport Code.RESET_REPORTED (srcOf 0xC 0) (s.rstLast.setWidth 64)
    .next { t with boot := .ready }.sendDue

end Sys2Proof.Machine
end

