-- ==== Sys2Proof/Machine/SyncRegs.lean ====
section
/-! DEFINITION. Writes of the synchronisation registers: semaphores, crossroads lines, mailbox channels and doorbell masks
(12_synchronisation_and_mailboxes.md R301 to R320). -/

namespace Sys2Proof.Machine

/-- Offset `o` of a block is the value register of a semaphore (R317 to R319). -/
def isSem (b : Blk) (o : Nat) : Bool :=
  match b with
  | .core _ => 0x1000 ≤ o && o < 0x1200
  | .clu _ => 0x1000 ≤ o && o < 0x1800
  | .die _ => 0x200000 ≤ o && o < 0x201000
  | _ => false

/-- `s` after a control-space write to a semaphore's value register: a SEMSET that names no core (R301, R317). -/
def State.semWrite (s : State) (k : Nat) (v : W64) : State := s.setSem k (fld v 0 32) 0x7E 0 0

/-- SEM_VALUE_WRITE (R301). -/
def execSemValueWrite (ctx : Fin 16) (addr : W64) (v : W64) (s : State) : Host.Outcome State Fault Refusal :=
  .next (s.accessed ctx addr (s.access ctx addr 8) fun b o => if isSem b o then s.semWrite (b.key o) v else s)

/-- `s` with bit `c` of the mask of physical line `l` set to `x` (R302). -/
def State.setMaskBit (s : State) (l c : Nat) (x : Bool) : State :=
  if c < 64 then s.setBit (xrdK l 0) c x else s.setBit (xrdK l 8) (c - 64) x

/-- `s` with the bits of one half of a virtual mask written: bits that name unbound virtual cores are ignored (R303). -/
def State.writeMask (s : State) (ctx l : Nat) (hi : Bool) (v : W64) : State :=
  (List.range (if hi then 32 else 64)).foldl (fun s i =>
    match s.coreOf ctx ((if hi then 64 else 0) + i) with
    | some c => s.setMaskBit l c (bitAt v i)
    | none => s) s

/-- `s` after a write of half a mask of physical line `l`: a line that it completes releases (R303). -/
def State.maskWrite (s : State) (ctx l : Nat) (hi : Bool) (v : W64) : State := (s.writeMask ctx l hi v).checkLine l

/-- XRD_MASK_WRITE (R303). -/
def execXrdMaskWrite (ctx : Fin 16) (line : Fin 32) (hi : Bool) (v : W64) (s : State) : Host.Outcome State Fault Refusal :=
  match s.lineOf ctx line with
  | none => .next (s.violation ctx (ctlAddr (xrdK line (if hi then 8 else 0))))
  | some l => .next (s.maskWrite ctx l hi v)

/-- `s` after a forced release of physical line `l` (R307). -/
def State.forceLine (s : State) (l : Nat) : State := (s.releaseLine l).countSat (xrdK l 0x10) 8 8 1

/-- XRD_FORCE (R307): in other contexts it is ignored and logged. -/
def execXrdForce (ctx : Fin 16) (line : Fin 32) (s : State) : Host.Outcome State Fault Refusal :=
  if ctx.val = 0 then .next (s.forceLine line) else .next (s.violation ctx (ctlAddr (xrdK line 0x10)))

/-- CLU_MB_CFG as a write of `v` leaves it: KIND 11 reads as 00 (R318). -/
def mbCfgWord (v : W64) : W64 :=
  putFld (putFld (putFld 0 62 2 (if fld v 62 2 = 3 then 0 else fld v 62 2)) 16 14 (fld v 16 14)) 0 7 (fld v 0 7)

/-- `s` with channel `ch` of cluster `g` emptied (R308). -/
def State.mbEmpty (s : State) (g ch : Nat) : State :=
  { s.setBit (cluK g (0x4200 + 8 * ch)) 63 false with msgs := tdel s.msgs (64 * g + ch) }

/-- `s` after a write of a channel's configuration (R308). -/
def State.mbCfg (s : State) (g ch : Nat) (v : W64) : State :=
  (s.setReg (cluK g (0x4000 + 8 * ch)) (mbCfgWord v)).mbEmpty g ch

/-- MB_CFG_WRITE (R308). -/
def execMbCfgWrite (ctx : Fin 16) (vg : Fin 16) (ch : Fin 64) (v : W64) (s : State) : Host.Outcome State Fault Refusal :=
  .next (s.atClu ctx vg (0x4000 + 8 * ch) fun g => s.mbCfg g ch v)

/-- The signal that cluster `g`'s controller makes for its doorbells (R312). -/
def State.bellSig (s : State) (g : Nat) : Sig :=
  { src := .controller (Fin.ofNat 16 g), home := cluK g (0x1000 + 8 * s.regFld (cluK g 0x4410) 0 8), inc := 1, optag := 0, pc := 0 }

/-- `s` after a write of CLU_MB_DBMASK: each set bit that it unmasks signals (R312). -/
def State.dbmask (s : State) (g : Nat) (v : W64) : State :=
  let n := ((List.range 32).filter fun b => s.regBit (cluK g 0x4400) b && s.regBit (cluK g 0x4408) b && !bitAt v b).length
  let t := s.setReg (cluK g 0x4408) (BitVec.ofNat 64 (fld v 0 32))
  if s.regBit (cluK g 0x4410) 63 then { t with sigs := t.sigs ++ List.replicate n (s.bellSig g) } else t

/-- DBMASK_WRITE (R312). -/
def execDbmaskWrite (ctx : Fin 16) (vg : Fin 16) (v : W64) (s : State) : Host.Outcome State Fault Refusal :=
  .next (s.atClu ctx vg 0x4408 fun g => s.dbmask g v)

end Sys2Proof.Machine
end

