-- ==== Sys2Proof/Machine/Registers.lean ====
section
/-! DEFINITION. Reads and writes of the control space: the values that registers show, the access types of R9, and the writes that have
behaviour of their own (R5, R9 to R11, R34 to R36 and the register tables of every chapter). -/

namespace Sys2Proof.Machine

/-- The code of a queue state (R226, R240). -/
def QMode.code : QMode → Nat
  | .idle => 0
  | .ready => 1
  | .running => 2
  | .waiting => 3
  | .held => 4
  | .stopped => 5
  | .halted => 6
  | .faulted => 7

/-- The code of a wait cause (R227). -/
def WCause.code : WCause → Nat
  | .none => 0
  | .sem => 1
  | .line => 2
  | .resource => 3
  | .ladder => 4
  | .step => 5

/-- The code of a boot stage (R432). -/
def Boot.code : Boot → Nat
  | .refWait => 0
  | .pll => 1
  | .rom => 2
  | .recovery => 3
  | .firmware => 4
  | .scrub => 5
  | .ready => 6

/-- The code of a re-bind phase (R390): the fence and the swap are whole steps of this model. -/
def RbPhase.code : RbPhase → Nat
  | .drain => 1
  | .scrub => 3
  | .swapHeld => 4

/-- The code of a buffer state (R127). -/
def BufMode.code : BufMode → Nat
  | .free => 0
  | .open_ => 1
  | .draining => 2

/-- The sum of the bits 2^i of the indices below `n` that hold. -/
def bitsOf (n : Nat) (f : Nat → Bool) : W64 := BitVec.ofNat 64 ((List.range n).foldl (fun v i => if f i then v + 2 ^ i else v) 0)

/-- PKG registers (R5, R432). -/
def State.pkgValue (s : State) (o : Nat) (v : W64) : W64 :=
  if o = 0 then s.fuses.ident
  else if o = 0x100 then s.time
  else if o = 0x108 then putFld (putFld 0 61 3 s.rstLast.toNat) 0 7 s.rstSeen.toNat
  else if o = 0x120 then BitVec.ofNat 64 s.boot.code
  else v

/-- Half of the mask of physical line `l` as context `ctx` reads it (R303). -/
def State.maskValue (s : State) (ctx l : Nat) (hi : Bool) : W64 :=
  bitsOf (if hi then 32 else 64) fun i =>
    match s.coreOf ctx ((if hi then 64 else 0) + i) with
    | some c => (s.lineMask l).testBit c
    | none => false

/-- Half of the arrive vector of a line as context `ctx` reads it (R306, R307). -/
def State.arrValue (s : State) (ctx l : Nat) (hi : Bool) : W64 :=
  if ctx = 0 then bitsOf (if hi then 32 else 64) fun i => s.arrived l ((if hi then 64 else 0) + i) else 0

/-- SCOPE of a line (R302): members on both dies. -/
def State.lineScope (s : State) (l : Nat) : Bool := s.lineMask l % 2 ^ 48 != 0 && s.lineMask l / 2 ^ 48 != 0

/-- XRD registers (R320). -/
def State.xrdValue (s : State) (ctx o : Nat) (v : W64) : W64 :=
  let l := o / 0x100
  let r := o % 0x100
  if r = 0 then s.maskValue ctx l false
  else if r = 8 then s.maskValue ctx l true
  else if r = 0x10 then putBit v 30 (s.lineScope l)
  else if r = 0x18 then s.arrValue ctx l false
  else s.arrValue ctx l true

/-- CFG registers (R390). -/
def State.cfgValue (s : State) (o : Nat) (v : W64) : W64 := if o = 0x10 then putBit v 63 s.compute.isSome else v

/-- The next bottom tree is not built (R447). -/
def Mgmt.busy (m : Mgmt) : Bool := m.trees ≤ m.next / 2 ^ 20 + 1

/-- Where signing resumes (R449): the index, the fuse count, whether the journal and the fuses disagreed, and whether signing ends. -/
structure LmsBoot where
  next : Nat
  fuses : Nat
  resync : Bool
  ended : Bool
deriving DecidableEq, Repr

/-- The table of R449 for `f` burned fuses and the newest entry's limit. -/
def lmsBoot (f : Nat) (j : Option Nat) : LmsBoot :=
  match j with
  | none => if f = 0 then ⟨0, 1, false, false⟩ else if f < 256 then ⟨f * 2 ^ 32, f + 1, true, false⟩ else ⟨2 ^ 40, f, false, true⟩
  | some j =>
    let w := j / 2 ^ 32
    if 2 ^ 40 ≤ j then ⟨2 ^ 40, f, false, true⟩
    else if w + 1 = f then ⟨j, f, false, false⟩
    else if w + 1 < f then (if f < 256 then ⟨f * 2 ^ 32, f + 1, true, false⟩ else ⟨2 ^ 40, f, false, true⟩)
    else ⟨j, w + 1, true, false⟩

/-- What the journal and the fuses give at boot (R449). -/
def State.lmsFound (s : State) : LmsBoot := lmsBoot s.fuses.lms ((newestEntry s.mgmt.flash).map (·.2))

/-- MGT_LMS (R452): before the firmware has read the journal, NEXT is what the journal gives, and the other bits are 0. -/
def State.lmsValue (s : State) : W64 :=
  let m := s.mgmt
  let v := putFld 0 48 9 s.fuses.lms
  if s.tableLoaded then putFld (putBit (putBit v 63 m.exhausted) 62 m.busy) 0 40 m.next else putFld v 0 40 s.lmsFound.next

/-- MGT registers (R452). -/
def State.mgtValue (s : State) (o : Nat) (v : W64) : W64 :=
  let m := s.mgmt
  if o = 0x8 then putBit (putBit v 63 m.key.isSome) 62 (s.boot == .recovery)
  else if o = 0x20 then deviceId 0
  else if o = 0x28 then deviceId 1
  else if o = 0x30 then
    match m.image with
    | some h => putFld (putFld (putFld 0 32 32 h.version.toNat) 24 8 h.keyslot) 0 8 h.svn
    | none => 0
  else if o = 0x38 then BitVec.ofNat 64 s.fuses.svn
  else if o = 0x40 then s.lmsValue
  else if o = 0x50 then putFld 0 0 48 Config.macFuse.toNat
  else v

/-- BIND registers (R378, R380, R390): context 0's bank is the identity. -/
def State.bindValue (s : State) (o : Nat) (v : W64) : W64 :=
  if o < 0x10000 then identEntry (o % 0x8000)
  else if o = 0x100008 then
    match s.rebind with
    | some r => putFld (putBit v 63 true) 59 3 r.phase.code
    | none => v
  else v

/-- Self-test and disable registers of die `d` (R408). -/
def State.testValue (s : State) (d o : Nat) (v : W64) : W64 :=
  if o = 0x350008 then putFld (putBit v 63 (s.die d).running.isSome) 48 8 (s.die d).tests.length
  else if o = 0x350010 then s.reg (dieK 0 0x350010)
  else if o = 0x350300 then bitsOf 8 fun i => s.disabled.contains (srcOf 7 (8 * d + i))
  else if o = 0x350308 then bitsOf 6 fun i => s.disabled.contains (srcOf 9 (6 * d + i))
  else if 0x350100 ≤ o && o < 0x350280 then bitsOf 6 fun i => s.disabled.contains (srcOf (i + 1) (48 * d + (o - 0x350100) / 8))
  else if 0x350400 ≤ o && o < 0x350430 then bitsOf 64 fun i => s.faults.granules.contains (64 * (6 * d + (o - 0x350400) / 8) + i)
  else if 0x350500 ≤ o && o < 0x350530 then
    BitVec.ofNat 64 (((List.range 64).map fun p => tgetD s.faults.spares (64 * (6 * d + (o - 0x350500) / 8) + p) 0).sum)
  else v

/-- DIE registers (R155, R319, R408, R433). -/
def State.dieValue (s : State) (d o : Nat) (v : W64) : W64 :=
  if 0x350000 ≤ o && o < 0x360000 then s.testValue d o v
  else if o = 0x360028 then putFld v 62 2 (s.throttle d)
  else if 0x300000 ≤ o && o < 0x310000 then
    if o % 0x100 = 0 then putFld v 30 2 (modeOf v)
    else if o % 0x100 = 0x38 then putBit v 7 (s.ladderBusy (o % 0x10000 / 0x100))
    else v
  else v

/-- Queue `q` of core `c` waits on the semaphore at `k` (R227, R317). -/
def State.waitsOn (s : State) (c : Nat) (q : Queue) (k : Nat) : Bool :=
  let x := s.queue c q
  x.mode == .waiting && x.wcause == .sem &&
    match x.fetched with
    | some b =>
      match s.semHome c (frameOf b).wsem true with
      | .home j => j == k
      | .bad _ => false
    | none => false

/-- The core number that a view shows context `ctx` for a stored one (R317). -/
def State.shownCore (s : State) (ctx c : Nat) : Nat :=
  if ctx = 0 || 96 ≤ c then c else (s.vcoreOf ctx c).getD (Config.unboundCore c).toNat

/-- The view of the semaphore at `k` (R317, R318): `cs` are the cores whose waiters it shows. -/
def State.viewValue (s : State) (ctx k : Nat) (cs : List Nat) (v : W64) : W64 :=
  let w := (cs.map fun c => (allQueues.map fun q => if s.waitsOn c q k then 2 ^ (6 * (c % 6) + qnum q) else 0).sum).sum
  putFld (putFld v 27 36 w) 19 7 (if bitAt v 26 then s.shownCore ctx (fld v 19 7) else 0)

/-- CLU registers (R318). -/
def State.cluValue (s : State) (ctx g o : Nat) (v : W64) : W64 :=
  if 0x1800 ≤ o && o < 0x2000 then s.viewValue ctx (cluK g (o - 0x800)) ((List.range 6).map (6 * g + ·)) v else v

/-- The byte of CORE_MX_BUF for a buffer (R127). -/
def MxBuf.byte (b : MxBuf) : Nat := b.mode.code * 64 + b.engine.toNat * 32 + (b.cells.any (·.s)).toNat * 16

/-- CORE_Q_STAT (R240). -/
def QState.stat (x : QState) : W64 :=
  putFld (putFld (putFld (putFld (putFld 0 61 3 x.mode.code) 58 3 x.wcause.code) 55 3 x.loops.length) 50 5 x.inflight.length) 0 14 x.pc.toNat

/-- CORE_Q_LOOPn (R233, R240): entry 0 is the outermost. -/
def QState.loopValue (x : QState) (n : Nat) : W64 :=
  match x.loops.reverse[n]? with
  | some e => putFld (putFld (putFld 0 32 32 e.left.toNat) 16 14 e.end_.toNat) 0 14 e.start.toNat
  | none => 0

/-- The queue of a bank of the CORE block (R240). -/
def bankQueue (o : Nat) : Queue := (allQueues[o / 0x100 - 1]?).getD .mqf

/-- CORE registers (R127, R240, R317). -/
def State.coreValue (s : State) (ctx c o : Nat) (v : W64) : W64 :=
  if o = 8 then
    putFld v 24 18 ((allQueues.map fun q => (s.queue c q).mode.code * 2 ^ (3 * qnum q)).sum)
  else if 0x100 ≤ o && o < 0x700 then
    let x := s.queue c (bankQueue o)
    if o % 0x100 = 0 then x.stat
    else if 0x20 ≤ o % 0x100 && o % 0x100 < 0x40 then x.loopValue ((o % 0x100 - 0x20) / 8)
    else v
  else if o = 0x908 then BitVec.ofNat 64 (((List.range 4).map fun i => (s.buf c i).byte * 256 ^ i).sum)
  else if 0x1200 ≤ o && o < 0x1400 then s.viewValue ctx (coreK c (o - 0x200)) [c] v
  else v

/-- STK registers (R343). -/
def State.stkValue (s : State) (st o : Nat) (v : W64) : W64 :=
  if 0x800 ≤ o && o < 0x900 then putBit v 63 (s.regBit (stkK st 8) (32 + (o - 0x800) / 8)) else v

/-- `s` as a read of offset `o` of a block finds it: the registers of the pipeline banks show a commit that waits for a snapshot (R173,
R177). -/
def State.shown (s : State) (b : Blk) (o : Nat) : State :=
  match b with
  | .die _ => if o / 0x10000 = 0x31 then s.showStalls (o % 0x10000 / 0x100) else s
  | _ => s

/-- CLU_MB_CFG reads KIND 11 as 00 when it is written (R318); every other CLU, QUAY value is as stored. The value that a read of offset
`o` of a block by context `ctx` returns. -/
def State.regValue (s : State) (ctx : Nat) (b : Blk) (o : Nat) : W64 :=
  if (rowOf b o).isNone then 0
  else
    let v := (s.shown b o).reg (b.key o)
    match b with
    | .pkg => s.pkgValue o v
    | .xrd => s.xrdValue ctx o v
    | .cfg => s.cfgValue o v
    | .mgt => s.mgtValue o v
    | .bind => s.bindValue o v
    | .die d => s.dieValue d o v
    | .clu g => s.cluValue ctx g o v
    | .core c => s.coreValue ctx c o v
    | .stk st => s.stkValue st o v
    | .quay _ => v

/-- The control-space offset where a register's bits are held: both DIE instances show one ERR_RPT (R408). -/
def homeKey (b : Blk) (o : Nat) : Nat :=
  match b with
  | .die d => if o = 0x350010 then dieK 0 o else dieK d o
  | _ => b.key o

/-- `s` after the read of a register: its read-clear bits are 0 (R9). -/
def State.readClear (s : State) (b : Blk) (o : Nat) : State :=
  match rowOf b o with
  | some r =>
    let t := s.shown b o
    if r.rc = 0 then t else t.setReg (homeKey b o) (t.reg (homeKey b o) &&& ~~~r.rc)
  | none => s

/-- A value after a write of `v` under a row's access types (R9, R10). -/
def RegRow.written (r : RegRow) (old v : W64) : W64 := ((old &&& ~~~r.rw) ||| (v &&& r.rw)) &&& ~~~(v &&& r.w1c)

/-- `s` after a write to a register without behaviour of its own (R9, R10, R34). -/
def State.plainWrite (s : State) (b : Blk) (o : Nat) (v : W64) : State :=
  match rowOf b o with
  | some r => if r.rw = 0 && r.w1c = 0 then s else s.setReg (homeKey b o) (r.written (s.reg (homeKey b o)) v)
  | none => s

/-- Writes of the PKG block (R432). -/
def State.pkgWrite (s : State) (o : Nat) (v : W64) : State :=
  if o = 0x110 then s.pkgRstWrite v
  else if o = 0x118 then s.wdogWrite v
  else if o = 0x108 then { s with rstSeen := s.rstSeen &&& ~~~(v.setWidth 7) }
  else s

/-- Writes of the XRD block (R303, R307, R320). -/
def State.xrdWrite (s : State) (ctx : Fin 16) (o : Nat) (v : W64) : State :=
  let l := o / 0x100
  if 32 ≤ l then s
  else if o % 0x100 = 0 then s.maskWrite ctx l false v
  else if o % 0x100 = 8 then s.maskWrite ctx l true v
  else if o % 0x100 = 0x10 && bitAt v 31 then
    if ctx.val = 0 then s.forceLine l else s.violation ctx (ctlAddr (xrdK l 0x10))
  else s

/-- Writes of the CFG block (R387 to R390): context 0's only. -/
def State.cfgWrite (s : State) (o : Nat) (v : W64) : State :=
  if o = 8 then
    match fld v 0 2 with
    | 1 => s.computeCmd
    | 2 => s.advanceCmd
    | 3 => s.computeAdvanceCmd
    | _ => s
  else if o = 0x18 then s.epochWrite v
  else s.plainWrite .cfg o v

/-- `s` after MGT_SVN.RAISE (R444): the fuses are burned up to the running image's SVN. -/
def State.raiseSvn (s : State) : State :=
  match s.mgmt.image with
  | some h => { s with fuses := { s.fuses with svn := min 64 (max s.fuses.svn h.svn) } }
  | none => s

/-- Writes of the MGT block (R444, R452). -/
def State.mgtWrite (s : State) (o : Nat) (v : W64) : State :=
  if o = 0x38 then (if bitAt v 63 then s.raiseSvn else s) else s.plainWrite .mgt o v

/-- Writes of the BIND block (R380, R390). -/
def State.bindWrite (s : State) (o : Nat) (v : W64) : State :=
  if o = 0x100000 then (if fld v 16 2 = 1 then s.rebindCmd (v.setWidth 16) else s) else s.plainWrite .bind o v

/-- `s` after a write of ERR_REPLAY of a context's bank (R406, R407). -/
def State.replayWrite (s : State) (ctx : Nat) (v : W64) : State :=
  let t := if bitAt v 61 then s.setBit (errK ctx 8) 61 false else s
  match fld v 62 2 with
  | 1 => t.discardKstat ctx
  | 2 => t.kresend ctx
  | _ => t

/-- Writes of the banks of the DIE block, by their context (R155, R177, R202, R375, R407). -/
def State.bankedWrite (s : State) (o : Nat) (v : W64) : State :=
  let k := o % 0x10000 / 0x100
  match o / 0x10000, o % 0x100 with
  | 0x30, 0x38 => s.kerbStatusWrite k v
  | 0x31, 0x08 => s.snapWrite k 0 v
  | 0x31, 0x10 => s.snapWrite k 1 v
  | 0x31, 0x18 => s.snapWrite k 2 v
  | 0x31, 0x20 => s.snapWrite k 3 v
  | 0x32, 0x10 => s.cstepWrite k v
  | 0x33, 0x10 => if k = 0 then s.qpCmdWrite v else s
  | 0x34, 0x08 => s.replayWrite k v
  | _, _ => s.plainWrite (.die 0) o v

/-- Writes of the DIE block of die `d` (R319, R408, R433). -/
def State.dieWrite (s : State) (d o : Nat) (v : W64) : State :=
  if bankedOff o then s.bankedWrite o v
  else if o = 0x350018 then s.errDisableWrite v
  else if o = 0x360008 then s.clkSwWrite d v
  else if o = 0x360030 then s.gateWrite d v
  else if isSem (.die d) o && (rowOf (.die d) o).isSome then s.semWrite (dieK d o) v
  else s.plainWrite (.die d) o v

/-- `s` after a write of CLU_IMG_CMD of cluster `g` (R236, R237, R241, R429). -/
def State.imgCmdWrite (s : State) (ctx : Fin 16) (g : Nat) (v : W64) : State :=
  let m := BitVec.ofNat 6 (fld v 8 6)
  let vg := Fin.ofNat 16 ((s.vcluOf ctx g).getD g)
  match fld v 0 3 with
  | 1 => s.loadAwake ctx g (.imageLoad ctx vg)
  | 2 => s.awake g (.clusterStart ctx vg m) fun s => s.startCores (maskCores g m)
  | 3 => s.stopCores (maskCores g m)
  | _ => s

/-- Writes of the CLU block of cluster `g` (R241, R308, R312, R318, R344). -/
def State.cluWrite (s : State) (ctx : Fin 16) (g o : Nat) (v : W64) : State :=
  if o % 8 ≠ 0 then s
  else if o = 8 then s.imgCmdWrite ctx g v
  else if isSem (.clu g) o then s.semWrite (cluK g o) v
  else if 0x4000 ≤ o && o < 0x4200 then s.mbCfg g ((o - 0x4000) / 8) v
  else if o = 0x4408 then s.dbmask g v
  else s.plainWrite (.clu g) o v

/-- `s` after a write of CORE_QCTL of core `c` (R237, R240, R429). -/
def State.qctlWrite (s : State) (ctx : Fin 16) (c : Nat) (v : W64) : State :=
  let m := BitVec.ofNat 6 (fld v 0 6)
  match fld v 8 3 with
  | 1 => s.awake (c / 6) (.queueStart ctx (Fin.ofNat 96 ((s.vcoreOf ctx c).getD c)) m) fun s => s.startMask c m
  | 2 => s.stopQueues c (maskQueues m)
  | _ => s

/-- Writes of the bank of a queue (R232, R237, R240). -/
def State.queueBankWrite (s : State) (c o : Nat) (v : W64) : State :=
  let q := bankQueue o
  let r := o % 0x100
  if r = 0 then s.setQueue c q ((s.queue c q).setPc v)
  else if 0x80 ≤ r then (if (s.queue c q).stopped then s.setReg (coreK c o) v else s)
  else s.plainWrite (.core c) o v

/-- Writes of the CORE block of core `c` (R65, R127, R176, R223, R240, R291, R317). -/
def State.coreWrite (s : State) (ctx : Fin 16) (c o : Nat) (v : W64) : State :=
  if (rowOf (.core c) o).isNone then s
  else if o = 0 then s.qctlWrite ctx c v
  else if 0x100 ≤ o && o < 0x700 then s.queueBankWrite c o v
  else if 0x800 ≤ o && o < 0x828 then
    if (s.queue c (seedQueue ((o - 0x800) / 8))).stopped then s.setReg (coreK c o) v else s
  else if o = 0x900 || o = 0xB00 then
    if ctx.val = 0 then s.plainWrite (.core c) o v else s.violation ctx (ctlAddr (coreK c o))
  else if o = 0xA00 then s.pickWrite c v
  else if o = 0xC00 then (if s.coreStopped c then s.setFld (coreK c o) 14 8 (fld v 14 8) else s)
  else if isSem (.core c) o then s.semWrite (coreK c o) v
  else s.plainWrite (.core c) o v

/-- Writes of the STK block of stack `st` (R336, R337, R343). -/
def State.stkWrite (s : State) (st o : Nat) (v : W64) : State :=
  if o = 0 then s.stkCtrlWrite st v
  else if 0x1000 ≤ o && o < 0x1400 && o % 0x20 = 0 then s.echoWrite st ((o - 0x1000) / 0x20) v
  else s.plainWrite (.stk st) o v

/-- Writes of the QUAY block of quay `qy` (R347, R374). -/
def State.quayWrite (s : State) (qy o : Nat) (v : W64) : State := if o = 0 then s.quayCtrlWrite qy v else s.plainWrite (.quay qy) o v

/-- `s` after context `ctx` has written `v` at offset `o` of a block that it reaches. -/
def State.regWrite (s : State) (ctx : Fin 16) (b : Blk) (o : Nat) (v : W64) : State :=
  match b with
  | .pkg => s.pkgWrite o v
  | .xrd => s.xrdWrite ctx o v
  | .cfg => if ctx.val = 0 then s.cfgWrite o v else s.violation ctx (ctlAddr (cfgK o))
  | .mgt => s.mgtWrite o v
  | .bind => s.bindWrite o v
  | .die d => s.dieWrite d o v
  | .clu g => s.cluWrite ctx g o v
  | .core c => s.coreWrite ctx c o v
  | .stk st => s.stkWrite st o v
  | .quay qy => s.quayWrite qy o v

/-- REGISTER_WRITE (R9 to R11, R34 to R36): a write to any register, with the effect its chapter gives it. -/
def execRegisterWrite (ctx : Fin 16) (addr : W64) (width : Nat) (v : W64) (s : State) : Host.Outcome State Fault Refusal :=
  .next (s.accessed ctx addr (s.access ctx addr width) fun b o => s.regWrite ctx b o v)

/-- The value that an access delivers on a read: 0 where it reaches no register (R11, R34, R36). -/
def State.accessValue (s : State) (ctx : Nat) : Access → W64
  | .at_ b o => s.regValue ctx b o
  | _ => 0

/-- REGISTER_READ (R9, R11, R34 to R36). A read of another width or alignment is not performed and returns nothing. -/
def execRegisterRead (ctx : Fin 16) (addr : W64) (width : Nat) (s : State) : Host.Outcome State Fault Refusal :=
  let a := s.access ctx addr width
  let t := s.accessed ctx addr a s.readClear
  if width ≠ 8 || addr.toNat % 8 ≠ 0 then .next t else .next (t.send (.value ctx addr (s.accessValue ctx a)))

/-- SVN_RAISE (R444, R452). -/
def execSvnRaise (ctx : Fin 16) (v : W64) (s : State) : Host.Outcome State Fault Refusal :=
  .next (s.asRoot ctx (mgtK 0x38) fun s => if bitAt v 63 then s.raiseSvn else s)

end Sys2Proof.Machine
end

