-- ==== Sys2Proof/Machine/Mgmt.lean ====
section
/-! DEFINITION. The management protocol, the firmware image, attestation signing and telemetry (18_management_and_security.md). -/

namespace Sys2Proof.Machine

/-- `s` with a Security or Firmware code raised: counted, the first held in MGT_SECERR, and sent as a PLDM event (R451, R452). -/
def State.secEvent (s : State) (code : W16) : State :=
  let k := mgtK 0x48
  let t := s.countSat k 0 16 1
  (if t.regBit k 63 then t else (t.setBit k 63 true).setFld k 32 16 code.toNat).send (.secEvent code)

/-- A datagram is accepted (R438, R440): under a key its MAC is valid and its SEQ is new; without one its MAC is zero and its command
needs no key. -/
def State.accepts (s : State) (dg : Datagram) (cmd : BitVec 8) (payload : List Byte) (needsKey : Bool) : Bool :=
  match s.mgmt.key with
  | some k => dg.mac == macOf k cmd dg.seq payload && (match s.mgmt.lastSeq with | some n => decide (n.toNat < dg.seq.toNat) | none => true)
  | none => !needsKey && dg.mac == 0

/-- The datagram that answers a command, after `n` things have left the block: to its sender, the command with bit 7 set, a status and a
payload, under the installed key (R438). -/
def State.answerOf (s : State) (peer : MgmtPeer) (n : Nat) (cmd : BitVec 8) (status : W16) (payload : List Byte) : Tx :=
  .mgmt peer (cmd ||| 0x80) (Config.ownSeq n) status payload
    (s.macNow (cmd ||| 0x80) (Config.ownSeq n) (beBytes 2 status.toNat ++ payload))

/-- `s` with the answer of a command sent (R438). -/
def State.reply (s : State) (peer : MgmtPeer) (cmd : BitVec 8) (status : W16) (payload : List Byte := []) : State :=
  s.send (s.answerOf peer s.tx.length cmd status payload)

/-- `s` with a datagram dropped under R440. -/
def State.authFail (s : State) (peer : MgmtPeer) (cmd : BitVec 8) (needsKey : Bool) : State :=
  let t := (s.countSat (mgtK 8) 0 32 1).secEvent Code.SEC_MGMT_AUTH
  if needsKey then t.reply peer cmd Code.SEC_MGMT_AUTH else t

/-- `s` with the SEQ of an accepted datagram kept (R440). -/
def State.tookSeq (s : State) (dg : Datagram) : State :=
  if s.mgmt.key.isSome then { s with mgmt := { s.mgmt with lastSeq := some dg.seq } } else s

/-- The IPv6 link-local address formed from MGT_MAC (R437): the interface identifier of RFC 4291 (PRESUMED, log 98). -/
def linkLocal : BitVec 128 :=
  (0xFE80000000000000 : BitVec 64) ++ ((Config.macFuse.extractLsb' 24 24) ^^^ (0x020000 : BitVec 24)) ++ (0xFFFE : BitVec 16) ++
    Config.macFuse.extractLsb' 0 24

/-- The management port answers on an address: MGT_IP when it is not 0, and the link-local address (R437). -/
def State.ownAddr (s : State) (a : BitVec 128) : Bool := (s.addrAt (mgtK 0x58) != 0 && a == s.addrAt (mgtK 0x58)) || a == linkLocal

/-- A datagram reaches the management protocol (R437, R438): it comes to an address of the port, to UDP port MGT_CTRL.UDP. -/
def State.heard (s : State) (dg : Datagram) (payload : List Byte) : Bool :=
  s.portUp && s.ownAddr dg.dst.addr && dg.dst.port.toNat == s.regFld (mgtK 0) 0 16 && dg.magic == 0x4D474D31 && dg.ver == 1 &&
    decide (payload.length ≤ 1024)

/-- `s` after a datagram: dropped, or its command `f` (R438 to R440). -/
def State.datagram (s : State) (dg : Datagram) (cmd : BitVec 8) (payload : List Byte) (needsKey : Bool) (f : State → State) : State :=
  if !s.heard dg payload then s
  else if s.accepts dg cmd payload needsKey then f (s.tookSeq dg)
  else s.authFail dg.src cmd needsKey

/-- `s` with a command whose condition fails answered (R439): the manual names no code, so that it is any code that the device emits (R8;
DESIGN CHOICE, log 47). -/
def State.replyFailed (s : State) (peer : MgmtPeer) (cmd : BitVec 8) : State :=
  s.reply peer cmd ((emittedCodes[Config.mgmtStatus cmd.toNat]?).getD Code.SEC_MGMT_AUTH)

/-- The address lies in the PKG or MGT block (R439). -/
def keyless (addr : W64) : Bool :=
  addr.toNat / 0x400000000000 == 0x20000 &&
    match blockOf (addr.toNat % 0x400000000000) with
    | some (.pkg, _) => true
    | some (.mgt, _) => true
    | _ => false

/-- `s` after REG_READ (R34, R35, R439): an invalid address is reported in the answer only. -/
def State.regReadCmd (s : State) (peer : MgmtPeer) (addr : W64) : State :=
  match s.access 0 addr 8 with
  | .invalid => s.reply peer 0x01 Code.ADDR_INVALID (zeros 8)
  | .at_ b o => (s.readClear b o).reply peer 0x01 0 (beBytes 8 (s.regValue 0 b o).toNat)
  | _ => s.reply peer 0x01 0 (zeros 8)

/-- `s` after REG_WRITE (R34, R35, R439). -/
def State.regWriteCmd (s : State) (peer : MgmtPeer) (addr v : W64) : State :=
  match s.access 0 addr 8 with
  | .invalid => s.reply peer 0x02 Code.ADDR_INVALID
  | .at_ b o => (s.regWrite 0 b o v).reply peer 0x02 0
  | _ => s.reply peer 0x02 0

/-- `s` after RESET (R430, R439): it waits for the sector that an image write programs. -/
def State.resetCmd (s : State) (peer : MgmtPeer) : State :=
  let t := s.reply peer 0x03 0
  if t.mgmt.writing.isSome then { t with mgmt := { t.mgmt with resetWaits := true } } else t.resetKind .warm

/-- Sequence number `a` is not before `b`, modulo 2^32 (R393). -/
def notBefore (a b : BitVec 32) : Bool := (a - b).toNat < 2 ^ 31

/-- `s` after RPT_FETCH (R439). -/
def State.fetchCmd (s : State) (peer : MgmtPeer) (first : BitVec 32) (count : BitVec 16) : State :=
  if 1 ≤ count.toNat && count.toNat ≤ 15 then
    s.reply peer 0x04 0 ((((s.ring.filter fun r => notBefore r.seq first).take count.toNat).map s.recordBytes).flatten)
  else s.replyFailed peer 0x04

/-- `s` with every held record up to `seq` freed (R439, R441). -/
def State.freeRecords (s : State) (seq : BitVec 32) : State := { s with ring := s.ring.filter fun r => !notBefore seq r.seq }

/-- `s` after STAGE_CHUNK (R439). -/
def State.stageCmd (s : State) (peer : MgmtPeer) (offset : Nat) (bs : List Byte) : State :=
  if bs.length ≤ 1016 && offset + bs.length ≤ imageBytes then
    ({ s with mgmt := { s.mgmt with staging := flashPut s.mgmt.staging offset bs } } : State).reply peer 0x06 0
  else s.replyFailed peer 0x06

/-- The code of the first check that an image fails (R443). -/
def State.imageFails (s : State) (img : Tbl Byte) : Option W16 :=
  let h := Config.imageHeader img
  if h.magic ≠ 0x45465A49 || imageBytes < h.length then some Code.SEC_IMAGE_INVALID
  else if 4 ≤ h.keyslot || s.fuses.revoked.getLsbD h.keyslot then some Code.SEC_KEY_REVOKED
  else if beNat (sha256 h.key) ≠ (Config.fusedKeyHash h.keyslot).toNat then some Code.SEC_IMAGE_INVALID
  else if !hssVerifies h.key h.signature (sha256 (h.head ++ h.payload)) then some Code.SEC_IMAGE_INVALID
  else if h.svn < s.fuses.svn then some Code.SEC_ROLLBACK
  else none

/-- `s` with a verified image running: the firmware stage of the boot (R431, R443, R452). -/
def State.runImage (s : State) (img : Tbl Byte) : State :=
  { s with boot := .firmware, mgmt := { s.mgmt with image := some (Config.imageHeader img) } }

/-- `s` after RECOV_BOOT (R439, R443). -/
def State.recovCmd (s : State) (peer : MgmtPeer) : State :=
  if s.boot ≠ .recovery then s.replyFailed peer 0x07
  else match s.imageFails s.mgmt.staging with
    | some code => (s.secEvent code).reply peer 0x07 code
    | none => (s.reply peer 0x07 0).runImage s.mgmt.staging

/-- `s` after FLASH_COMMIT (R439, R443): the answer to an accepted image comes when it has been written (DESIGN CHOICE, log 99). -/
def State.commitCmd (s : State) (dg : Datagram) : State :=
  match s.imageFails s.mgmt.staging with
  | some code => (s.secEvent code).reply dg.src 0x08 code
  | none => { s with mgmt := { s.mgmt with writing := some (dg, s.mgmt.staging) } }

/-- A command that R439 refuses: 0x00 and 0x09 to 0x7F. -/
def reservedCmd (cmd : BitVec 8) : Bool := cmd == 0 || (9 ≤ cmd.toNat && cmd.toNat < 0x80)

/-- The I3C target answers (R437): from boot step 4, while die 0's controller has a clock (R416, R435). -/
def State.i3cUp (s : State) : Bool := s.boot != .refWait && s.boot != .pll && !s.domHung 0 2

/-- `s` after SET_MGMT_KEY (R440): accepted only inside the session. -/
def State.setKey (s : State) (inSession : Bool) (key : BitVec 256) : State :=
  if !s.i3cUp then s
  else if inSession && s.mgmt.session then { s with mgmt := { s.mgmt with key := some key, lastSeq := none } }
  else s.send (.spdmError .notAccepted)

/-- The bytes that measurement `i` is taken of (R445): the header and the payload of the image that runs, and of the rest what it measures, as
numbers, which the manual lays out no further (log 9). Block 5 holds E as the last ADVANCE left it, and block 6 the copy of the fault table
in force. -/
def State.measuredOf (s : State) (i : Nat) : List Byte :=
  match i with
  | 2 => Config.measured 2 (match s.mgmt.measured with
    | some f => [f.ident.toNat, f.revoked.toNat, f.svn, f.lms]
    | none => [])
  | 3 => (s.mgmt.image.map (·.head)).getD []
  | 4 => (s.mgmt.image.map (·.payload)).getD []
  | 5 => Config.measured 5 (((List.range 4).map fun k => (s.reg (cfgK (0x40 + 8 * k))).toNat) ++ [s.mgmt.advanced.toNat])
  | 6 => Config.measured 6 (match newestTab s.flashNow with
    | some (_, _, t) => (tabBytes 0 t).map (·.toNat)
    | none => [])
  | _ => Config.measured i []

/-- Measurement block `i`: the SHA-256 of what it measures (R445). -/
def State.measurement (s : State) (i : Nat) : Tx := .measurement i (BitVec.ofNat 256 (beNat (sha256 (s.measuredOf i))))

/-- `s` after GET_MEASUREMENTS (R445): one block, their number (0), or all of them (0xFF). -/
def State.measureCmd (s : State) (i : Nat) : State :=
  if !s.i3cUp then s
  else if i = 0 then s.send (.measurement 0 6)
  else if i ≤ 6 then s.send (s.measurement i)
  else if i = 0xFF then [1, 2, 3, 4, 5, 6].foldl (fun s i => s.send (s.measurement i)) s
  else s.send (.spdmError .noMeasurement)

/-- `s` after PLDM_SENSOR_READ (R451): sensors 1 to 20, which hold 0 until their first update (DESIGN CHOICE, log 72). -/
def State.sensorCmd (s : State) (id : Nat) : State :=
  if !s.i3cUp then s else s.send (.pldm id (if 1 ≤ id && id ≤ 20 then some (tgetD s.mgmt.sensors id 0) else none))

/-- The sensor values as they stand, in ID order (R451). `amps`: the sum of both rails (R457). -/
def State.sensorValues (s : State) (amps : Nat) : List Nat :=
  ([0, 1].map fun d => s.regFld (clkK d 0x20) 56 8) ++ ((List.range 12).map fun st => s.regFld (stkK st 0x10) 0 8) ++
    ([0, 1].map s.vset) ++ [amps] ++ ([0, 1].map s.throttle) ++ [s.ring.length]

/-- PLDM_SENSOR_UPDATE (R451, R457): the operands are the currents of VDD_CORE0 and VDD_CORE1, as their regulators report them on AVSBus. -/
def execPldmSensorUpdate (amps : RailAmps) (s : State) : Host.Outcome State Fault Refusal :=
  if s.domHung 0 2 then .next s
  else .next { s with mgmt := { s.mgmt with sensors := (s.sensorValues (amps.core0 + amps.core1)).zipIdx.map fun p => (p.2 + 1, p.1) } }

/-- `s` with the one-time index moved past `q`; at 2^40 signing ends for good (R449). -/
def State.indexUsed (s : State) (q : Nat) : State :=
  let t := { s with mgmt := { s.mgmt with next := q + 1 } }
  if q + 1 < 2 ^ 40 then t
  else ({ t with mgmt := { t.mgmt with exhausted := true } } : State).secEvent Code.SEC_LMS_EXHAUSTED

/-- `s` with a digest signed with the next index: the fuses of its window are burned first (R446, R448, R449). -/
def State.sign (s : State) (digest : BitVec 256) : State :=
  let q := s.mgmt.next
  (({ s with fuses := { s.fuses with lms := max s.fuses.lms (q / 2 ^ 32 + 1) } } : State).send
    (.signature q (hssSign q digest))).indexUsed q

/-- `s` after a signature request (R447 to R449): the firmware signs once it has read its journal, and waits for a journal entry where the
index reaches the reserved limit. -/
def State.signCmd (s : State) (d : BitVec 256) : State :=
  if !s.tableLoaded || s.domHung 0 2 then s
  else if s.mgmt.exhausted then s.send (.spdmError .unspecified)
  else if s.mgmt.trees ≤ s.mgmt.next / 2 ^ 20 then s.send (.spdmError .responseNotReady)
  else if s.mgmt.limit ≤ s.mgmt.next then { s with mgmt := { s.mgmt with waiting := some d } }
  else s.sign d

/-- `s` after the controller of die 0 has handled a request (R436). -/
def State.handle (s : State) (i : Instr) : State :=
  match i with
  | .regRead dg addr => s.datagram dg 0x01 (beBytes 8 addr.toNat) (!keyless addr) fun s => s.regReadCmd dg.src addr
  | .regWrite dg addr v => s.datagram dg 0x02 (beBytes 8 addr.toNat ++ beBytes 8 v.toNat) true fun s => s.regWriteCmd dg.src addr v
  | .reset dg => s.datagram dg 0x03 [] true fun s => s.resetCmd dg.src
  | .rptFetch dg first count =>
    s.datagram dg 0x04 (beBytes 4 first.toNat ++ beBytes 2 count.toNat) true fun s => s.fetchCmd dg.src first count
  | .rptAck dg seq => s.datagram dg 0x05 (beBytes 4 seq.toNat) true fun s => (s.freeRecords seq).reply dg.src 0x05 0
  | .stageChunk dg offset bytes =>
    s.datagram dg 0x06 (beBytes 4 offset.toNat ++ bytes) (s.boot != .recovery) fun s => s.stageCmd dg.src offset.toNat bytes
  | .recovBoot dg => s.datagram dg 0x07 [] false fun s => s.recovCmd dg.src
  | .flashCommit dg => s.datagram dg 0x08 [] true fun s => s.commitCmd dg
  | .mgmtCmdReserved dg cmd payload =>
    s.datagram dg cmd payload (!reservedCmd cmd) fun s =>
      if reservedCmd cmd then (s.secEvent Code.SEC_MGMT_AUTH).reply dg.src cmd Code.SEC_MGMT_AUTH else s
  | .keyExchange => if s.i3cUp then { s with mgmt := { s.mgmt with session := true } } else s
  | .setMgmtKey inSession key => s.setKey inSession key
  | .getMeasurements index => s.measureCmd index.toNat
  | .pldmSensorRead id => s.sensorCmd id.toNat
  | .signatureRequest digest => s.signCmd digest
  | _ => s

/-- The controller is still at work on a request: a signature waits for its journal entry, or an image is being written (R436). -/
def State.mgmtBusy (s : State) : Bool := s.mgmt.waiting.isSome || s.mgmt.writing.isSome

/-- `s` after a request has arrived: handled, or waiting in arrival order while another is being handled (R436). -/
def State.ask (s : State) (i : Instr) : State :=
  if s.mgmtBusy then { s with mgmt := { s.mgmt with requests := s.mgmt.requests ++ [i] } } else s.handle i

/-- `s` after at most `n` of the requests that wait, up to one that keeps the controller at work. -/
def State.handleWaiting (s : State) : Nat → State
  | 0 => s
  | n + 1 =>
    match s.mgmt.requests with
    | [] => s
    | i :: r => if s.mgmtBusy then s else (({ s with mgmt := { s.mgmt with requests := r } } : State).handle i).handleWaiting n

/-- `s` with the requests handled that waited for the one which has ended (R436). -/
def State.nextRequests (s : State) : State := s.handleWaiting s.mgmt.requests.length

/-- REG_READ (R439). -/
def execRegRead (dg : Datagram) (addr : W64) (s : State) : Host.Outcome State Fault Refusal := .next (s.ask (.regRead dg addr))

/-- REG_WRITE (R439). -/
def execRegWrite (dg : Datagram) (addr v : W64) (s : State) : Host.Outcome State Fault Refusal := .next (s.ask (.regWrite dg addr v))

/-- RESET (R439): it does not wait for an image write to end, but for its sector. -/
def execReset (dg : Datagram) (s : State) : Host.Outcome State Fault Refusal :=
  if s.mgmt.writing.isSome then .next (s.handle (.reset dg)) else .next (s.ask (.reset dg))

/-- RPT_FETCH (R439). -/
def execRptFetch (dg : Datagram) (first : BitVec 32) (count : BitVec 16) (s : State) : Host.Outcome State Fault Refusal :=
  .next (s.ask (.rptFetch dg first count))

/-- RPT_ACK (R439, R441). -/
def execRptAck (dg : Datagram) (seq : BitVec 32) (s : State) : Host.Outcome State Fault Refusal := .next (s.ask (.rptAck dg seq))

/-- STAGE_CHUNK (R439): no key in RECOVERY. -/
def execStageChunk (dg : Datagram) (offset : BitVec 32) (bytes : List Byte) (s : State) : Host.Outcome State Fault Refusal :=
  .next (s.ask (.stageChunk dg offset bytes))

/-- RECOV_BOOT (R439, R443). -/
def execRecovBoot (dg : Datagram) (s : State) : Host.Outcome State Fault Refusal := .next (s.ask (.recovBoot dg))

/-- FLASH_COMMIT (R439, R443). -/
def execFlashCommit (dg : Datagram) (s : State) : Host.Outcome State Fault Refusal := .next (s.ask (.flashCommit dg))

/-- MGMT_CMD_RESERVED (R439, R440). -/
def execMgmtCmdReserved (dg : Datagram) (cmd : BitVec 8) (payload : List Byte) (s : State) : Host.Outcome State Fault Refusal :=
  .next (s.ask (.mgmtCmdReserved dg cmd payload))

/-- KEY_EXCHANGE (R440): an SPDM secured session. -/
def execKeyExchange (s : State) : Host.Outcome State Fault Refusal := .next (s.ask .keyExchange)

/-- SET_MGMT_KEY (R440). -/
def execSetMgmtKey (inSession : Bool) (key : BitVec 256) (s : State) : Host.Outcome State Fault Refusal :=
  .next (s.ask (.setMgmtKey inSession key))

/-- GET_MEASUREMENTS (R445). -/
def execGetMeasurements (index : BitVec 8) (s : State) : Host.Outcome State Fault Refusal := .next (s.ask (.getMeasurements index))

/-- PLDM_SENSOR_READ (R451). -/
def execPldmSensorRead (id : BitVec 16) (s : State) : Host.Outcome State Fault Refusal := .next (s.ask (.pldmSensorRead id))

/-- SIGNATURE_REQUEST (R447 to R449). -/
def execSignatureRequest (digest : BitVec 256) (s : State) : Host.Outcome State Fault Refusal :=
  .next (s.ask (.signatureRequest digest))

/-- The reserved limit that the entry for index `q` gives (R448). -/
def limitFor (q : Nat) : Nat := q / 1024 * 1024 + 1024

/-- JOURNAL_ENTRY_PROGRAMMED (R436, R448): the waiting signature is released, and the requests behind it go on. -/
def execJournalEntryProgrammed (s : State) : Host.Outcome State Fault Refusal :=
  let m := s.mgmt
  match m.waiting with
  | none => .next s
  | some d =>
    let n := limitFor m.next
    .next (({ s with mgmt := { m with flash := journalAppend m.flash n, limit := n, waiting := none } } : State).signCmd d).nextRequests

/-- BOTTOM_TREE_BUILT (R447). -/
def execBottomTreeBuilt (s : State) : Host.Outcome State Fault Refusal :=
  if s.mgmt.busy then .next { s with mgmt := { s.mgmt with trees := s.mgmt.trees + 1 } } else .next s

/-- `s` at the end of an image write (R436, R439, R443, R450): a RESET that waited acts on an incomplete slot; else the command is answered. A
write that fails leaves the previous image in force. -/
def State.imageWritten (s : State) (dg : Datagram) (img : Tbl Byte) (ok : Bool) : State :=
  let t : State := { s with mgmt := { s.mgmt with writing := none } }
  if s.mgmt.resetWaits then s.resetKind .warm
  else if ok then
    ((({ t with mgmt := { t.mgmt with flash := flashImage t.mgmt.flash img, slotBroken := false } } : State)).reply dg.src 0x08 0).nextRequests
  else ((t.secEvent Code.FW_FLASH_FAIL).reply dg.src 0x08 Code.FW_FLASH_FAIL).nextRequests

/-- `s` at the end of a write of the fault table (R450): one that fails leaves its copy erased (DESIGN CHOICE, log 96). -/
def State.tableWritten (s : State) (ok : Bool) : State :=
  if !s.tableLoaded then s
  else if ok then { s with mgmt := { s.mgmt with flash := tabWrite s.mgmt.flash s.faults }, flashFailed := false }
  else ({ s with mgmt := { s.mgmt with flash := tabErase s.mgmt.flash }, flashFailed := true } : State).secEvent Code.FW_FLASH_FAIL

/-- FLASH_WRITE_END (R439, R450). -/
def execFlashWriteEnd (ok : Bool) (s : State) : Host.Outcome State Fault Refusal :=
  match s.mgmt.writing with
  | some (dg, img) => .next (s.imageWritten dg img ok)
  | none => .next (s.tableWritten ok)

/-- `s` held in RECOVERY, where the management port answers (R437, R443). -/
def State.recovery (s : State) (code : W16) : State :=
  ({ (s.secEvent code).secEvent Code.FW_RECOVERY with boot := .recovery } : State).sendDue

/-- BOOT_IMAGE_VERIFY (R431 step 4, R439, R443, R445). -/
def execBootImageVerify (s : State) : Host.Outcome State Fault Refusal :=
  if s.boot ≠ .rom || s.domHung 0 2 then .next s
  else
    let t := { s with mgmt := { s.mgmt with measured := some s.fuses } }
    if t.mgmt.slotBroken then .next (t.recovery Code.SEC_IMAGE_INVALID)
    else match t.imageFails (flashSlot t.mgmt.flash) with
      | some code => .next (t.recovery code)
      | none => .next (t.runImage (flashSlot t.mgmt.flash))

/-- `s` with the LMS journal read at boot (R448, R449). -/
def State.lmsInit (s : State) : State :=
  let r := s.lmsFound
  let t := { s with fuses := { s.fuses with lms := r.fuses },
                    mgmt := { s.mgmt with next := r.next, limit := r.next, trees := r.next / 2 ^ 20 + 1, exhausted := r.ended } }
  let t := if r.resync then t.secEvent Code.SEC_LMS_RESYNC else t
  if r.ended then t.secEvent Code.SEC_LMS_EXHAUSTED else t

/-- `s` with the fault table of the boot flash in force, and beside it the units that this boot has disabled so far (R400, R402, R450). -/
def State.loadTable (s : State) : State :=
  match newestTab s.mgmt.flash with
  | some (_, _, f) =>
    let us := f.disabled ++ s.disabled.filter fun u => !f.disabled.contains u
    { s with faults := { f with disabled := us }, disabled := us }
  | none => s.secEvent Code.FW_FAULTTAB_LOST

/-- FIRMWARE_INIT_END (R402, R412, R431 step 5, R449, R450). -/
def execFirmwareInitEnd (s : State) : Host.Outcome State Fault Refusal :=
  if s.boot ≠ .firmware then .next s
  else .next { ({ s.loadTable with time1 := s.time } : State).lmsInit with boot := .scrub }

end Sys2Proof.Machine
end

