-- ==== Sys2Proof/Machine/Receive.lean ====
section
/-! DEFINITION. The receive side of a quay: classes, buffers, spill and sending pause, and the arrival of each Soxis packet
(14_quays_and_soxis_fabric.md R348, R354, R366 to R368; R31, R400). Memory serves a received packet at once, unless the packet must wait for
gated clusters to wake (R429): it then waits in its class, and what arrives behind it in that class waits too (DESIGN CHOICE, log 91). -/

namespace Sys2Proof.Machine

/-- The PFC class of a received packet (R348, R368): that of its priority code point, DEFCLASS for an untagged one. A priority of no class
is read as DEFCLASS too (DESIGN CHOICE, log 91). -/
def State.rxClassOf (s : State) (qy : Nat) (p : Packet) : Nat :=
  let k := quayK qy 0x30
  match p.pcp with
  | some x => ((List.range 4).find? fun c => s.regFld k (3 * c) 3 == x.toNat).getD (s.regFld k 16 2)
  | none => s.regFld k 16 2

/-- Bytes that a packet takes in a buffer: its Soxis header, units and trailer (R353, R355; DESIGN CHOICE, log 91). -/
def rxBytes (p : Packet) : Nat := 40 + 64 * p.units.length + alignUp (2 * p.units.length) 4

/-- Bytes of a class on the die, and in the spill region. -/
def RxClass.onDie (x : RxClass) : Nat := ((x.waiting.filter (·.spill.isNone)).map fun e => rxBytes e.pkt).sum
def RxClass.spilled (x : RxClass) : Nat := ((x.waiting.filter (·.spill.isSome)).map fun e => rxBytes e.pkt).sum

/-- ONDIE in bytes (R374). -/
def State.ondieLimit (s : State) (qy : Nat) : Nat := min (s.regFld (quayK qy 0x38) 0 16) 0x100 * 4096

/-- PFC is enabled for a class (R368). -/
def State.pfcOn (s : State) (qy cls : Nat) : Bool := s.regBit (quayK qy 0x30) (12 + cls)

/-- The quay spills: SPILL is 1, and the stack of its spill region is not disabled (R367, R400). -/
def State.spillOn (s : State) (qy : Nat) : Bool := s.regBit (quayK qy 0x38) 63 && !s.isDisabled (0x9000 + spillStack qy)

/-- A packet of a class goes to the spill region (R367): the class has reached ONDIE, or what came before it is still there. -/
def State.spillsNow (s : State) (qy cls : Nat) : Bool :=
  let x := s.rxOf qy cls
  s.spillOn qy && (x.waiting.any (·.spill.isSome) || s.ondieLimit qy ≤ x.onDie)

/-- Bytes that the classes of a quay without PFC hold beyond ONDIE, class `cls` holding `n` on the die. -/
def State.looseBytes (s : State) (qy cls n : Nat) : Nat :=
  ((List.range 4).map fun c =>
    if s.pfcOn qy c then 0 else (if c = cls then n else (s.rxOf qy c).onDie) - s.ondieLimit qy).sum

/-- A class has no space for `n` more bytes: its quarter of the spill region is full, or its ONDIE bytes and pause headroom, or without PFC
its ONDIE bytes and the remaining space of the 6 MiB, which such classes share (R366 to R368; DEDUCED, log 91). -/
def State.rxFull (s : State) (qy cls n : Nat) : Bool :=
  let x := s.rxOf qy cls
  if s.spillsNow qy cls then decide (0x8000000 < x.spilled + n)
  else if s.pfcOn qy cls then decide (s.ondieLimit qy + 0x40000 < x.onDie + n)
  else decide (0x600000 - 4 * (s.ondieLimit qy + 0x40000) < s.looseBytes qy cls (x.onDie + n))

/-- Physical address of an offset in the spill quarter of a class (R31, R367). -/
def spillPa (qy cls o : Nat) : Nat := spillStack qy * 0x1000000000 + cls * 0x8000000 + o % 0x8000000

/-- The addresses of the units of a spilled packet. -/
def spillUnits (qy cls : Nat) (p : Packet) (o : Nat) : List Nat := (List.range ((rxBytes p + 63) / 64)).map fun i => spillPa qy cls (o + 64 * i)

/-- XOFF is reached, or the class lies below XON (R368). -/
def State.xoffReached (s : State) (qy cls : Nat) : Bool :=
  let x := s.rxOf qy cls
  if s.spillOn qy then min (s.regFld (quayK qy 0x38) 40 8) 128 * 0x100000 ≤ x.spilled else s.ondieLimit qy ≤ x.onDie
def State.xonReached (s : State) (qy cls : Nat) : Bool :=
  let x := s.rxOf qy cls
  if s.spillOn qy then x.spilled < min (s.regFld (quayK qy 0x38) 32 8) 128 * 0x100000 else x.onDie < s.ondieLimit qy / 2

/-- `s` with the partner paused, or no longer paused, as the occupancy of a class has it (R368). -/
def State.pauseCheck (s : State) (qy cls : Nat) : State :=
  let x := s.rxOf qy cls
  if !s.pfcOn qy cls then s
  else if !x.xoff && s.xoffReached qy cls then (s.setRx qy cls { x with xoff := true }).send (.pause qy cls true)
  else if x.xoff && s.xonReached qy cls then (s.setRx qy cls { x with xoff := false }).send (.pause qy cls false)
  else s

/-- `s` with a received packet waiting at the end of its class: on the die, spilled, or dropped where no space is left (R366 to R368). -/
def State.park (s : State) (qy cls : Nat) (kind : BitVec 8) (p : Packet) : State :=
  let x := s.rxOf qy cls
  if s.rxFull qy cls (rxBytes p) then s
  else if s.spillsNow qy cls then
    let us := spillUnits qy cls p x.tail
    let t := us.zipIdx.foldl (fun s u => s.writeUnit u.1 (leBytes 64 (Config.spillUnit s.draws u.2).toNat) false) s
    let t := (t.count (quayK qy 0x168) (rxBytes p)).draw
    (t.setRx qy cls { x with waiting := x.waiting ++ [{ kind := kind, pkt := p, spill := some x.tail }],
                              tail := (x.tail + 64 * us.length) % 0x8000000 }).pauseCheck qy cls
  else (s.setRx qy cls { x with waiting := x.waiting ++ [{ kind := kind, pkt := p, spill := none }] }).pauseCheck qy cls

/-- `s` after memory has served a received packet: `kind` is the OP of its command (R354). -/
def State.serve (s : State) (qy : Nat) (kind : BitVec 8) (p : Packet) : State :=
  match kind.toNat with
  | 0x01 => s.servedRead qy p
  | 0x02 => s.servedWrite qy p
  | 0x03 => s.servedWriteMasked qy p
  | 0x04 => s.servedFadd qy p
  | 0x05 => s.servedCas qy p
  | 0x06 => s.servedCtrlWrite qy p
  | 0x41 => s.servedReadResp qy p
  | 0x42 => s.servedAck qy p
  | 0x44 => s.servedAtomicResp qy p
  | 0x4D => s.servedRnr qy p
  | 0x4E => s.servedNakSeq qy p
  | 0x4F => s.servedRefuse qy p
  | _ => s

/-- The packets of these commands carry data units (R354). -/
def carriesUnits (kind : BitVec 8) : Bool := kind = 2 || kind = 3 || kind = 6 || kind = 0x41

/-- `s` after a Soxis packet has arrived at a quay (R347, R366, R372): served at once, or waiting in its class. -/
def State.receive (s : State) (qy : Nat) (kind : BitVec 8) (p : Packet) : State :=
  if !s.linkUp qy then s
  else if carriesUnits kind && lengthBad p then s.drop qy 1
  else
    let t := (s.count (quayK qy 0x170) p.fec).count (quayK qy 0x140) 1
    let cls := t.rxClassOf qy p
    if (t.rxOf qy cls).waiting ≠ [] then t.park qy cls kind p
    else
      let u := t.serve qy kind p
      if t.woken u = [] then u else (t.rouse (t.woken u)).park qy cls kind p

/-- A spilled packet reads back poisoned (R333, R367). -/
def State.spillBad (s : State) (qy cls : Nat) (e : RxEntry) : Bool :=
  match e.spill with
  | some o => (spillUnits qy cls e.pkt o).any fun pa => (s.readUnit pa).tag != .good
  | none => false

/-- `s` after at most `n` packets of a class have been served in arrival order, up to one that wakes gated clusters. -/
def State.drainRx (s : State) (qy cls : Nat) : Nat → State
  | 0 => s
  | n + 1 =>
    match (s.rxOf qy cls).waiting with
    | [] => s
    | e :: rest =>
      let t := (s.setRx qy cls { s.rxOf qy cls with waiting := rest }).pauseCheck qy cls
      if s.spillBad qy cls e then (t.drop qy 3).drainRx qy cls n
      else
        let u := t.serve qy e.kind e.pkt
        if t.woken u = [] then u.drainRx qy cls n else s.rouse (t.woken u)

/-- `s` with the packets served that waited for clusters to wake (R366, R429). -/
def State.drainAll (s : State) : State :=
  s.rx.foldl (fun s p => s.drainRx (p.1 / 4) (p.1 % 4) p.2.waiting.length) s

/-- READ (R354). -/
def execRead (qy : Fin 8) (p : Packet) (s : State) : Host.Outcome State Fault Refusal := .next (s.receive qy 0x01 p)

/-- WRITE (R354, R358). -/
def execWrite (qy : Fin 8) (p : Packet) (s : State) : Host.Outcome State Fault Refusal := .next (s.receive qy 0x02 p)

/-- WRITE_MASKED (R354). -/
def execWriteMasked (qy : Fin 8) (p : Packet) (s : State) : Host.Outcome State Fault Refusal := .next (s.receive qy 0x03 p)

/-- FADD (R360). -/
def execFadd (qy : Fin 8) (p : Packet) (s : State) : Host.Outcome State Fault Refusal := .next (s.receive qy 0x04 p)

/-- CAS (R360). -/
def execCas (qy : Fin 8) (p : Packet) (s : State) : Host.Outcome State Fault Refusal := .next (s.receive qy 0x05 p)

/-- CTRL_WRITE (R357). -/
def execCtrlWrite (qy : Fin 8) (p : Packet) (s : State) : Host.Outcome State Fault Refusal := .next (s.receive qy 0x06 p)

/-- READ_RESP (R354, R363, R372). -/
def execReadResp (qy : Fin 8) (p : Packet) (s : State) : Host.Outcome State Fault Refusal := .next (s.receive qy 0x41 p)

/-- ACK (R354, R361). -/
def execAck (qy : Fin 8) (p : Packet) (s : State) : Host.Outcome State Fault Refusal := .next (s.receive qy 0x42 p)

/-- ATOMIC_RESP (R354). -/
def execAtomicResp (qy : Fin 8) (p : Packet) (s : State) : Host.Outcome State Fault Refusal := .next (s.receive qy 0x44 p)

/-- RNR (R357). -/
def execRnr (qy : Fin 8) (p : Packet) (s : State) : Host.Outcome State Fault Refusal := .next (s.receive qy 0x4D p)

/-- NAK_SEQ (R361). -/
def execNakSeq (qy : Fin 8) (p : Packet) (s : State) : Host.Outcome State Fault Refusal := .next (s.receive qy 0x4E p)

/-- REFUSE (R371, R373). -/
def execRefuse (qy : Fin 8) (p : Packet) (s : State) : Host.Outcome State Fault Refusal := .next (s.receive qy 0x4F p)

end Sys2Proof.Machine
end

