-- ==== Sys2Proof/Machine/Vector.lean ====
section
/-! DEFINITION. The vector engine: VOP and VXADD (08_vector_engine.md; R261, R262, R333). -/

namespace Sys2Proof.Machine

/-- A stage word (R206). -/
structure VStage where
  op : Nat
  sa : Nat
  sb : Nat
  d : Nat
  srnd : Nat
  cfmt : Nat
  resv : Nat
  imm : Nat
deriving DecidableEq, Repr

/-- A chain record (R206). -/
structure VChain where
  nst : Nat
  ofmt : Nat
  rnd : Nat
  outen : Bool
  osel : Nat
  redop : Nat
  redax : Nat
  redfmt : Bool
  rsel : Nat
  resv : Nat
  /-- the eight stage words -/
  words : List W64
  /-- words 9 to 15 are 0 -/
  tail : Bool
deriving DecidableEq, Repr

/-- The fields of a stage word (R206). -/
def stageOf (w : W64) : VStage :=
  { op := fld w 59 5, sa := fld w 56 3, sb := fld w 53 3, d := fld w 51 2, srnd := fld w 49 2, cfmt := fld w 45 4,
    resv := fld w 32 13, imm := fld w 0 32 }

/-- The chain record in 128 bytes (R206). -/
def vchainOf (bs : List Byte) : VChain :=
  let w := fun i => BitVec.ofNat 64 (leNat ((bs.drop (8 * i)).take 8))
  let h := w 0
  { nst := fld h 60 4, ofmt := fld h 56 4, rnd := fld h 54 2, outen := bitAt h 53, osel := fld h 51 2, redop := fld h 48 3,
    redax := fld h 46 2, redfmt := bitAt h 45, rsel := fld h 43 2, resv := fld h 0 43,
    words := (List.range 8).map fun i => w (i + 1), tail := (List.range 7).all fun i => w (i + 9) == 0 }

/-- The stages that run. -/
def VChain.stages (v : VChain) : List VStage := (v.words.take v.nst).map stageOf

/-- Number of sources that an operation reads (R213). -/
def srcCount (op : Nat) : Nat :=
  if op = 0x18 || op = 0x19 then 0
  else if op = 0 || (7 ≤ op && op ≤ 9) || (0xB ≤ op && op ≤ 0x12) || op = 0x16 then 1 else 2

/-- The source codes that a stage reads (R206). -/
def VStage.srcs (t : VStage) : List Nat := [t.sa, t.sb].take (srcCount t.op)

/-- Cost in lane cycles (R213). -/
def stageCost (op : Nat) : Nat :=
  if op = 0x10 || op = 0x11 || op = 0x12 then 6 else if 9 ≤ op && op ≤ 0xF then 4 else 1

/-- The codes of one stage (R206, R207, R213). `none_`: the descriptor index of inputs X, Y, Z is 0xFF. -/
def stageCheck (none_ : Nat → Bool) (t : VStage) : Option Ref :=
  firstRef
    [ need (t.op ≤ 0x19 && t.resv == 0) Code.VCHAIN_INVALID,
      if t.op = 0x16 then
        firstRef [need (2 ≤ t.cfmt && t.cfmt ≤ 5) Code.VCHAIN_INVALID, need (t.srnd != 3) Code.RND_RESERVED]
      else need (t.srnd == 0 && t.cfmt == 0) Code.VCHAIN_INVALID,
      need (t.op != 0x19 || t.imm ≤ 4) Code.VCHAIN_INVALID,
      need (t.srcs.all fun c => 3 ≤ c || !none_ c) Code.VCHAIN_INVALID ]

/-- The codes of a chain record, in the order of R207's table and then of its list. -/
def vchainCheck (v : VChain) (none_ : Nat → Bool) : Option Ref :=
  let last := (v.stages.getLast?).getD (stageOf 0)
  firstRef
    [ need (1 ≤ v.nst && v.nst ≤ 8) Code.VCHAIN_INVALID,
      need (!v.outen || (2 ≤ v.ofmt && v.ofmt ≤ 5)) Code.FORMAT_INVALID, need (rndOf v.rnd).isSome Code.RND_RESERVED,
      need (v.redop ≤ 4) Code.VCHAIN_INVALID, need (v.redop == 0 || v.redax ≤ 1) Code.VCHAIN_INVALID,
      need (v.redop == 0 || !v.redfmt || v.redop == 1) Code.VCHAIN_INVALID,
      need (v.resv == 0 && v.tail && (v.words.drop v.nst).all (· == 0)) Code.VCHAIN_INVALID,
      firstRef (v.stages.map (stageCheck none_)), need (v.outen || v.redop != 0) Code.VCHAIN_INVALID,
      need (!(v.rnd == 2 && ((last.op == 0x16 && last.srnd == 2) || last.op == 0x18))) Code.VCHAIN_INVALID ]

/-- Exact partials are written (R207, R217). -/
def VChain.partial_ (v : VChain) : Bool := v.redop == 1 && v.redfmt

/-- A VOP's operands, latched (R205, R275): descriptors of O, X, Y, Z and RD, those that it names. -/
structure VOps where
  chain : VChain
  o : Tensor
  ins : List (Option Tensor)
  rd : Option Tensor
deriving DecidableEq, Repr

/-- The operand index fields of a VOP: O, X, Y, Z, RD (R261). -/
def vopIdx (w : InstrWord) : List Nat := [opnd w 63 56, opnd w 55 48, opnd w 47 40, opnd w 39 32, opnd w 31 24]

/-- The chain record of a VOP as read. -/
def State.vopRecord (s : State) (c : Nat) (q : Queue) (w : InstrWord) : UnitRd :=
  s.readBytes (chamPa c (s.offs c q w (opnd w 15 0 * 64))) 128

/-- What a VOP latches (R205). -/
def State.vopOps (s : State) (c : Nat) (q : Queue) (w : InstrWord) : VOps :=
  let v := vchainOf (s.vopRecord c q w).data
  let rd := s.tensorAt c (opnd w 31 24)
  { chain := v, o := s.tensorAt c (opnd w 63 56),
    ins := [opnd w 55 48, opnd w 47 40, opnd w 39 32].map fun i => if i = 0xFF then none else some (s.tensorAt c i),
    rd := if opnd w 31 24 = 0xFF then none
      else some (if v.partial_ then { rd with d := { rd.d with fmt := partialFmt } } else rd) }

/-- The tensors of a VOP. -/
def VOps.tensors (x : VOps) : List Tensor := x.o :: x.ins.filterMap id ++ x.rd.toList

/-- The tensor that takes the reduction results: none when there are none (R207). -/
def VOps.result (x : VOps) : Option Tensor := if x.chain.redop = 0 then none else x.rd

/-- The tensors over which a VOP works. -/
def VOps.worked (x : VOps) : List Tensor := x.o :: x.ins.filterMap id ++ x.result.toList

/-- RD has the shape that R219 asks for. -/
def rdShape (v : VChain) (o rd : Tensor) : Bool :=
  if v.redax = 1 then rd.shape.all (· == 1)
  else if o.d.ndim = 1 then rd.shape == [1] else rd.shape == o.shape.tail

/-- The checks of a VOP, in the order of the rules that lay them down (R246, R207, R261, R292, R208, R209, R219; DEDUCED, log 55). -/
def State.vopCheck (s : State) (c : Nat) (q : Queue) (w : InstrWord) : Option Ref :=
  let u := s.vopRecord c q w
  let off := s.offs c q w (opnd w 15 0 * 64)
  let x := s.vopOps c q w
  let v := x.chain
  let idx := (vopIdx w).filter (· != 0xFF)
  let none_ := fun k => (vopIdx w).getD (k + 1) 0 == 0xFF
  firstRef
    [ if u.tag = .good then none
      else some { code := Code.VCHAIN_INVALID,
                  bad := some (badKind (tagCode u.tag), s.chamAddr c (((s.firstBad (chamPa c off) 128).getD (chamPa c off)) - chamPa c 0)) },
      vchainCheck v none_, need (opnd w 63 56 != 0xFF) Code.VEC_SHAPE,
      need (v.redop == 0 || opnd w 31 24 != 0xFF) Code.VCHAIN_INVALID, firstRef (idx.map (s.ctrlCheck c)),
      need (x.ins.all fun t => match t with | some t => 2 ≤ t.d.fmt && t.d.fmt ≤ 5 | none => true) Code.FORMAT_INVALID,
      need (if v.outen then x.o.d.fmt == v.ofmt else x.o.d.fmt ≤ 8) Code.FORMAT_INVALID,
      need (match x.result with | some t => v.partial_ || t.d.fmt == 5 | none => true) Code.FORMAT_INVALID,
      firstRef (x.tensors.map indexFmt), firstRef (x.tensors.map hullCheck), firstRef (x.tensors.map (s.placeCheck c)),
      need (x.ins.all fun t => match t with | some t => t.shape == x.o.shape | none => true) Code.VEC_SHAPE,
      need (x.tensors.all fun t => s.inChamber c t.d) Code.VEC_OPERAND_PLACE,
      need (match x.result with | some t => rdShape v x.o t | none => true) Code.VEC_SHAPE ]

/-- A value rounded by CVT and widened back (R213). -/
def cvt32 (cfmt srnd r : Nat) (a : Num) : Num :=
  let f := (fmtOf cfmt).getD .fp32
  f.value (f.conv ((rndOf srnd).getD .rne) r a).bits

/-- The result of a stage operation (R213). `t`: T[D] before; `r`: its random bits; `co`: the element's coordinates. -/
def stageEval (g : VStage) (a b t : Num) (r : Nat) (co : List Nat) : Num :=
  match g.op with
  | 0x00 => a
  | 0x01 => r32 (a.add b)
  | 0x02 => r32 (a.add b.neg)
  | 0x03 => r32 (a.mul b)
  | 0x04 => r32 ((a.mul b).add t)
  | 0x05 => max32 a b
  | 0x06 => min32 a b
  | 0x07 => a.abs
  | 0x08 => a.neg
  | 0x09 => div32 .one a
  | 0x0A => div32 a b
  | 0x0B => sqrt32 a
  | 0x0C => rsqrt32 a
  | 0x0D => exp32 true a
  | 0x0E => log32 a
  | 0x0F => exp32 false a
  | 0x10 => tanh32 a
  | 0x11 => sigm32 a
  | 0x12 => silu32 a
  | 0x13 => if b.lt a then .one else .zero
  | 0x14 => if a.eqv b then .one else .zero
  | 0x15 => if t.isZero then b else a
  | 0x16 => cvt32 g.cfmt g.srnd r a
  | 0x17 => min32 (max32 a b) (v32 g.imm)
  | 0x18 => .fin r (-16)
  | _ => r32 (.fin (co.getD g.imm 0 : Nat) 0)

/-- A source of a stage: X, Y, Z, a temporary or IMM (R206). -/
def srcVal (ins ts : List Num) (g : VStage) (code : Nat) : Num :=
  if code < 3 then ins.getD code .zero else if code < 7 then ts.getD (code - 3) .zero else v32 g.imm

/-- The temporaries after a chain (R211, R214). -/
def runChain (v : VChain) (seed : W64) (tag : W16) (ins : List Num) (co : List Nat) (idx : Nat) : List Num :=
  v.stages.zipIdx.foldl (fun ts p =>
    let g := p.1
    let r := if g.op = 0x16 || g.op = 0x18 then srBits seed tag p.2 idx else 0
    ts.set g.d (stageEval g (srcVal ins ts g g.sa) (srcVal ins ts g g.sb) (ts.getD g.d .zero) r co))
    [.zero, .zero, .zero, .zero]

/-- The inputs that a chain reads (R220). -/
def VChain.reads (v : VChain) (k : Nat) : Bool := v.stages.any fun g => g.srcs.contains k

/-- An IMM that the chain reads holds NaN (R220). -/
def VChain.immNan (v : VChain) : Bool := v.stages.any fun g => (g.srcs.contains 7 || g.op == 0x17) && v32 g.imm == .nan

/-- The origin of a NaN output (R220). -/
def VChain.origin (v : VChain) (ins : List Num) : Nat :=
  match (List.range 3).find? fun k => v.reads k && ins.getD k .zero == .nan with
  | some k => k
  | none => if v.immNan then 5 else 3

/-- What one element gives. -/
structure VElem where
  co : List Nat
  /-- output pattern -/
  out : Nat
  outNan : Bool
  origin : Nat
  red : Num
  reads : List ElemRd
deriving DecidableEq, Repr

/-- One element of the iteration space through the chain (R211). -/
def State.vopElem (s : State) (ctx : Nat) (x : VOps) (seed : W64) (tag : W16) (n : Nat) : VElem :=
  let v := x.chain
  let co := coordsOf x.o.shape n
  let rds := x.ins.zipIdx.map fun p =>
    match p.1 with
    | some t => if v.reads p.2 then some (t, s.readElem ctx t [] co) else none
    | none => none
  let ins := rds.map fun r => match r with | some (t, e) => ((fmtOf t.d.fmt).getD .fp32).value e.pat | none => .zero
  let ts := runChain v seed tag ins co n
  let f := (fmtOf v.ofmt).getD .fp32
  let p := f.conv ((rndOf v.rnd).getD .rne) (srBits seed tag (v.nst - 1) n) (ts.getD v.osel .zero)
  { co := co, out := p.bits, outNan := f.value p.bits == .nan, origin := v.origin ins, red := ts.getD v.rsel .zero,
    reads := rds.filterMap fun r => r.map (·.2) }

/-- An exact accumulator: units of 2^-149 and flags N, P, M (R216). -/
structure ExactAcc where
  sum : Int := 0
  n : Bool := false
  p : Bool := false
  m : Bool := false
deriving DecidableEq, Repr

/-- An FP32 value added exactly (R216). -/
def ExactAcc.add (x : ExactAcc) : Num → ExactAcc
  | .nan => { x with n := true }
  | .inf neg => if neg then { x with m := true } else { x with p := true }
  | .fin m e => { x with sum := x.sum + m * 2 ^ (e + 149).toNat }

/-- The value of an accumulator before its one rounding (R216). -/
def ExactAcc.value (x : ExactAcc) : Num :=
  if x.n || (x.p && x.m) then .nan else if x.p then .inf false else if x.m then .inf true else .fin x.sum (-149)

/-- An accumulator as a 64-byte partial (R217). -/
def ExactAcc.bytes (x : ExactAcc) : List Byte :=
  leBytes 48 (x.sum % 2 ^ 384).toNat ++
    leBytes 1 ((if x.n then 1 else 0) + (if x.p then 2 else 0) + (if x.m then 4 else 0)) ++ zeros 15

/-- A reduction over values in order (R216): its accumulator and its value. -/
def reduce (op : Nat) (xs : List Num) : ExactAcc × Num :=
  if op = 1 then
    let a := xs.foldl ExactAcc.add {}
    (a, a.value)
  else
    let ys := if op = 4 then xs.map Num.abs else xs
    ({}, match ys with
      | [] => .zero
      | y :: r => r.foldl (if op = 3 then min32 else max32) y)

/-- A row of a reduction: coordinates in RD, the elements' linear indices (R219). -/
def redRows (v : VChain) (shape : List Nat) : List (List Nat × List Nat) :=
  if v.redax = 1 then [([], List.range (volume shape))]
  else
    let n0 := shape.headD 1
    (List.range (volume shape.tail)).map fun r =>
      (match coordsOf shape.tail r with | [] => [0] | l => l, (List.range n0).map fun i => r * n0 + i)

/-- The vectors that fail the shadow check: sampled, and within the VOP (R221, R222). -/
def State.shadowReal (s : State) (c : Nat) (tag : W16) (count : Nat) (f : List ShadowDiff) : List ShadowDiff :=
  f.filter fun d => d.vector < (count + 511) / 512 &&
    decide (fld (mix64 ((BitVec.ofNat 64 tag.toNat <<< 32) ||| BitVec.ofNat 64 d.vector)) 0 8 < s.regFld (coreK c 0xB00) 0 9)

/-- Vectors sampled (R221). -/
def State.shadowCount (s : State) (c : Nat) (tag : W16) (count : Nat) : Nat :=
  ((List.range ((count + 511) / 512)).filter fun v =>
    decide (fld (mix64 ((BitVec.ofNat 64 tag.toNat <<< 32) ||| BitVec.ofNat 64 v)) 0 8 < s.regFld (coreK c 0xB00) 0 9)).length

/-- The difference with the lowest vector. -/
def firstDiff (f : List ShadowDiff) : Option ShadowDiff :=
  f.foldl (fun m d => match m with | some x => if d.vector < x.vector then some d else some x | none => some d) none

/-- CORE_VEC_SHERR of a difference (R223). -/
def sherrWord (d : ShadowDiff) (tag : W16) (pc : BitVec 14) : W64 :=
  putFld (putFld (putFld (putFld (putFld (putBit 0 63 true) 60 3 d.stage) 50 10 d.lane) 32 14 pc.toNat) 16 16 tag.toNat) 0 16
    d.vector

/-- What the outputs or the results of a VOP write, one entry for each element or row: `none` where nothing is written; with the writes that
R280 discards, the first NaN written with its origin and index, and what the index entries read as. -/
structure VOut where
  writes : List (Option ElemWr) := []
  discarded : Nat := 0
  nan : Option (Nat × Nat) := none
  entries : List Rd := []

/-- One more write: `nan` is the origin when its pattern is NaN, `at_` its index (R220, R280). -/
def VOut.put (y : VOut) (t : Elem) (nibs pat : Nat) (bad : Bool) (nan : Option Nat) (at_ : Nat) : VOut :=
  let y := { y with entries := y.entries ++ [t.entry] }
  if t.past then { y with writes := y.writes ++ [none], discarded := y.discarded + 1 }
  else
    { y with
      writes := y.writes ++ [some { addr := t.addr, half := 0, nibs := nibs, pat := pat, bad := bad || isBad t.err }]
      nan := y.nan.or (nan.map fun o => (o, at_)) }

/-- The element writes of the outputs (R211, R222, R280, R333): `bad` names the vectors that are poisoned. -/
def vopOutputs (x : VOps) (bad : Nat → Bool) (es : List VElem) : VOut :=
  if x.chain.outen then
    es.zipIdx.foldl (fun (y : VOut) p =>
      y.put (x.o.elem p.1.co) x.o.d.nibs p.1.out (bad (p.2 / 512)) (if p.1.outNan then some p.1.origin else none) p.2) {}
  else {}

/-- The element writes of the reduction results (R216, R217, R219, R222). -/
def vopResults (x : VOps) (rd : Tensor) (bad : Nat → Bool) (es : List VElem) : VOut :=
  let v := x.chain
  (redRows v x.o.shape).zipIdx.foldl (fun (y : VOut) p =>
    let r := reduce v.redop (p.1.2.map fun i => ((es[i]?).map (·.red)).getD .zero)
    y.put (rd.elem p.1.1) rd.d.nibs (if v.partial_ then leNat r.1.bytes else f32 r.2) (p.1.2.any fun i => bad (i / 512))
      (if r.2 == .nan then some 4 else none) p.2) {}

/-- `s` with the writes of the vector engine landed, and the units that it wrote poisoned counted (R333, R403). -/
def State.vecLand (s : State) (c : Nat) (ws : List ElemWr) : State :=
  let us := groupWrites ws
  let (t, _) := s.landAll (s.ctxOf c) (some c) us
  t.wrotePoison c ((us.filter (·.poison)).map (·.addr)).eraseDups.length

/-- `s` with a VOP's counters and its shadow check recorded (R221 to R223). -/
def State.vopCount (s : State) (c : Nat) (q : Queue) (w : InstrWord) (v : VChain) (count : Nat) (diffs : List ShadowDiff) : State :=
  let cost := (v.stages.map fun g => stageCost g.op).sum
  let n := s.shadowCount c w.optag count
  let t := (s.count (coreK c 0xB10) (cost * ((count + 511) / 512 + n))).count (coreK c 0xB18) n
  match firstDiff diffs with
  | none => t
  | some d => (t.count (coreK c 0xB20) diffs.length).first (coreK c 0xB28) (sherrWord d w.optag (s.queue c q).pc)

/-- What a VOP has computed: its element count and elements, the differences that its shadow check counts, the writes of its outputs and
results, and the elements of a row. -/
structure VRun where
  n : Nat
  es : List VElem
  diffs : List ShadowDiff
  out : VOut
  res : VOut
  row : Nat

/-- The element writes of a VOP in order: the result of a row follows the row's last output (R219). -/
def VRun.writes (r : VRun) : List ElemWr :=
  let outs := if r.out.writes = [] then List.replicate r.n none else r.out.writes
  ((chunks r.row outs).zipIdx.map fun p => p.1.filterMap id ++ (r.res.writes.getD p.2 none).toList).flatten

/-- What a VOP's reads met: its inputs, and the index entries of its output and its results (R333). -/
def VRun.errs (r : VRun) : Errs := errsOf (((r.es.map (·.reads)).flatten.map (·.rd)) ++ r.out.entries ++ r.res.entries)

/-- A VOP over its elements (R208 to R222). -/
def State.vopRun (s : State) (c : Nat) (q : Queue) (w : InstrWord) (found : List ShadowDiff) : VRun :=
  let x := s.vopOps c q w
  let v := x.chain
  let n := volume x.o.shape
  let es := (List.range n).map (s.vopElem (s.ctxOf c) x (s.reg (seedK c q)) w.optag)
  let diffs := s.shadowReal c w.optag n found
  let badV := ((es.zipIdx.filter fun p =>
    p.1.reads.any (fun e => isBad e.rd.err) || (v.outen && isBad (x.o.elem p.1.co).err)).map (·.2 / 512)).eraseDups
  let bad := fun v => badV.contains v || diffs.any (·.vector == v)
  { n := n, es := es, diffs := diffs, out := vopOutputs x bad es,
    res := match x.result with | some rd => vopResults x rd bad es | none => {},
    row := if v.redop = 0 || v.redax = 1 then n else x.o.shape.headD 1 }

/-- A VOP that issues (R208 to R222). -/
def State.vopIssue (s : State) (c : Nat) (q : Queue) (w : InstrWord) (found : List ShadowDiff) : Issued :=
  let x := s.vopOps c q w
  let ctx := s.ctxOf c
  if x.worked.any (·.empty) then { st := s }
  else
    let r := s.vopRun c q w found
    let rds := (r.es.map (·.reads)).flatten
    let t := s.vecLand c r.writes
    let t := (t.count (coreK c 0xC08) (r.out.discarded + r.res.discarded)).count (coreK c 0xC18)
      (rds.filter fun e => e.past && !e.pad).length
    let t := (t.tookErrs c q (s.queue c q).pc w.optag ctx r.errs).vopCount c q w x.chain r.n r.diffs
    let err := if r.diffs = [] then none else some Code.VEC_SHADOW_MISMATCH
    match r.out.nan.or r.res.nan with
    | none => { st := t, error := err }
    | some (origin, at_) =>
      { st := t.nanTrap c q 1 origin (s.queue c q).pc w.optag at_, error := err,
        events := if s.nanFills c then [Code.NAN_TRAPPED] else [], hold := if s.nanFills c then s.nanHold c else .none }

/-- The vector engine is under self-test, and takes no instructions (R397). -/
def State.vecBusy (s : State) (c : Nat) : Bool := s.underTest (srcOf 3 c)

/-- VOP (R205, R261), with what the shadow check finds (R222). -/
def execVop (c : Fin 96) (q : Queue) (w : InstrWord) (f : List ShadowDiff) (s : State) : Host.Outcome State Fault Refusal :=
  .next (s.runHead c q .vop w fun s =>
    if s.vecBusy c then .wait .resource
    else match s.vopCheck c q w with
      | some r => .refuseRef r
      | none => .issue (s.vopIssue c q w f))

/-- A partial in 64 bytes (R217, R218): bits 7 to 3 of FLAGS and bytes 0x31 on read as 0. -/
def partialOf (bs : List Byte) : ExactAcc :=
  let v := leNat (bs.take 48)
  let f := (bs.getD 48 0).toNat
  { sum := if v < 2 ^ 383 then (v : Int) else (v : Int) - 2 ^ 384, n := f.testBit 0, p := f.testBit 1, m := f.testBit 2 }

/-- Two accumulators added (R218). -/
def ExactAcc.merge (a b : ExactAcc) : ExactAcc :=
  { sum := a.sum + b.sum, n := a.n || b.n, p := a.p || b.p, m := a.m || b.m }

/-- A VXADD that issues (R218, R262, R333). -/
def State.vxaddIssue (s : State) (c : Nat) (q : Queue) (w : InstrWord) : Issued :=
  let src := s.offs c q w (opnd w 63 48 * 64)
  let dst := s.offs c q w (opnd w 47 32 * 64)
  let n := opnd w 31 16
  if n = 0 then { st := s }
  else
    let r := s.readBytes (chamPa c src) (64 * n)
    let a := ((chunks' r.data n).map partialOf).foldl ExactAcc.merge {}
    let bs := if w.f0 then a.bytes else leBytes 4 (f32 a.value) ++ zeros 60
    let bad := ((s.firstBad (chamPa c src) (64 * n)).getD (chamPa c src)) - chamPa c 0
    let t := (s.writeUnit (chamPa c dst) bs (r.tag != .good)).wrotePoison c (if r.tag = .good then 0 else 1)
    let t := t.tookTag c q w.optag (s.chamAddr c bad) (chamPa c bad) r.tag
    if a.value == .nan then
      { st := t.nanTrap c q 1 4 (s.queue c q).pc w.optag 0,
        events := if s.nanFills c then [Code.NAN_TRAPPED] else [], hold := if s.nanFills c then s.nanHold c else .none }
    else { st := t }
where
  /-- The 64-byte pieces of `n` partials. -/
  chunks' (bs : List Byte) (n : Nat) : List (List Byte) := (List.range n).map fun i => (bs.drop (64 * i)).take 64

/-- The source range or the result reaches beyond the chamber window (R262). -/
def State.vxaddOk (s : State) (c : Nat) (q : Queue) (w : InstrWord) : Bool :=
  s.offs c q w (opnd w 63 48 * 64) + 64 * opnd w 31 16 ≤ 0x400000 && s.offs c q w (opnd w 47 32 * 64) + 64 ≤ 0x400000

/-- VXADD (R218, R262). -/
def execVxadd (c : Fin 96) (q : Queue) (w : InstrWord) (s : State) : Host.Outcome State Fault Refusal :=
  .next (s.runHead c q .vxadd w fun s =>
    if s.vecBusy c then .wait .resource
    else if s.vxaddOk c q w then .issue (s.vxaddIssue c q w) else .refuse Code.VEC_OPERAND_PLACE)

end Sys2Proof.Machine
end

