-- ==== Sys2Proof/Machine/Wake.lean ====
section
/-! DEFINITION. The end of a cluster's wake time: what waited for it goes on (17_clocks_power_reset.md R429). -/

namespace Sys2Proof.Machine

/-- `s` after an action that waited for cluster `g` to wake (R429). -/
def State.runWoken (s : State) (i : Instr) : State :=
  match i with
  | .queueStart ctx vc mask => s.atCore ctx vc 0 fun c => s.startMask c mask
  | .clusterStart ctx vg mask => s.atClu ctx vg 8 fun g => s.startCores (maskCores g mask)
  | .windowWrite ctx addr bs => s.windowWrite ctx addr bs
  | .imageLoad ctx vg => s.atClu ctx vg 8 fun g => s.loadAwake ctx g i
  | .selfTestStart d => s.nextTest d
  | _ => s

/-- WAKE_END (R429): the actions that waited, then the transfers and the received packets that did. -/
def execWakeEnd (g : Fin 16) (s : State) : Host.Outcome State Fault Refusal :=
  match tget s.waking g with
  | none => .next s
  | some l =>
    .next (l.foldl State.runWoken { s.toRun g with waking := tdel s.waking g }).resumeGathers.drainAll

end Sys2Proof.Machine
end

