-- ==== Sys2Proof/Machine/Dispatch.lean ====
section
/-! DEFINITION. The dispatch: one arm per command, each one call of its meaning. -/

namespace Sys2Proof.Machine

/-- What a command does to the state, the queue of commands left as it is. -/
def exec (i : Instr) (s : State) : Host.Outcome State Fault Refusal :=
  match i with
  | .nop c q w => Sys2Proof.Machine.execNop c q w s
  | .end_ c q w => Sys2Proof.Machine.execEnd c q w s
  | .loop c q w => Sys2Proof.Machine.execLoop c q w s
  | .seed c q w => Sys2Proof.Machine.execSeed c q w s
  | .smov c q w => Sys2Proof.Machine.execSmov c q w s
  | .smovh c q w => Sys2Proof.Machine.execSmovh c q w s
  | .sadd c q w => Sys2Proof.Machine.execSadd c q w s
  | .ssub c q w => Sys2Proof.Machine.execSsub c q w s
  | .smul c q w => Sys2Proof.Machine.execSmul c q w s
  | .sand c q w => Sys2Proof.Machine.execSand c q w s
  | .sor c q w => Sys2Proof.Machine.execSor c q w s
  | .sxor c q w => Sys2Proof.Machine.execSxor c q w s
  | .sshl c q w => Sys2Proof.Machine.execSshl c q w s
  | .sshr c q w => Sys2Proof.Machine.execSshr c q w s
  | .sld c q w => Sys2Proof.Machine.execSld c q w s
  | .sst c q w => Sys2Proof.Machine.execSst c q w s
  | .dadd c q w => Sys2Proof.Machine.execDadd c q w s
  | .semset c q w => Sys2Proof.Machine.execSemset c q w s
  | .xarr c q w => Sys2Proof.Machine.execXarr c q w s
  | .mbsend c q w => Sys2Proof.Machine.execMbsend c q w s
  | .mbDelivery c q => Sys2Proof.Machine.execMbDelivery c q s
  | .mbTimeout c q => Sys2Proof.Machine.execMbTimeout c q s
  | .mbrecv c q w => Sys2Proof.Machine.execMbrecv c q w s
  | .mma c q w => Sys2Proof.Machine.execMma c q w s
  | .mmaComplete c q => Sys2Proof.Machine.execMmaComplete c q s
  | .mdrn c q w f => Sys2Proof.Machine.execMdrn c q w f s
  | .mdrnComplete c q => Sys2Proof.Machine.execMdrnComplete c q s
  | .vop c q w f => Sys2Proof.Machine.execVop c q w f s
  | .vxadd c q w => Sys2Proof.Machine.execVxadd c q w s
  | .ldq c q w => Sys2Proof.Machine.execLdq c q w s
  | .ldmCopy c q w => Sys2Proof.Machine.execLdmCopy c q w s
  | .stmCopy c q w => Sys2Proof.Machine.execStmCopy c q w s
  | .stq c q w => Sys2Proof.Machine.execStq c q w s
  | .atom c q w => Sys2Proof.Machine.execAtom c q w s
  | .upd c q w => Sys2Proof.Machine.execUpd c q w s
  | .updComplete c n => Sys2Proof.Machine.execUpdComplete c n s
  | .commit c q w => Sys2Proof.Machine.execCommit c q w s
  | .commitFlip ctx failAt => Sys2Proof.Machine.execCommitFlip ctx failAt s
  | .kstep c q w => Sys2Proof.Machine.execKstep c q w s
  | .snap c q w => Sys2Proof.Machine.execSnap c q w s
  | .instructionComplete c q => Sys2Proof.Machine.execInstructionComplete c q s
  | .instructionFetch c q e => Sys2Proof.Machine.execInstructionFetch c q e s
  | .signal src => Sys2Proof.Machine.execSignal src s
  | .kerbCloseMerge ctx => Sys2Proof.Machine.execKerbCloseMerge ctx s
  | .kerbRecordArrival ctx slot => Sys2Proof.Machine.execKerbRecordArrival ctx slot s
  | .kerbDecide ctx => Sys2Proof.Machine.execKerbDecide ctx s
  | .kerbReduceTimeout ctx => Sys2Proof.Machine.execKerbReduceTimeout ctx s
  | .queueStart ctx vc mask => Sys2Proof.Machine.execQueueStart ctx vc mask s
  | .wakeEnd g => Sys2Proof.Machine.execWakeEnd g s
  | .queueStop ctx vc mask => Sys2Proof.Machine.execQueueStop ctx vc mask s
  | .clusterStart ctx vg mask => Sys2Proof.Machine.execClusterStart ctx vg mask s
  | .clusterStop ctx vg mask => Sys2Proof.Machine.execClusterStop ctx vg mask s
  | .imageLoad ctx vg => Sys2Proof.Machine.execImageLoad ctx vg s
  | .imageLoadEnd g => Sys2Proof.Machine.execImageLoadEnd g s
  | .pcWrite ctx vc q v => Sys2Proof.Machine.execPcWrite ctx vc q v s
  | .scalarRegisterWrite ctx vc q n v => Sys2Proof.Machine.execScalarRegisterWrite ctx vc q n v s
  | .coreSeedWrite ctx vc n v => Sys2Proof.Machine.execCoreSeedWrite ctx vc n v s
  | .dtbaseWrite ctx vc v => Sys2Proof.Machine.execDtbaseWrite ctx vc v s
  | .pickWrite ctx vc v => Sys2Proof.Machine.execPickWrite ctx vc v s
  | .windowWrite ctx addr bytes => Sys2Proof.Machine.execWindowWrite ctx addr bytes s
  | .kerbStatusStepWrite ctx bank v => Sys2Proof.Machine.execKerbStatusStepWrite ctx bank v s
  | .pipeSnapArm ctx bank n v => Sys2Proof.Machine.execPipeSnapArm ctx bank n v s
  | .pipeSnapDone ctx bank n v => Sys2Proof.Machine.execPipeSnapDone ctx bank n v s
  | .semValueWrite ctx addr v => Sys2Proof.Machine.execSemValueWrite ctx addr v s
  | .xrdMaskWrite ctx line hi v => Sys2Proof.Machine.execXrdMaskWrite ctx line hi v s
  | .xrdForce ctx line => Sys2Proof.Machine.execXrdForce ctx line s
  | .mbCfgWrite ctx vg ch v => Sys2Proof.Machine.execMbCfgWrite ctx vg ch v s
  | .dbmaskWrite ctx vg v => Sys2Proof.Machine.execDbmaskWrite ctx vg v s
  | .offlineWrite ctx st v => Sys2Proof.Machine.execOfflineWrite ctx st v s
  | .echoGo ctx st ch v => Sys2Proof.Machine.execEchoGo ctx st ch v s
  | .echoRunEnd st ch diffs => Sys2Proof.Machine.execEchoRunEnd st ch diffs s
  | .quayModeWrite ctx qy v => Sys2Proof.Machine.execQuayModeWrite ctx qy v s
  | .quayEnWrite ctx qy v => Sys2Proof.Machine.execQuayEnWrite ctx qy v s
  | .quayLinkUp qy => Sys2Proof.Machine.execQuayLinkUp qy s
  | .quayLinkDown qy => Sys2Proof.Machine.execQuayLinkDown qy s
  | .qpReady ctx qp => Sys2Proof.Machine.execQpReady ctx qp s
  | .qpReset ctx qp => Sys2Proof.Machine.execQpReset ctx qp s
  | .qpError ctx qp => Sys2Proof.Machine.execQpError ctx qp s
  | .rebind ctx mask => Sys2Proof.Machine.execRebind ctx mask s
  | .rebindDrainTimeout => Sys2Proof.Machine.execRebindDrainTimeout s
  | .rebindDrainEnd => Sys2Proof.Machine.execRebindDrainEnd s
  | .rebindScrubEnd failed => Sys2Proof.Machine.execRebindScrubEnd failed s
  | .compute ctx => Sys2Proof.Machine.execCompute ctx s
  | .computeEnd => Sys2Proof.Machine.execComputeEnd s
  | .advance ctx => Sys2Proof.Machine.execAdvance ctx s
  | .computeThenAdvance ctx => Sys2Proof.Machine.execComputeThenAdvance ctx s
  | .epochWrite ctx v => Sys2Proof.Machine.execEpochWrite ctx v s
  | .discardKstat ctx bank => Sys2Proof.Machine.execDiscardKstat ctx bank s
  | .kresend ctx bank => Sys2Proof.Machine.execKresend ctx bank s
  | .errDisableGo ctx d src => Sys2Proof.Machine.execErrDisableGo ctx d src s
  | .errDisableEnable ctx d src => Sys2Proof.Machine.execErrDisableEnable ctx d src s
  | .unitDisableMark src => Sys2Proof.Machine.execUnitDisableMark src s
  | .pkgRstWarm ctx v => Sys2Proof.Machine.execPkgRstWarm ctx v s
  | .wdogKick ctx v => Sys2Proof.Machine.execWdogKick ctx v s
  | .wdogExpiry => Sys2Proof.Machine.execWdogExpiry s
  | .clockSwitch ctx d v => Sys2Proof.Machine.execClockSwitch ctx d v s
  | .clockUngate d => Sys2Proof.Machine.execClockUngate d s
  | .gateRequest ctx d v => Sys2Proof.Machine.execGateRequest ctx d v s
  | .gateEnter g => Sys2Proof.Machine.execGateEnter g s
  | .svnRaise ctx v => Sys2Proof.Machine.execSvnRaise ctx v s
  | .registerWrite ctx addr width v => Sys2Proof.Machine.execRegisterWrite ctx addr width v s
  | .regRead dg addr => Sys2Proof.Machine.execRegRead dg addr s
  | .regWrite dg addr v => Sys2Proof.Machine.execRegWrite dg addr v s
  | .reset dg => Sys2Proof.Machine.execReset dg s
  | .rptFetch dg first count => Sys2Proof.Machine.execRptFetch dg first count s
  | .rptAck dg seq => Sys2Proof.Machine.execRptAck dg seq s
  | .stageChunk dg offset bytes => Sys2Proof.Machine.execStageChunk dg offset bytes s
  | .recovBoot dg => Sys2Proof.Machine.execRecovBoot dg s
  | .flashCommit dg => Sys2Proof.Machine.execFlashCommit dg s
  | .mgmtCmdReserved dg cmd payload => Sys2Proof.Machine.execMgmtCmdReserved dg cmd payload s
  | .setMgmtKey inSession key => Sys2Proof.Machine.execSetMgmtKey inSession key s
  | .getMeasurements index => Sys2Proof.Machine.execGetMeasurements index s
  | .pldmSensorRead id => Sys2Proof.Machine.execPldmSensorRead id s
  | .signatureRequest digest => Sys2Proof.Machine.execSignatureRequest digest s
  | .journalEntryProgrammed => Sys2Proof.Machine.execJournalEntryProgrammed s
  | .bottomTreeBuilt => Sys2Proof.Machine.execBottomTreeBuilt s
  | .flashWriteEnd ok => Sys2Proof.Machine.execFlashWriteEnd ok s
  | .resetRelease => Sys2Proof.Machine.execResetRelease s
  | .powerOnReset => Sys2Proof.Machine.execPowerOnReset s
  | .supplyReset => Sys2Proof.Machine.execSupplyReset s
  | .pinReset => Sys2Proof.Machine.execPinReset s
  | .referenceLost => Sys2Proof.Machine.execReferenceLost s
  | .referenceStarted => Sys2Proof.Machine.execReferenceStarted s
  | .refcountRestart => Sys2Proof.Machine.execRefcountRestart s
  | .pllLock d => Sys2Proof.Machine.execPllLock d s
  | .pllUnlock d => Sys2Proof.Machine.execPllUnlock d s
  | .bootImageVerify => Sys2Proof.Machine.execBootImageVerify s
  | .firmwareInitEnd => Sys2Proof.Machine.execFirmwareInitEnd s
  | .bootScrubEnd failed => Sys2Proof.Machine.execBootScrubEnd failed s
  | .droopWarning d mv => Sys2Proof.Machine.execDroopWarning d mv s
  | .droopHoldExpiry d lowest => Sys2Proof.Machine.execDroopHoldExpiry d lowest s
  | .droopPersistExpiry d => Sys2Proof.Machine.execDroopPersistExpiry d s
  | .dipThrottleEnd d => Sys2Proof.Machine.execDipThrottleEnd d s
  | .thermalReading d tj => Sys2Proof.Machine.execThermalReading d tj s
  | .dramTempReading st t => Sys2Proof.Machine.execDramTempReading st t s
  | .throtNAssert => Sys2Proof.Machine.execThrotNAssert s
  | .throtNRelease => Sys2Proof.Machine.execThrotNRelease s
  | .avsStep d ok => Sys2Proof.Machine.execAvsStep d ok s
  | .stackRead pa e asRead => Sys2Proof.Machine.execStackRead pa e asRead s
  | .correctedWriteback pa => Sys2Proof.Machine.execCorrectedWriteback pa s
  | .maskedWrite pa lo hi data => Sys2Proof.Machine.execMaskedWrite pa lo hi data s
  | .patrolScrub pa e asRead => Sys2Proof.Machine.execPatrolScrub pa e asRead s
  | .sramPatrol addr f asRead => Sys2Proof.Machine.execSramPatrol addr f asRead s
  | .refresh st => Sys2Proof.Machine.execRefresh st s
  | .flitReplay r => Sys2Proof.Machine.execFlitReplay r s
  | .dieLinkRetrainEnd st ok => Sys2Proof.Machine.execDieLinkRetrainEnd st ok s
  | .dramParityFail st ch => Sys2Proof.Machine.execDramParityFail st ch s
  | .channelRetrainEnd st ch ok => Sys2Proof.Machine.execChannelRetrainEnd st ch ok s
  | .selfTestStart d => Sys2Proof.Machine.execSelfTestStart d s
  | .selfTestEnd d passed => Sys2Proof.Machine.execSelfTestEnd d passed s
  | .rowRepairEnd st => Sys2Proof.Machine.execRowRepairEnd st s
  | .read qy p => Sys2Proof.Machine.execRead qy p s
  | .write qy p => Sys2Proof.Machine.execWrite qy p s
  | .writeMasked qy p => Sys2Proof.Machine.execWriteMasked qy p s
  | .fadd qy p => Sys2Proof.Machine.execFadd qy p s
  | .cas qy p => Sys2Proof.Machine.execCas qy p s
  | .ctrlWrite qy p => Sys2Proof.Machine.execCtrlWrite qy p s
  | .readResp qy p => Sys2Proof.Machine.execReadResp qy p s
  | .ack qy p => Sys2Proof.Machine.execAck qy p s
  | .atomicResp qy p => Sys2Proof.Machine.execAtomicResp qy p s
  | .rnr qy p => Sys2Proof.Machine.execRnr qy p s
  | .rnrDelayExpiry qp => Sys2Proof.Machine.execRnrDelayExpiry qp s
  | .nakSeq qy p => Sys2Proof.Machine.execNakSeq qy p s
  | .refuse qy p => Sys2Proof.Machine.execRefuse qy p s
  | .epochRetry qp => Sys2Proof.Machine.execEpochRetry qp s
  | .retransmitTimeout qp => Sys2Proof.Machine.execRetransmitTimeout qp s
  | .congestionNotification qy qp => Sys2Proof.Machine.execCongestionNotification qy qp s
  | .ccTick qp => Sys2Proof.Machine.execCcTick qp s
  | .pauseFrame qy cls xoff => Sys2Proof.Machine.execPauseFrame qy cls xoff s
  | .pfcWatchdogExpiry qy cls => Sys2Proof.Machine.execPfcWatchdogExpiry qy cls s
  | .pfcStormEnd qy cls => Sys2Proof.Machine.execPfcStormEnd qy cls s
  | .managementFrame qy overRate => Sys2Proof.Machine.execManagementFrame qy overRate s
  | .droppedFrame qy reason => Sys2Proof.Machine.execDroppedFrame qy reason s
  | .registerRead ctx addr width => Sys2Proof.Machine.execRegisterRead ctx addr width s
  | .updStepCstepWrite ctx bank v => Sys2Proof.Machine.execUpdStepCstepWrite ctx bank v s
  | .vddCoreRecovery d mv => Sys2Proof.Machine.execVddCoreRecovery d mv s
  | .pldmSensorUpdate amps => Sys2Proof.Machine.execPldmSensorUpdate amps s
  | .keyExchange => Sys2Proof.Machine.execKeyExchange s

end Sys2Proof.Machine
end

