-- ==== Sys2Proof/Machine/Tick.lean ====
section
/-! DEFINITION. What one count of the 500 MHz clock does when no command waits (R173, R398, R412, R433; DESIGN CHOICE, log 1). -/

namespace Sys2Proof.Machine

/-- `s` with PIPE_SNAPSTALL of each context counting while its commit waits for a snapshot (R173, R177). -/
def State.tickStalls (s : State) : State :=
  (List.range 16).foldl (fun t ctx =>
    if (t.ownCommit ctx).isNone then t
    else if (t.pinnedCommit ctx).isSome then (t.showStalls ctx).count (pipeK ctx 0x28) 1
    else t.showStalls ctx) s

/-- `s` with PWR_THROT.CYCLES of each die counting while its level is above 0 (R433). -/
def State.tickThrottle (s : State) : State :=
  [0, 1].foldl (fun t d => if s.throttle d = 0 then t else t.setFld (clkK d 0x28) 0 32 (t.regFld (clkK d 0x28) 0 32 + 1)) s

/-- 500 MHz counts of an hour. -/
def hourCounts : Nat := 1800000000000

/-- `s` with the power-on hour counter moved on at each whole hour of the timestamp counter (R398, R450). -/
def State.tickHours (s : State) : State :=
  if s.time.toNat % hourCounts = 0 then { s with faults := { s.faults with hours := s.faults.hours + 1 } } else s

/-- `s` after one 500 MHz count of both timestamp counters, with the records sent that no longer merge: before the reference has started nothing
but the reference cycle of a reset's causes passes (R396, R409, R412, R458). -/
def State.tick (s : State) : State :=
  let s := { s with cycle := none }
  if s.refStarted then ({ s.tickStalls.tickThrottle with time := s.time + 1, time1 := s.time1 + 1 } : State).tickHours.sendDue else s

end Sys2Proof.Machine
end

