-- ==== Sys2Proof/Safety.lean ====
section
/-! DEFINITION. What counts as a safe state and what an effect leaves alone, in the terms that statements use. -/

namespace Sys2Proof.Machine

/-- The memories are in their canonical form, so equal memories are equal data. -/
def State.MemOk (s : State) : Prop := Memory.wf s.mem = true

/-- The fuses of `t` have only risen from those of `s` (R444, R449), and identity and revocations are the same. -/
def State.FusesRise (s t : State) : Prop :=
  s.fuses.svn ≤ t.fuses.svn ∧ s.fuses.lms ≤ t.fuses.lms ∧ t.fuses.ident = s.fuses.ident ∧ t.fuses.device = s.fuses.device ∧
    t.fuses.revoked = s.fuses.revoked

/-- Every register but those at `ks` reads in `t` as in `s`. -/
def State.RegsBut (s t : State) (ks : List Nat) : Prop := ∀ k, k ∉ ks → t.reg k = s.reg k

/-- `t` is `s` but for control-space registers, and among those only the ones at `ks` may differ. -/
def State.OnlyRegs (s t : State) (ks : List Nat) : Prop := t = { s with regs := t.regs } ∧ s.RegsBut t ks

/-- Every queue but queue `q` of core `c` is in `t` as in `s`. -/
def State.QueuesBut (s t : State) (c : Nat) (q : Queue) : Prop :=
  ∀ c' q', ¬(c' = c ∧ q' = q) → t.queue c' q' = s.queue c' q'

/-- `t` is `s` but for queue `q` of core `c` and the registers at `ks`. -/
def State.OnlyQueue (s t : State) (c : Nat) (q : Queue) (ks : List Nat) : Prop :=
  t = { s with regs := t.regs, queues := t.queues } ∧ s.RegsBut t ks ∧ s.QueuesBut t c q

/-- Every byte of memory but the `n` bytes from physical address `a` reads in `t` as in `s`. -/
def State.BytesBut (s t : State) (a n : Nat) : Prop := ∀ x, x < a ∨ a + n ≤ x → memByte t.mem x = memByte s.mem x

/-- Every byte of memory outside the 64-byte units at the addresses in `us` reads in `t` as in `s`. -/
def State.UnitsBut (s t : State) (us : List Nat) : Prop := ∀ x, x / 64 * 64 ∉ us → memByte t.mem x = memByte s.mem x

/-- The physical units where a context's unit writes land (R19 to R28). -/
def State.unitsLanded (s : State) (ctx : Nat) (us : List UnitWr) : List Nat :=
  us.filterMap fun u => match s.place ctx u.addr with | .mem pa => some (pa / 64 * 64) | _ => none

/-- The physical units that hold a 64-bit word of a context's table at a local address. -/
def State.wordUnits (s : State) (ctx addr : Nat) : List Nat :=
  match s.localPlace ctx addr with | .mem pa => unitsOf pa 8 | _ => []

/-- The physical units that `n` bytes of a context's table at a local address lie in, each translated on its own (R32). -/
def State.rangeUnits (s : State) (ctx addr n : Nat) : List Nat :=
  (unitsOf addr n).filterMap fun a => match s.localPlace ctx a with | .mem pa => some (pa / 64 * 64) | _ => none

/-- A key of a semaphore's value register (R293 to R295). -/
def isSemKey (k : Nat) : Prop :=
  (∃ (c : Fin 96) (i : Fin 64), k = coreK c (0x1000 + 8 * i)) ∨ (∃ (g : Fin 16) (i : Fin 256), k = cluK g (0x1000 + 8 * i)) ∨
    ∃ (d : Fin 2) (i : Fin 512), k = dieK d (0x200000 + 8 * i)

/-- The command that puts instruction `o` with frame `w` before queue `q` of core `c`; `f` and `d` are what the self-checks find. -/
def headCommand (o : Op) (c : Fin 96) (q : Queue) (w : InstrWord) (f : ResidueFinding) (d : List ShadowDiff) : Instr :=
  match o with
  | .nop => .nop c q w | .end_ => .end_ c q w | .loop => .loop c q w | .seed => .seed c q w | .smov => .smov c q w
  | .smovh => .smovh c q w | .sadd => .sadd c q w | .ssub => .ssub c q w | .smul => .smul c q w | .sand => .sand c q w
  | .sor => .sor c q w | .sxor => .sxor c q w | .sshl => .sshl c q w | .sshr => .sshr c q w | .sld => .sld c q w
  | .sst => .sst c q w | .dadd => .dadd c q w | .semset => .semset c q w | .xarr => .xarr c q w | .mbsend => .mbsend c q w
  | .mbrecv => .mbrecv c q w | .mma => .mma c q w | .mdrn => .mdrn c q w f | .vop => .vop c q w d | .vxadd => .vxadd c q w
  | .ldq => .ldq c q w | .ldmCopy => .ldmCopy c q w | .stq => .stq c q w | .stmCopy => .stmCopy c q w | .atom => .atom c q w
  | .upd => .upd c q w | .commit => .commit c q w | .kstep => .kstep c q w | .snap => .snap c q w

/-- The entry in flight of an instruction at the head of a queue (R228, R230, R242): its operation, address, tag and signal, and no
effect at its completion beyond that signal. -/
def State.headEntry (s : State) (c : Nat) (q : Queue) (o : Op) (w : InstrWord) : InFlight :=
  { id := s.ids, op := o, pc := (s.queue c q).pc, optag := w.optag, sinc := w.sinc.toNat,
    home := match s.semHome c w.ssem false with | .home k => k | .bad _ => 0,
    work := .done, events := [], error := none, errAt := 0, post := none, hold := .none, step := 0 }

/-- A queue after its head has issued as the entry `f` in flight, with the next address `pc` and loop stack `loops`: it runs, and
considers no head yet (R228, R233). -/
def QState.afterIssue (x : QState) (f : InFlight) (pc : BitVec 14) (loops : List LoopEntry) : QState :=
  { x with mode := .running, wcause := .none, pc := pc, loops := loops, fetched := none, lineWait := none,
           given := none, inflight := x.inflight ++ [f] }

/-- The semaphore that the wait of an instruction changes. -/
def State.waitKeys (s : State) (c : Nat) (w : InstrWord) : List Nat := (s.waitHome c w).toList

/-- `t` follows `s` by the issue of the head of queue `q` of core `c` as the entry `f`, with the address step of R233: that queue, the
semaphore that it waited on and the registers at `ks` apart, every queue and every register is as before. -/
def State.IssuedTo (s t : State) (c : Nat) (q : Queue) (w : InstrWord) (f : InFlight) (ks : List Nat) : Prop :=
  t.queue c q = (s.queue c q).afterIssue f (advance (s.queue c q).pc (s.queue c q).loops).1
      (advance (s.queue c q).pc (s.queue c q).loops).2 ∧
    s.QueuesBut t c q ∧ s.RegsBut t (ks ++ s.waitKeys c w)

/-- Nothing but registers, queues and the count of issued instructions differs. -/
def State.CoreOnly (s t : State) : Prop := t = { s with regs := t.regs, queues := t.queues, ids := s.ids + 1 }

/-- Memory, its tags, the queues and the accumulators are as before. -/
def State.CoresKept (s t : State) : Prop := t.mem = s.mem ∧ t.tags = s.tags ∧ t.queues = s.queues ∧ t.bufs = s.bufs

/-- Every scalar register of every queue is as before. -/
def State.ScalarsKept (s t : State) : Prop := ∀ (c : Fin 96) (q : Queue) (i : Fin 16), t.sreg c q i = s.sreg c q i

/-- Every semaphore but those at `ks` is as before. -/
def State.SemsBut (s t : State) (ks : List Nat) : Prop := ∀ k, isSemKey k → k ∉ ks → t.reg k = s.reg k

/-- The registers that count a context's reports: ERR_RPT and ERR_CTX_REPORTS (R407, R408). -/
def reportKeys (ctx : Nat) : List Nat := [dieK 0 0x350010, errK ctx 0x10]

/-- `t` is `s` with reports made about a context, and the registers at `ks` changed. -/
def State.Reported (s t : State) (ctx : Nat) (ks : List Nat) : Prop :=
  t = { s with regs := t.regs, ring := t.ring, unsent := t.unsent, lostSince := t.lostSince, tx := t.tx } ∧
    s.RegsBut t (ks ++ reportKeys ctx)

/-- The counters that a store may move where it does not land: STK_UNCORR of an offline stack (R337) and CORE_WINDROP of a core that
runs (R26). -/
def storeKeys : List Nat := (List.range 12).map (stkK · 0x28) ++ (List.range 96).map (coreK · 0x28)

/-- PWR_GATE of both dies: an access through the window of a gated cluster wakes it (R429). -/
def gateKeys : List Nat := [dieK 0 0x360030, dieK 1 0x360030]

/-- Every cluster is at RUN, so that no access has to wait for one to wake (R429). -/
def State.Awake (s : State) : Prop := ∀ g : Fin 16, s.gate g = 0

/-- Reading the ranges `rs` of a context's tables wakes no cluster and meets no slot that is unbound or reserved (R23, R27, R429). -/
def State.TablesOpen (s : State) (ctx : Nat) (rs : List (Nat × Nat)) : Prop :=
  s.Awake ∧ s.badPlace ctx (rs.map fun r => unitsOf r.1 r.2).flatten = none

/-- The unit of the words 8 to 15 of a group's entry takes writes, at `pa` (R186). -/
def State.GroupTakes (s : State) (ctx i pa : Nat) : Prop :=
  s.localPlace ctx (s.groupAddr ctx i + 64) = .mem pa ∧ s.deadAt pa = none ∧ s.shutCore none pa = none

/-- No other group of the list `gs` has its words 8 to 15 in a unit of the entry of group `i`, which stands at `pa` and in the unit below. -/
def State.GroupAlone (s : State) (ctx i pa : Nat) (gs : List Nat) : Prop :=
  ∀ j ∈ gs, j ≠ i → s.localPlace ctx (s.groupAddr ctx j + 64) ≠ .mem pa ∧ s.localPlace ctx (s.groupAddr ctx j + 64) ≠ .mem (pa - 64)

/-- An element write of a UPD lies in the UPD's range of the half at `base`, or in its working copy (R188, R189). -/
def InRange (g : Group) (d : UpdDesc) (base : Nat) (x : ElemWr) : Prop :=
  (base + 4 * d.off ≤ x.addr ∧ x.addr < base + 4 * (d.off + d.count)) ∨
  (base + g.offM + g.mb * d.off ≤ x.addr ∧ x.addr < base + g.offM + g.mb * (d.off + d.count)) ∨
  (base + g.offV + g.mb * d.off ≤ x.addr ∧ x.addr < base + g.offV + g.mb * (d.off + d.count)) ∨
  (g.rule = 5 ∧ base + g.offP ≤ x.addr) ∨
  (d.wcen = true ∧ d.wcopy ≤ x.addr ∧ x.addr < d.wcopy + wcBytes g * d.count)

/-- The 64-byte unit of a queue pair's entry (R350). -/
def State.qpEntry (s : State) (n : Nat) : List Nat :=
  match s.qpPlace n 0 with | .mem pa => unitsOf pa 64 | _ => []

/-- No queue pair has anything to send. -/
def State.NoneQueued (s : State) : Prop := ∀ p ∈ s.qps, p.2.backlog = 0

/-- `s` with a received packet counted (R346, R374). -/
def State.atPort (s : State) (qy : Nat) (p : Packet) : State := (s.count (quayK qy 0x170) p.fec).count (quayK qy 0x140) 1

/-- A packet that arrives at a quay is served at once (R347, R366, R429), and its queue pair takes it (R372). -/
def State.TakesPacket (s : State) (qy : Nat) (p : Packet) : Prop :=
  s.linkUp qy = true ∧ s.Awake ∧ ((s.atPort qy p).rxOf qy ((s.atPort qy p).rxClassOf qy p)).waiting = [] ∧ (s.atPort qy p).qpTakes p = true

/-- Nothing holds back what a queue pair sends (R368). -/
def State.SendsAtOnce (s : State) (n : Nat) : Prop := s.canSend n = true ∧ (s.qp n).waiting = []

/-- The entry in flight with an id has done its work, with further events. -/
def QState.worked (x : QState) (id : Nat) (events : List W16) : QState :=
  { x with inflight := x.inflight.map fun f => if f.id = id then { f with work := .done, events := f.events ++ events } else f }

/-- A queue of a mode that START acts on, and one that STOP acts on (R237). -/
def QState.startable (x : QState) : Prop := x.mode = .ready ∨ x.mode = .stopped ∨ x.mode = .held ∨ x.mode = .faulted
def QState.stoppable (x : QState) : Prop := x.mode = .running ∨ x.mode = .waiting ∨ x.mode = .held

end Sys2Proof.Machine
end

