-- ==== Sys2Proof/Certificates/Slice0/Obligations.lean ====
section
/-! DEFINITION. The statements for the provers. -/

open Sys2Proof Sys2Proof.Machine

/-! Steps, reset, encoding, memory -/

/-- A step takes the command at the front of the queue and answers what exec answers on the rest; with none pending it answers the
machine one count of the 500 MHz clock later, whose timestamps are one more once the reference has started (DESIGN CHOICE, log 1). -/
def Obligations.StepRunsFront : Prop :=
  (∀ (i : Instr) (rest : List Instr) (s : State), step { s with pending := i :: rest } = exec i { s with pending := rest }) ∧
  (∀ s : State, s.pending = [] → s.refStarted = true → ∃ t, step s = .next t ∧ t.time = s.time + 1 ∧ t.time1 = s.time1 + 1 ∧ t.mem = s.mem ∧
    t.bufs = s.bufs ∧ s.ScalarsKept t ∧ s.SemsBut t [] ∧ t.pending = [] ∧
    ∀ c q, (t.queue c q).mode = (s.queue c q).mode ∧ (t.queue c q).pc = (s.queue c q).pc) ∧
  ∀ s : State, s.pending = [] → s.refStarted = false → step s = .next { s with cycle := none }

/-- What reset leaves: boot stage REFWAIT, every queue IDLE with an empty loop stack and nothing in flight, empty report ring, no
re-bind, no management key, no received packet waiting, and the registers whose reset values the register tables give; memory is in
canonical form and reads 0 everywhere (DESIGN CHOICE, log 2). -/
def Obligations.ResetValues : Prop :=
  State.reset.MemOk ∧ (∀ a, memByte State.reset.mem a = 0) ∧ State.reset.refStarted = false ∧ State.reset.released = false ∧
  State.reset.boot = .refWait ∧ (∀ c q, State.reset.queue c q = {}) ∧ State.reset.ring = [] ∧ State.reset.rebind = none ∧
  State.reset.mgmt.key = none ∧ State.reset.pending = [] ∧ (∀ qy cls, State.reset.rxOf qy cls = {}) ∧
  State.reset.reg (cfgK 0) = 0xFFFE00FE ∧ State.reset.reg (mgtK 0) = 0x8000000012BA12B9 ∧
  (∀ qy : Fin 8, State.reset.reg (quayK qy 0x48) = 0x0000006400000064 ∧ State.reset.reg (quayK qy 0x40) = 0x8037320003E80FA0 ∧
    State.reset.reg (quayK qy 0x30) = 0x0064000000000000 ∧ State.reset.reg (quayK qy 0) = 0) ∧
  (∀ (c : Fin 96) (q : Queue) (i : Fin 16), State.reset.sreg c q i = 0)

/-- The 128 bits that encode an instruction decode to its operation and frame, and no other bits do; what decodes is one of the
opcodes of the map. -/
def Obligations.DecodeOfEncode : Prop :=
  (∀ (o : Op) (w : InstrWord), decode (encode o w) = some (o, w)) ∧
  (∀ (b : BitVec 128) (o : Op) (w : InstrWord), decode b = some (o, w) → encode o w = b) ∧
  ∀ b : BitVec 128, decode b = none ↔ ∀ o, opCode o ≠ opField b

/-- Every step keeps the memories in canonical form. -/
def Obligations.StepKeepsMemOk : Prop := ∀ s t : State, s.MemOk → step s = .next t → t.MemOk

/-- Two memories in canonical form that read alike everywhere are the same data; a write stores its bytes and no others. -/
def Obligations.MemoryCanonical : Prop :=
  (∀ m n : List Host.Cell, Memory.wf m = true → Memory.wf n = true → (∀ a, memByte m a = memByte n a) → m = n) ∧
  (∀ (m : List Host.Cell) (a : Nat) (bs : List Byte) (i : Nat) (h : i < bs.length), memByte (memWrite m a bs) (a + i) = bs[i]) ∧
  ∀ (m : List Host.Cell) (a : Nat) (bs : List Byte) (x : Nat), x < a ∨ a + bs.length ≤ x → memByte (memWrite m a bs) x = memByte m x

/-- No step lowers a fuse: the security version and the count of used signing windows only rise, and identity, device number and
revocations stay; the security version stays within its 64 fuses. -/
def Obligations.StepKeepsFuses : Prop :=
  ∀ s t : State, s.fuses.svn ≤ 64 → step s = .next t → s.FusesRise t ∧ t.fuses.svn ≤ 64

/-! Queues: the head, its wait, its refusal, its completion -/

/-- A command that puts an instruction before a queue does nothing unless it is the head that the queue considers (DESIGN CHOICE, log 16)
and the core has a clock; an unmet wait makes the queue WAITING with cause 001; a refusal by R246's checks, in their order class, fields,
chamber offsets, identifiers, with nothing in flight, makes it FAULTED at the refused instruction with the code in CORE_Q_FAULT, and nothing
issues. -/
def Obligations.HeadsThatDoNotIssue : Prop :=

  (∀ (o : Op) (c : Fin 96) (q : Queue) (w : InstrWord) (f : ResidueFinding) (d : List ShadowDiff) (s : State),
    (s.queue c q).headIs o w = false ∨ s.coreHung c = true → exec (headCommand o c q w f d) s = .next s) ∧
  (∀ (o : Op) (c : Fin 96) (q : Queue) (w : InstrWord) (f : ResidueFinding) (d : List ShadowDiff) (s : State),
    (s.queue c q).headIs o w = true → s.coreHung c = false → (s.queue c q).lineWait = none → s.waitMet c q w = false →
    ∃ t, exec (headCommand o c q w f d) s = .next t ∧
      t.queue c q = { s.queue c q with mode := .waiting, wcause := .sem } ∧ s.OnlyQueue t c q []) ∧
  (∀ (o : Op) (c : Fin 96) (q : Queue) (w : InstrWord) (f : ResidueFinding) (d : List ShadowDiff) (s : State) (e : W16),
    (s.queue c q).headIs o w = true → s.coreHung c = false → (s.queue c q).lineWait = none → s.waitMet c q w = true →
    s.frameCheck c q o w = some e → (s.queue c q).inflight = [] →
    ∃ t, exec (headCommand o c q w f d) s = .next t ∧
      t.queue c q = { s.queue c q with mode := .faulted, wcause := .none, fetched := none, refusal := none, lineWait := none } ∧
      t.reg (qK c q 8) = (if s.regBit (qK c q 8) 63 then s.reg (qK c q 8) else faultWord false e w.optag (s.queue c q).pc) ∧
      t.mem = s.mem ∧ t.tags = s.tags ∧ t.ids = s.ids ∧ t.sigs = s.sigs) ∧
  (∀ (c : Nat) (q : Queue) (o : Op) (w : InstrWord) (s : State),
    (w.qclass ≠ opClass o ∨ opAllows o q = false → s.frameCheck c q o w = some Code.QCLASS_MISMATCH) ∧
    (w.qclass = opClass o → opAllows o q = true → fieldsOk o w = false → s.frameCheck c q o w = some Code.INSTR_RESERVED) ∧
    (w.qclass = opClass o → opAllows o q = true → fieldsOk o w = true → s.chamOk c q o w = false →
      s.frameCheck c q o w = some Code.ADDR_INVALID) ∧
    (w.qclass = opClass o → opAllows o q = true → fieldsOk o w = true → s.chamOk c q o w = true →
      (0xE ≤ w.wcond.toNat → s.frameCheck c q o w = some Code.SYNC_ID_INVALID) ∧
      (w.wcond = 0 → w.sinc = 0 → s.frameCheck c q o w = none)))

/-! General instructions (R250 to R258) -/

/-- NOP and END issue with no effect but their wait, their signal and, for END, the HALTED that its completion brings; the wait of an
instruction that issues takes from its semaphore what its condition code says. -/
def Obligations.IssuingTakesTheWait : Prop :=

  (∀ (c : Fin 96) (q : Queue) (w : InstrWord) (s : State),
    (s.ready c q .nop w → ∃ t, exec (.nop c q w) s = .next t ∧ s.IssuedTo t c q w (s.headEntry c q .nop w) [] ∧ s.CoreOnly t) ∧
    (s.ready c q .end_ w → ∃ t, exec (.end_ c q w) s = .next t ∧ s.IssuedTo t c q w (s.headEntry c q .end_ w) [] ∧ s.CoreOnly t)) ∧
  (∀ (c : Fin 96) (q : Queue) (w : InstrWord) (s : State) (k : Nat),
    s.ready c q .nop w → s.waitHome c w = some k →
    ∃ t, exec (.nop c q w) s = .next t ∧
      (1 ≤ w.wcond.toNat → w.wcond.toNat ≤ 8 → w.wcond.toNat ≤ s.sem k ∧ t.sem k = s.sem k - w.wcond.toNat) ∧
      (w.wcond = 0x9 → s.sem k ≠ 0 ∧ t.sem k = s.sem k) ∧
      (w.wcond = 0xA → s.sem k = 0 ∧ t.sem k = 0) ∧
      (w.wcond = 0xB → s.s13 c q ≤ s.sem k ∧ t.sem k = s.sem k) ∧
      (w.wcond = 0xC → s.s13 c q ≤ s.sem k ∧ t.sem k = s.sem k - s.s13 c q) ∧
      (w.wcond = 0xD → s.sem k = s.s13 c q ∧ t.sem k = s.sem k))

/-- LOOP: refused when its range is wrong or its fifth level would open; a count of zero skips the body; otherwise an entry is
pushed. No register but the semaphore waited on changes. -/
def Obligations.LoopSteps : Prop :=  ∀ (c : Fin 96) (q : Queue) (w : InstrWord) (s : State), s.ready c q .loop w →
    let x := s.queue c q
    let e : BitVec 14 := BitVec.ofNat 14 (opnd w 63 50)
    let n : BitVec 32 := if w.f0 then BitVec.ofNat 32 (s.sreg c q (opnd w 3 0)).toNat else BitVec.ofNat 32 (opnd w 15 0)
    let bad := e.toNat < x.pc.toNat + 1 ∨ 12287 < e.toNat ∨ ∃ l r, x.loops = l :: r ∧ l.end_.toNat < e.toNat
    (bad → x.inflight = [] → ∃ t, exec (.loop c q w) s = .next t ∧ (t.queue c q).mode = .faulted ∧ (t.queue c q).pc = x.pc) ∧
    (¬bad → n = 0 → ∃ t, exec (.loop c q w) s = .next t ∧ s.CoreOnly t ∧ s.QueuesBut t c q ∧ s.RegsBut t (s.waitKeys c w) ∧
      t.queue c q = x.afterIssue (s.headEntry c q .loop w) (advance e x.loops).1 (advance e x.loops).2) ∧
    (¬bad → n ≠ 0 → x.loops.length = 4 → x.inflight = [] → ∃ t, exec (.loop c q w) s = .next t ∧ (t.queue c q).mode = .faulted) ∧
    (¬bad → n ≠ 0 → x.loops.length ≠ 4 → ∃ t, exec (.loop c q w) s = .next t ∧ s.CoreOnly t ∧ s.QueuesBut t c q ∧
      s.RegsBut t (s.waitKeys c w) ∧
      t.queue c q = x.afterIssue (s.headEntry c q .loop w) (x.pc + 1) ({ start := x.pc + 1, end_ := e, left := n } :: x.loops))

/-- The scalar instructions and SEED: each writes its result, and nothing but its destination and the semaphore waited on changes
among the registers. -/
def Obligations.ScalarResults : Prop :=  ∀ (c : Fin 96) (q : Queue) (w : InstrWord) (s : State),
    let d := opnd w 63 60
    let a := s.sreg c q (opnd w 59 56)
    let b := if w.f0 then (BitVec.ofNat 48 (opnd w 47 0)).signExtend 64 else s.sreg c q (opnd w 55 52)
    let gives : Op → W64 → State → Prop := fun o v t =>
      t.sreg c q d = v ∧ s.IssuedTo t c q w (s.headEntry c q o w) [qK c q (0x80 + 8 * d)] ∧ s.CoreOnly t
    (s.ready c q .smov w → ∃ t, exec (.smov c q w) s = .next t ∧ gives .smov b t) ∧
    (s.ready c q .smovh w → ∃ t, exec (.smovh c q w) s = .next t ∧
      gives .smovh ((s.sreg c q d &&& 0x0000FFFFFFFFFFFF) ||| (BitVec.ofNat 64 (opnd w 15 0) <<< 48)) t) ∧
    (s.ready c q .sadd w → ∃ t, exec (.sadd c q w) s = .next t ∧ gives .sadd (a + b) t) ∧
    (s.ready c q .ssub w → ∃ t, exec (.ssub c q w) s = .next t ∧ gives .ssub (a - b) t) ∧
    (s.ready c q .smul w → ∃ t, exec (.smul c q w) s = .next t ∧ gives .smul (a * b) t) ∧
    (s.ready c q .sand w → ∃ t, exec (.sand c q w) s = .next t ∧ gives .sand (a &&& b) t) ∧
    (s.ready c q .sor w → ∃ t, exec (.sor c q w) s = .next t ∧ gives .sor (a ||| b) t) ∧
    (s.ready c q .sxor w → ∃ t, exec (.sxor c q w) s = .next t ∧ gives .sxor (a ^^^ b) t) ∧
    (s.ready c q .sshl w → ∃ t, exec (.sshl c q w) s = .next t ∧ gives .sshl (a <<< (b &&& 63).toNat) t) ∧
    (s.ready c q .sshr w → ∃ t, exec (.sshr c q w) s = .next t ∧ gives .sshr (a >>> (b &&& 63).toNat) t) ∧
    (s.ready c q .seed w → ∃ t, exec (.seed c q w) s = .next t ∧
      t.reg (coreK c (0x800 + 8 * qnum q)) = (if w.f0 then s.sreg c q (opnd w 3 0) else w.ops) ∧
      s.IssuedTo t c q w (s.headEntry c q .seed w) [coreK c (0x800 + 8 * qnum q)] ∧ s.CoreOnly t)

/-- SLD, SST and DADD on a core that answers: SLD delivers the 8 bytes at its completion, 0 with a detected error from a bad unit, and
stores nothing; SST and DADD store 8 bytes and no others, DADD only where the descriptor's unit is good. -/
def Obligations.ChamberWords : Prop :=  ∀ (c : Fin 96) (q : Queue) (w : InstrWord) (s : State), s.coreUp c = true →
    let o := (BitVec.ofNat 64 (opnd w 21 0) + (if w.f3 then s.sreg c q 15 else 0)).toNat
    let k := s.regFld (coreK c 0xC00) 14 8 * 0x4000 + 64 * opnd w 7 0
    let v := s.sreg c q (opnd w 63 60)
    (s.ready c q .sld w → (s.readBytes (chamPa c o) 8).tag = .good → ∃ t, exec (.sld c q w) s = .next t ∧ s.CoreOnly t ∧
      s.IssuedTo t c q w { s.headEntry c q .sld w with
        post := some (opnd w 63 60, BitVec.ofNat 64 (leNat (memRead s.mem (chamPa c o) 8))) } []) ∧
    (s.ready c q .sld w → (s.readBytes (chamPa c o) 8).tag ≠ .good → ∃ t f, exec (.sld c q w) s = .next t ∧ t.mem = s.mem ∧
      (t.queue c q).inflight = (s.queue c q).inflight ++ [f] ∧ f.post = some (opnd w 63 60, 0) ∧ f.error.isSome = true) ∧
    (s.ready c q .sst w → ∃ t, exec (.sst c q w) s = .next t ∧ memRead t.mem (chamPa c o) 8 = leBytes 8 v.toNat ∧
      s.BytesBut t (chamPa c o) 8 ∧ s.IssuedTo t c q w (s.headEntry c q .sst w) []) ∧
    (s.ready c q .dadd w → (s.readBytes (chamPa c k) 8).tag = .good → ∃ t, exec (.dadd c q w) s = .next t ∧
      memRead t.mem (chamPa c k) 8 = leBytes 8 (BitVec.ofNat 64 (leNat (memRead s.mem (chamPa c k) 8)) + v).toNat ∧
      s.BytesBut t (chamPa c k) 8 ∧ s.IssuedTo t c q w (s.headEntry c q .dadd w) []) ∧
    (s.ready c q .dadd w → (s.readBytes (chamPa c k) 8).tag ≠ .good → ∃ t f, exec (.dadd c q w) s = .next t ∧ t.mem = s.mem ∧
      (t.queue c q).inflight = (s.queue c q).inflight ++ [f] ∧ f.error.isSome = true)

/-! Synchronisation and mailboxes (R256 to R258, R293 to R320) -/

/-- SEMSET and a control-space write set a semaphore and its view; a signal adds its increment modulo 2^32, and a sum that wraps sets
the WRAP bit. Nothing else changes but what issuing and the leaving of the signal change. -/
def Obligations.SemaphoreSetsAndSignals : Prop :=
  (∀ (c : Fin 96) (q : Queue) (w : InstrWord) (s : State) (k : Nat), s.ready c q .semset w →
    s.semHome c (BitVec.ofNat 12 (opnd w 43 32)) false = .home k →
    ∃ t, exec (.semset c q w) s = .next t ∧
      t.sem k = (if w.f0 then fld (s.sreg c q (opnd w 63 60)) 0 32 else opnd w 31 0) ∧
      t.regFld (semView k) 19 7 = c ∧ t.regFld (semView k) 16 3 = qnum q ∧ t.regFld (semView k) 0 14 = (s.queue c q).pc.toNat ∧
      s.IssuedTo t c q w (s.headEntry c q .semset w) [k, semView k] ∧ s.CoreOnly t) ∧
  (∀ (ctx : Fin 16) (addr v : W64) (s : State) (b : Blk) (o : Nat), s.access ctx addr 8 = .at_ b o → isSem b o = true →
    ∃ t, exec (.semValueWrite ctx addr v) s = .next t ∧ t.sem (b.key o) = fld v 0 32 ∧
      t.regFld (semView (b.key o)) 19 7 = 0x7E ∧ s.OnlyRegs t [b.key o, semView (b.key o)]) ∧
  (∀ (src : SigSrc) (s : State) (x : Sig), s.sigs.find? (fun y => y.src == src) = some x → isSemKey x.home →
    (∀ h, homeCore x.home = some h → s.coreUp h = true) →
    ∃ t, exec (.signal src) s = .next t ∧ t.sigs = s.sigs.erase x ∧ t.sem x.home = (s.sem x.home + x.inc) % 2 ^ 32 ∧
      (2 ^ 32 ≤ s.sem x.home + x.inc → t.regBit (semView x.home) 63 = true) ∧
      (s.sem x.home + x.inc < 2 ^ 32 → s.RegsBut t [x.home, semView x.home]) ∧ t.mem = s.mem ∧ t.queues = s.queues)

/-- XARR: a core that is no member only raises XR_NOT_MEMBER; a member's arrive bit is set; the last arrival clears every arrive bit and
raises GEN; with WAIT the head stays until the release. Masks: context 0 writes either half whole; in every context each bit of the half
names a virtual core of the context and lands at its global core's place, a bit that names none is ignored, and every other bit is kept;
a line that becomes complete releases; a write of an unbound line is logged. A forced release counts; in contexts 1 to 15 XRD_FORCE leaves
every line as it is and is logged. -/
def Obligations.CrossroadsLines : Prop :=  (∀ (c : Fin 96) (q : Queue) (w : InstrWord) (s : State) (l : Nat), s.ready c q .xarr w →
  (s.queue c q).lineWait = none →
    opnd w 7 0 < 32 → s.lineOf (s.ctxOf c) (opnd w 7 0) = some l →
    ((s.lineMask l).testBit c = false → ∃ t, exec (.xarr c q w) s = .next t ∧ s.CoreOnly t ∧
      s.IssuedTo t c q w { s.headEntry c q .xarr w with events := [Code.XR_NOT_MEMBER] } []) ∧
    ((s.lineMask l).testBit c = true → (s.arrive c l).lineComplete l = true → ∃ t, exec (.xarr c q w) s = .next t ∧
      t.lineArr l = 0 ∧ t.regFld (xrdK l 0x10) 32 32 = (s.regFld (xrdK l 0x10) 32 32 + 1) % 2 ^ 32 ∧ t.mem = s.mem) ∧
    ((s.lineMask l).testBit c = true → (s.arrive c l).lineComplete l = false → w.f0 = false → ∃ t, exec (.xarr c q w) s = .next t ∧
      (t.lineArr l).testBit c = true ∧ s.CoreOnly t ∧
      s.IssuedTo t c q w (s.headEntry c q .xarr w) [xrdK l 0x10, xrdK l 0x18, xrdK l 0x20]) ∧
    ((s.lineMask l).testBit c = true → (s.arrive c l).lineComplete l = false → w.f0 = true → ∃ t, exec (.xarr c q w) s = .next t ∧
      (t.lineArr l).testBit c = true ∧ s.OnlyQueue t c q ([xrdK l 0x10, xrdK l 0x18, xrdK l 0x20] ++ s.waitKeys c w) ∧
      t.queue c q = { s.queue c q with mode := .waiting, wcause := .line, lineWait := some l })) ∧
  ((∀ (l : Fin 32) (hi : Bool) (v : W64) (s : State),
    let t' := s.writeMask 0 l hi v
    let k := xrdK l (if hi then 8 else 0)
    let n := if hi then 32 else 64
    (t'.lineComplete l = false → ∃ t, exec (.xrdMaskWrite 0 l hi v) s = .next t ∧ fld (t.reg k) 0 n = fld v 0 n ∧ s.OnlyRegs t [k]) ∧
    (t'.lineComplete l = true → ∃ t, exec (.xrdMaskWrite 0 l hi v) s = .next t ∧ fld (t.reg k) 0 n = fld v 0 n ∧
      t.lineArr l = 0 ∧ t.regFld (xrdK l 0x10) 32 32 = (s.regFld (xrdK l 0x10) 32 32 + 1) % 2 ^ 32)) ∧
  (∀ (ctx : Fin 16) (l : Fin 32) (hi : Bool) (v : W64) (s : State),
    let n := if hi then 32 else 64
    let at_ := fun i : Nat => s.coreOf ctx ((if hi then 64 else 0) + i)
    (s.lineOf ctx l = none → ∃ t, exec (.xrdMaskWrite ctx l hi v) s = .next t ∧ s.Reported t ctx []) ∧
    ∀ p, s.lineOf ctx l = some p → ∃ t, exec (.xrdMaskWrite ctx l hi v) s = .next t ∧
      (∀ c : Fin 96, (∀ i < n, at_ i ≠ some c.val) → (t.lineMask p).testBit c = (s.lineMask p).testBit c) ∧
      (∀ (c : Fin 96) (i : Nat), i < n → at_ i = some c.val → (∀ j < n, at_ j = some c.val → j = i) →
        (t.lineMask p).testBit c = bitAt v i) ∧
      ((s.writeMask ctx p hi v).lineComplete p = false → s.OnlyRegs t [xrdK p 0, xrdK p 8]) ∧
      ((s.writeMask ctx p hi v).lineComplete p = true → t.lineArr p = 0 ∧ t.mem = s.mem ∧
        t.regFld (xrdK p 0x10) 32 32 = (s.regFld (xrdK p 0x10) 32 32 + 1) % 2 ^ 32)) ∧
  (∀ (l : Fin 32) (s : State), ∃ t, exec (.xrdForce 0 l) s = .next t ∧ t.lineArr l = 0 ∧
      t.regFld (xrdK l 0x10) 32 32 = (s.regFld (xrdK l 0x10) 32 32 + 1) % 2 ^ 32 ∧
      t.regFld (xrdK l 0x10) 8 8 = min (s.regFld (xrdK l 0x10) 8 8 + 1) 255 ∧ t.mem = s.mem) ∧
  ∀ (ctx : Fin 16) (l : Fin 32) (s : State), ctx.val ≠ 0 → ∃ t, exec (.xrdForce ctx l) s = .next t ∧ s.Reported t ctx [])

/-- MBSEND into an empty channel delivers its message, sets the full flag and rings its doorbell bit; into a full one it is held, and
MB_DELIVERY, once the channel is empty and still its sender's (DEDUCED, log 78), or MB_TIMEOUT ends it; MBRECV moves the message into the
chamber and empties the channel. A write of a channel's configuration stores it, KIND 11 as 00, and empties the channel; a write of the
doorbell mask stores it, and each set bit that it unmasks makes one signal when the doorbell's signal is enabled. -/
def Obligations.Mailboxes : Prop :=

  ((∀ (c : Fin 96) (q : Queue) (w : InstrWord) (s : State) (g : Nat),
    let ch := opnd w 53 48
    let len := opnd w 38 32
    let r := s.readBytes (chamPa c (s.offs c q w (opnd w 21 6 * 64))) len
    let msg := unitOf (r.data ++ zeros (64 - len))
    s.ready c q .mbsend w → opnd w 59 54 = 0 → s.cluOf (s.ctxOf c) (opnd w 63 60) = some g → s.cluUp g = true →
    s.mbMine c g ch = true → r.tag = .good →
    (len = 0 → ∃ t, exec (.mbsend c q w) s = .next t ∧ t.regBit (cluK g 0x4400) (opnd w 28 24) = true ∧ t.msgs = s.msgs ∧
      s.IssuedTo t c q w (s.headEntry c q .mbsend w) [cluK g 0x4400]) ∧
    (len ≠ 0 → s.mbFull g ch = false → ∃ t, exec (.mbsend c q w) s = .next t ∧ t.mbFull g ch = true ∧ t.msg g ch = (msg, false) ∧
      t.regFld (cluK g (0x4200 + 8 * ch)) 56 7 = len ∧ t.regBit (cluK g 0x4400) (opnd w 28 24) = true ∧ t.mem = s.mem ∧
      s.IssuedTo t c q w (s.headEntry c q .mbsend w) [cluK g 0x4400, cluK g (0x4200 + 8 * ch)]) ∧
    (len ≠ 0 → s.mbFull g ch = true → ∃ t, exec (.mbsend c q w) s = .next t ∧ s.CoreOnly t ∧
      s.IssuedTo t c q w { s.headEntry c q .mbsend w with work := .mbsend g ch (opnd w 28 24) len msg } [])) ∧
  (∀ (c : Fin 96) (q : Queue) (s : State) (f : InFlight) (g ch dbit len : Nat) (msg : UnitData), ch < 64 → dbit < 32 →
    heldMessage (s.queue c q) = some (f, g, ch, dbit, len, msg) →
    (s.cluUp g = true → s.mbFull g ch = true ∨ s.mbMine c g ch = false → exec (.mbDelivery c q) s = .next s) ∧
    (s.cluUp g = true → s.mbFull g ch = false → s.mbMine c g ch = true → ∃ t, exec (.mbDelivery c q) s = .next t ∧ t.mbFull g ch = true ∧
      t.msg g ch = (msg, false) ∧ t.regBit (cluK g 0x4400) dbit = true ∧ t.mem = s.mem ∧
      t.queue c q = (s.queue c q).worked f.id [] ∧ s.QueuesBut t c q) ∧
    (s.regFld (coreK c 0x1400) 0 32 ≠ 0 → ∃ t, exec (.mbTimeout c q) s = .next t ∧ t.msgs = s.msgs ∧ t.mem = s.mem ∧
      t.regBit (coreK c 0x1408) (qnum q) = true ∧ s.RegsBut t [coreK c 0x1408] ∧
      t.queue c q = (s.queue c q).worked f.id [Code.MB_TIMEOUT] ∧ s.QueuesBut t c q)) ∧
  (∀ (c : Fin 96) (q : Queue) (w : InstrWord) (s : State),
    let g := c.val / 6
    let ch := opnd w 53 48
    let a := chamPa c (s.offs c q w (opnd w 21 6 * 64))
    s.ready c q .mbrecv w → opnd w 59 54 = 0 → s.vcluOf (s.ctxOf c) g = some (opnd w 63 60) → s.coreUp c = true →
    s.mbFull g ch = true → s.olderRecv c q w = false →
    ∃ t, exec (.mbrecv c q w) s = .next t ∧ memRead t.mem a 64 = unitBytes (s.msg g ch).1 ∧ s.BytesBut t a 64 ∧
      t.mbFull g ch = false ∧ s.IssuedTo t c q w (s.headEntry c q .mbrecv w) [cluK g (0x4200 + 8 * ch)])) ∧
  (∀ (ctx vg : Fin 16) (s : State) (g : Nat), s.cluOf ctx vg = some g → s.cluUp g = true →
    (∀ (ch : Fin 64) (v : W64), ∃ t, exec (.mbCfgWrite ctx vg ch v) s = .next t ∧
      t.regFld (cluK g (0x4000 + 8 * ch)) 62 2 = (if fld v 62 2 = 3 then 0 else fld v 62 2) ∧
      t.regFld (cluK g (0x4000 + 8 * ch)) 16 14 = fld v 16 14 ∧ t.regFld (cluK g (0x4000 + 8 * ch)) 0 7 = fld v 0 7 ∧
      t.mbFull g ch = false ∧ t.msg g ch = (0, false) ∧ s.RegsBut t [cluK g (0x4000 + 8 * ch), cluK g (0x4200 + 8 * ch)] ∧
      t.mem = s.mem ∧ t.queues = s.queues) ∧
    ∀ v : W64, ∃ t, exec (.dbmaskWrite ctx vg v) s = .next t ∧ t.reg (cluK g 0x4408) = BitVec.ofNat 64 (fld v 0 32) ∧
      s.RegsBut t [cluK g 0x4408] ∧ t.mem = s.mem ∧ t.queues = s.queues ∧
      t.sigs.length = s.sigs.length + (if s.regBit (cluK g 0x4410) 63 then
        ((List.range 32).filter fun b => s.regBit (cluK g 0x4400) b && s.regBit (cluK g 0x4408) b && !bitAt v b).length else 0))

/-! Matrix engines, vector engine, movers (R83 to R134, R158 to R166, R204 to R224, R259 to R266, R272 to R292) -/

/-- MMA and its completion: an MMA that no check refuses and that the scheduler gives an engine is in flight for the cycles of its rung,
its buffer is OPEN with its reduction length counted, no other buffer and no byte of memory changes; on a null buffer it takes no engine.
Clusters that its readings would wake are another statement's matter (ClustersGateAndWake); how long an MMA has run is free (log 18). -/
def Obligations.MatrixAccumulates : Prop :=
  (∀ (c : Fin 96) (q : Queue) (w : InstrWord) (s : State), s.ready c q .mma w →
    let u := s.takeWait c q w
    let i := bufOf q w
    let x := s.queue c q
    s.mmaCheck c q w = none → s.Awake →
    (∀ (e k : Bool) (o : Option Bool), u.pick c q w = .take (some e) k o → ∃ t f, exec (.mma c q w) s = .next t ∧
      (t.queue c q).inflight = x.inflight ++ [f] ∧ f.op = .mma ∧ f.pc = x.pc ∧
      f.work = .mma i e ((if (u.hdrAt c (u.tileA c q w)).rung = 3 then 16
        else if (u.hdrAt c (u.tileA c q w)).rung = 2 then 4 else 1) * klen w) ∧
      (t.queue c q).pc = (advance x.pc x.loops).1 ∧
      (t.buf c i).mode = .open_ ∧ (t.buf c i).used = (if w.f0 then (s.buf c i).used else 0) + klen w ∧
      (w.f0 = false → (t.buf c i).rows = (u.hdrAt c (u.tileA c q w)).lines ∧ (t.buf c i).cols = (u.hdrAt c (u.tileB c q w)).lines) ∧
      (∀ j, j ≠ i → t.buf c j = s.buf c j) ∧ t.mem = s.mem ∧ t.tags = s.tags ∧ s.ScalarsKept t ∧ s.SemsBut t (s.waitKeys c w)) ∧
    (∀ (k : Bool) (o : Option Bool), u.pick c q w = .take none k o → ∃ t f, exec (.mma c q w) s = .next t ∧
      (t.queue c q).inflight = x.inflight ++ [f] ∧ f.op = .mma ∧ f.work = .null i ∧
      (w.f0 = false → (t.buf c i).null = true ∧ (t.buf c i).mode = .open_) ∧
      (∀ j, j ≠ i → t.buf c j = s.buf c j) ∧ t.mem = s.mem ∧ s.ScalarsKept t ∧ s.SemsBut t (s.waitKeys c w))) ∧
  ∀ (c : Fin 96) (q : Queue) (s : State) (f : InFlight), (s.queue c q).oldest Work.isMma = some f →
    (s.coreHung c = true → exec (.mmaComplete c q) s = .next s) ∧
    (s.coreHung c = false → ∃ t, exec (.mmaComplete c q) s = .next t ∧ s.OnlyQueue t c q [] ∧
      t.queue c q = (s.queue c q).worked f.id [])

/-- MDRN and its completion while the core has a clock and no cluster is gated: a drain that no check refuses stores its rows, padded to
whole units, from its chamber offset and nowhere else, and its buffer is DRAINING; at the completion the buffer is FREE. A null buffer
stores nothing. -/
def Obligations.MatrixDrains : Prop :=
  (∀ (c : Fin 96) (q : Queue) (w : InstrWord) (found : ResidueFinding) (s : State), s.ready c q .mdrn w →
    let u := s.takeWait c q w
    let i := bufOf q w
    let b := s.buf c i
    let x := s.queue c q
    let dst := u.offs c q w (opnd w 15 0 * 64)
    let bytes := ((fmtOf (opnd w 63 60)).getD .fp32).bits / 8
    x.mmaRuns i = false → s.mdrnCheck c q w = none → b.null = true ∨ s.underTest (engineUnit c b.engine) = false →
      ∃ t f, exec (.mdrn c q w found) s = .next t ∧
      (t.queue c q).inflight = x.inflight ++ [f] ∧ f.op = .mdrn ∧ f.pc = x.pc ∧ f.work = .mdrn i ∧
      (t.queue c q).pc = (advance x.pc x.loops).1 ∧ (t.buf c i).mode = .draining ∧ (∀ j, j ≠ i → t.buf c j = s.buf c j) ∧
      (b.null = true → t.mem = s.mem) ∧
      s.ScalarsKept t ∧ s.SemsBut t (s.waitKeys c w) ∧
      s.BytesBut t (chamPa c dst) ((b.cells.length + b.cols - 1) / b.cols * alignUp (b.cols * bytes) 64)) ∧
  ∀ (c : Fin 96) (q : Queue) (s : State) (f : InFlight) (i : Nat), (s.queue c q).oldest Work.isMdrn = some f →
    f.work = .mdrn i → s.coreHung c = false → s.Awake → ∃ t, exec (.mdrnComplete c q) s = .next t ∧ t.buf c i = {} ∧
      (∀ j, j ≠ i → t.buf c j = s.buf c j) ∧
      (s.regBit (pipeK (s.ctxOf c) 0) 0 = false → t.mem = s.mem ∧ t.regs = s.regs) ∧
      (∀ pa, s.localPlace (s.ctxOf c) (tableAddr (s.reg (pipeK (s.ctxOf c) 0)) + 32 * (s.buf c i).slot.toNat + 16) = .mem pa →
        s.BytesBut t pa 16) ∧
      t.queue c q = (s.queue c q).worked f.id []

/-- VOP and VXADD, while the vector engine is not under self-test: what no check refuses issues and completes its work at issue; VXADD
stores the sum of its partials in 64 bytes; a VOP stores only into the units of its outputs and results, and nothing for an empty
descriptor. -/
def Obligations.VectorResults : Prop :=
  (∀ (c : Fin 96) (q : Queue) (w : InstrWord) (d : List ShadowDiff) (s : State), s.ready c q .vop w →
    let u := s.takeWait c q w
    let x := s.queue c q
    u.vecBusy c = false → u.vopCheck c q w = none → ∃ t f, exec (.vop c q w d) s = .next t ∧
      t.queue c q = x.afterIssue f (advance x.pc x.loops).1 (advance x.pc x.loops).2 ∧ s.QueuesBut t c q ∧
      f.op = .vop ∧ f.pc = x.pc ∧ f.work = .done ∧ t.bufs = s.bufs ∧ s.ScalarsKept t ∧ s.SemsBut t (s.waitKeys c w) ∧
      ((u.vopOps c q w).worked.any (·.empty) = true → t.mem = s.mem) ∧
      s.UnitsBut t (u.unitsLanded (u.ctxOf c) (groupWrites (u.vopRun c q w d).writes))) ∧
  ∀ (c : Fin 96) (q : Queue) (w : InstrWord) (s : State), s.ready c q .vxadd w →
    let u := s.takeWait c q w
    let x := s.queue c q
    let src := u.offs c q w (opnd w 63 48 * 64)
    let dst := u.offs c q w (opnd w 47 32 * 64)
    let n := opnd w 31 16
    let parts := (List.range n).map fun i => partialOf (((u.readBytes (chamPa c src) (64 * n)).data.drop (64 * i)).take 64)
    let a := parts.foldl ExactAcc.merge {}
    u.vecBusy c = false → u.vxaddOk c q w = true → s.coreUp c = true → ∃ t f, exec (.vxadd c q w) s = .next t ∧
      t.queue c q = x.afterIssue f (advance x.pc x.loops).1 (advance x.pc x.loops).2 ∧ s.QueuesBut t c q ∧
      f.op = .vxadd ∧ f.pc = x.pc ∧ f.work = .done ∧ t.bufs = s.bufs ∧ s.ScalarsKept t ∧ s.SemsBut t (s.waitKeys c w) ∧
      (n = 0 → t.mem = s.mem) ∧ s.BytesBut t (chamPa c dst) 64 ∧
      (n ≠ 0 → memRead t.mem (chamPa c dst) 64 = if w.f0 then a.bytes else leBytes 4 (f32 a.value) ++ zeros 60)

/-- LDQ and the two COPYs, and STQ, of sources and destinations in this device: what no check refuses issues, and memory changes only in
the tile slots of an LDQ's destination, or in the units that the elements of a COPY or STQ land in. They
act whole in their step (log 14), while no cluster is gated (ClustersGateAndWake). -/
def Obligations.MoversStore : Prop :=
  (∀ (c : Fin 96) (q : Queue) (w : InstrWord) (s : State), s.ready c q .ldq w → s.Awake → State.ldqEarly c q w s = none →
    let u := s.takeWait c q w
    let x := s.queue c q
    let j := u.latchOset (u.ldqJob c q w)
    let v := u.countOverlap c (u.overlapCase false (jobTensor j 0 6) [jobTensor j 1 6])
    let dst := (jobTensor j 1 6).d
    u.ladderBusy (u.ctxOf c) = false →
    (u.layerWord (u.ctxOf c) (qrecOf (u.ldqJob c q w).record).layer).tag = .good → u.ldqCheck c w (u.ldqJob c q w) = none →
    (ldqEmpty j = true ∨ v.ldqNeeds j = []) → ∃ t f, exec (.ldq c q w) s = .next t ∧
      t.queue c q = x.afterIssue f (advance x.pc x.loops).1 (advance x.pc x.loops).2 ∧ s.QueuesBut t c q ∧
      f.op = .ldq ∧ f.work = .done ∧ f.step = u.openStep (u.ctxOf c) ∧ t.bufs = s.bufs ∧ (ldqEmpty j = true → t.mem = s.mem) ∧
      s.ScalarsKept t ∧ s.SemsBut t (s.waitKeys c w) ∧
      s.BytesBut t (chamPa c (v.normBase dst - v.chamAddr c 0)) (dst.extent 0 * (4 * (dst.stride 0).toNat))) ∧
  (∀ (o : Op) (c : Fin 96) (q : Queue) (w : InstrWord) (s : State), s.ready c q o w → s.Awake →
    let u := s.takeWait c q w
    let x := s.queue c q
    let a := u.tensorAt c (opnd w 63 56)
    let b := u.tensorAt c (opnd w 55 48)
    let k := u.tensorAt c (opnd w 47 40)
    let copied := groupWrites ((u.countOverlap c (u.overlapCase true a [b])).copyElems (u.ctxOf c) w (u.reg (seedK c q)) a b
      []).writes.reverse
    let r := (u.countOverlap c (u.overlapCase false a [b, k])).stqElems (u.ctxOf c) w (u.reg (seedK c q)) a b k []
    let quantised := groupWrites r.1.writes.reverse ++ groupWrites r.2.reverse
    let done : List UnitWr → State → Prop := fun us t => ∃ f,
      t.queue c q = x.afterIssue f (advance x.pc x.loops).1 (advance x.pc x.loops).2 ∧ s.QueuesBut t c q ∧ f.op = o ∧ f.work = .done ∧
      t.bufs = s.bufs ∧ s.ScalarsKept t ∧ s.SemsBut t (s.waitKeys c w) ∧ s.UnitsBut t (u.unitsLanded (u.ctxOf c) us)
    let here : List UnitWr → Prop := fun us => u.isRemote a.d = false ∧ ∀ y ∈ us, ∀ dv n, u.place (u.ctxOf c) y.addr ≠ .remote dv n
    (o = .ldmCopy → u.copyCheck c w = none → here copied → ∃ t, exec (.ldmCopy c q w) s = .next t ∧ done copied t) ∧
    (o = .stmCopy → u.copyCheck c w = none → here copied → ∃ t, exec (.stmCopy c q w) s = .next t ∧ done copied t) ∧
    (o = .stq → u.stqCheck c w = none → here quantised → ∃ t, exec (.stq c q w) s = .next t ∧ done quantised t))

/-- ATOM on a word of this device: the old value lands at RES and the new one at the target, a sum or a conditional swap, and no other
byte changes; a bad unit is left as it is, with a detected error; what goes through the window of another core that runs is discarded and
counted, the old value delivered all the same. The core's own chamber is no window to it (DEDUCED, log 74). -/
def Obligations.AtomicOnLocalWord : Prop :=
  ∀ (c : Fin 96) (q : Queue) (w : InstrWord) (s : State) (pa : Nat), s.ready c q .atom w → s.Awake → s.coreUp c = true →
    let u := s.takeWait c q w
    let x := s.queue c q
    let a := (s.sreg c q (opnd w 63 60)).toNat
    let old : W64 := BitVec.ofNat 64 (leNat (memRead s.mem pa 8))
    let b := s.sreg c q (opnd w 59 56)
    let k := s.sreg c q (opnd w 55 52)
    let new := if w.f0 then (if old = b then k else old) else old + b
    let res := chamPa c (s.offs c q w (opnd w 21 0))
    a % 8 = 0 → a / 0x4000000000000000 < 2 → regionOf (a % 0x400000000000) ≠ none → regionOf (a % 0x400000000000) ≠ some 3 →
    u.place (u.ctxOf c) a = .mem pa → u.deadAt pa = none →
    ((u.readBytes pa 8).tag = .good → u.shutCore (some c) pa = none → ∃ t, exec (.atom c q w) s = .next t ∧
      (res ≠ pa → memRead t.mem pa 8 = leBytes 8 new.toNat) ∧ memRead t.mem res 8 = leBytes 8 old.toNat ∧
      (∀ y, (y < pa ∨ pa + 8 ≤ y) → (y < res ∨ res + 8 ≤ y) → memByte t.mem y = memByte s.mem y) ∧
      t.queue c q = x.afterIssue (s.headEntry c q .atom w) (advance x.pc x.loops).1 (advance x.pc x.loops).2 ∧ s.QueuesBut t c q ∧
      s.ScalarsKept t ∧ s.SemsBut t (s.waitKeys c w)) ∧
    (∀ h, (u.readBytes pa 8).tag = .good → u.shutCore (some c) pa = some h → ∃ t, exec (.atom c q w) s = .next t ∧
      s.BytesBut t res 8 ∧ memRead t.mem res 8 = leBytes 8 old.toNat ∧ t.reg (coreK h 0x28) = s.reg (coreK h 0x28) + 1) ∧
    ((u.readBytes pa 8).tag ≠ .good → ∃ t f, exec (.atom c q w) s = .next t ∧ s.BytesBut t res 8 ∧
      (t.queue c q).inflight = x.inflight ++ [f] ∧ f.error.isSome = true)

/-! Update units, commits, snapshots (R172 to R202, R267, R268, R270) -/

/-- UPD, while no cluster is gated: what no check refuses issues (the ranges that the checks cover: DEDUCED, log 30). Under FROZ it counts
in UPD_FROZEN and has done its work; with COUNT 0 it has done its work; else it is sent to its base die with what it latched, and only words
12 to 14 of its group's entry may change in memory: the first UPD of the step leaves WSTEP at the step, WCOUNT 0 and WFB 0, and a later one
leaves memory as it is. -/
def Obligations.UpdateIssues : Prop :=
  ∀ (c : Fin 96) (q : Queue) (w : InstrWord) (s : State), s.ready c q .upd w → s.Awake → State.updEarly c q w s = none →
    let u := s.takeWait c q w
    let x := s.queue c q
    let ctx := u.ctxOf c
    let d := u.updDesc c q w
    let g := u.updGroup c q w
    let a := u.groupAddr ctx d.group
    d.step = BitVec.ofNat 32 (u.cstep ctx) + 1 → u.updPlace ctx g d = none → ∃ t f, exec (.upd c q w) s = .next t ∧
      t.queue c q = x.afterIssue f (advance x.pc x.loops).1 (advance x.pc x.loops).2 ∧ s.QueuesBut t c q ∧
      f.op = .upd ∧ f.pc = x.pc ∧ f.step = d.step ∧ t.bufs = s.bufs ∧ s.ScalarsKept t ∧ s.SemsBut t (s.waitKeys c w) ∧
      (g.froz = true → f.work = .done ∧ t.mem = s.mem ∧ t.reg (updK ctx 0x40) = s.reg (updK ctx 0x40) + 1 ∧
        s.RegsBut t (updK ctx 0x40 :: reportKeys ctx ++ s.waitKeys c w)) ∧
      (g.froz = false → d.count = 0 → f.work = .done ∧ t.mem = s.mem ∧ s.RegsBut t (reportKeys ctx ++ s.waitKeys c w)) ∧
      (g.froz = false → d.count ≠ 0 → f.work = .upd (u.updJob c q w) ∧ s.RegsBut t (storeKeys ++ reportKeys ctx ++ s.waitKeys c w) ∧
        s.UnitsBut t (u.wordUnits ctx (a + 96) ++ u.wordUnits ctx (a + 104) ++ u.wordUnits ctx (a + 112)) ∧
        (g.wstep = d.step → t.mem = s.mem) ∧
        ∀ pa, g.wstep ≠ d.step → u.GroupTakes ctx d.group pa →
          (t.groupAt ctx d.group).wstep = d.step ∧ (t.groupAt ctx d.group).wcount = 0 ∧ (t.groupAt ctx d.group).wfb = false)

/-- UPD_COMPLETE, while no cluster is gated: the UPD whose units run has done its work; each of its element writes lies in its range of the
half 1 - CUR or in its working copy; memory changes only in the units that these land in and in words 12 and 14 of its group's entry;
COUNT is added to WCOUNT when no element write touches that word, and to UPD_UPDATED, copied elements included (DEDUCED, log 32). Elements
are read and written in this step (DEDUCED, log 33). -/
def Obligations.UpdateCompletes : Prop :=
  ∀ (c : Fin 96) (n st : Nat) (s : State) (f : InFlight) (j : UpdJob), (s.queue c .upq).inflight[n]? = some f → f.work = .upd j →
    j.ctx < 16 → s.Awake → s.updStack j.ctx (groupOf j.entry) (updDescOf j.desc) = some st →
    s.regBit (stkK st 0) 0 = false → s.regBit (stkK st 8) 1 = false → s.isDisabled (0x9000 + st) = false →
    let xs := updWrites j (s.updRun j (s.updElems j))
    let us := s.unitsLanded j.ctx (groupWrites xs)
    let g := groupOf j.entry
    (∀ x ∈ xs, InRange g (updDescOf j.desc) (if g.cur then g.half0 else g.half1) x) ∧ ∃ t ev, exec (.updComplete c n) s = .next t ∧
      t.queue c .upq = (s.queue c .upq).worked f.id ev ∧ s.QueuesBut t c .upq ∧
      t.bufs = s.bufs ∧ s.ScalarsKept t ∧ s.SemsBut t [] ∧
      s.UnitsBut t (us ++ s.wordUnits j.ctx (j.gaddr + 96) ++ s.wordUnits j.ctx (j.gaddr + 112)) ∧
      (∀ pa, s.localPlace j.ctx (j.gaddr + 112) = .mem pa → pa % 8 = 0 → s.deadAt pa = none → s.shutCore none pa = none →
        pa / 64 * 64 ∉ us →
        (s.updRun j (s.updElems j)).wfb = false →
        fld (t.groupWord j.ctx j.gaddr 14) 0 40 = (fld (s.groupWord j.ctx j.gaddr 14) 0 40 + (updDescOf j.desc).count) % 2 ^ 40) ∧
      t.reg (updK j.ctx 0x20) = s.reg (updK j.ctx 0x20) + BitVec.ofNat 64 (updDescOf j.desc).count

/-- COMMIT: of the committed step it has nothing to do; of the next step it starts or joins the commit's wait; with ABORT it drops the
step, while no cluster is gated: only words 12 to 14 of the step's groups may change, and the committed step stays. -/
def Obligations.CommitIssues : Prop :=
  ∀ (c : Fin 96) (q : Queue) (w : InstrWord) (s : State), s.ready c q .commit w →
    let u := s.takeWait c q w
    let ctx := u.ctxOf c
    let n := u.stepField c q w
    let k := BitVec.ofNat 32 (u.cstep ctx)
    let e := { s.headEntry c q .commit w with step := n }
    (w.f0 = false → n = k → ∃ t, exec (.commit c q w) s = .next t ∧ s.CoreOnly t ∧ s.IssuedTo t c q w e []) ∧
    (w.f0 = false → n = k + 1 → ∃ t, exec (.commit c q w) s = .next t ∧ s.CoreOnly t ∧
      s.IssuedTo t c q w { e with work := .commit ctx (!u.committing ctx n) false } []) ∧
    (w.f0 = false → n ≠ k → n ≠ k + 1 → (s.queue c q).inflight = [] → ∃ t, exec (.commit c q w) s = .next t ∧
      (t.queue c q).mode = .faulted ∧ (t.queue c q).pc = (s.queue c q).pc ∧ t.mem = s.mem) ∧
    (w.f0 = true → s.Awake → u.abortRefused ctx n = false → ∃ t, exec (.commit c q w) s = .next t ∧
      s.IssuedTo t c q w { e with events := [Code.UPD_STEP_ABORTED] } (storeKeys ++ reportKeys ctx) ∧ t.cstep ctx = u.cstep ctx ∧
        t.bufs = s.bufs ∧
      s.UnitsBut t (((u.groupsAt ctx n).filter fun i => (u.groupAt ctx i).wstep == n).flatMap fun i =>
        u.wordUnits ctx (u.groupAddr ctx i + 112) ++ u.wordUnits ctx (u.groupAddr ctx i + 96) ++
          u.wordUnits ctx (u.groupAddr ctx i + 104)))

/-- COMMIT_FLIP, with its group table in bound slots and no cluster gated: behind a closed gate, or with a group whose elements are not all
written, the commit fails, UPD_ERR records it and the committed step stays; a snapshot that holds the step back keeps it waiting; else the
step is committed, and each group flipped whose entry takes writes has CUR inverted, TCOUNT one higher, FB OR WFB, CSTEP at the step and
B1P and B2P multiplied by B1 and B2. Where the write of a group fails, the flip stops there: the groups behind it keep their entries,
PARTIAL is set, UPD_ERR names the group and the committed step stays. -/
def Obligations.CommitFlips : Prop :=
  ∀ (ctx : Fin 16) (failAt : Option Nat) (s : State) (p : Nat × Queue × InFlight),
    (s.inflightOf ctx).find? (fun p => isOwnCommit p.2.2) = some p → s.updating ctx p.2.2.step = false →
    s.TablesOpen ctx (s.groupTable ctx) →
    let n := p.2.2.step
    let gs := s.flips ctx n
    let short := fun i => decide ((s.groupAt ctx i).wcount ≠ (s.groupAt ctx i).nelem)
    let fails : Nat → State → Prop := fun g t => t.mem = s.mem ∧ t.bufs = s.bufs ∧ t.cstep ctx = s.cstep ctx ∧
      s.RegsBut t [updK ctx 0x18] ∧ (s.regBit (updK ctx 0x18) 63 = false → t.reg (updK ctx 0x18) = updErrWord g n)
    (s.gateClosed ctx = true → ∃ t, exec (.commitFlip ctx failAt) s = .next t ∧ fails 0 t) ∧
    (∀ i, s.gateClosed ctx = false → gs.find? short = some i → ∃ t, exec (.commitFlip ctx failAt) s = .next t ∧ fails i t) ∧
    (s.gateClosed ctx = false → gs.find? short = none → (List.range 4).any (s.holds ctx n gs) = true →
      ∃ t, exec (.commitFlip ctx failAt) s = .next t ∧ t.mem = s.mem ∧ t.bufs = s.bufs ∧ t.cstep ctx = s.cstep ctx ∧
        s.RegsBut t (pipeK ctx 0x30 :: (List.range 4).map (snapK ctx)) ∧
        ∀ i : Fin 4, t.regBit (snapK ctx i) 62 = s.holds ctx n gs i) ∧
    let units := fun i => s.wordUnits ctx (s.groupAddr ctx i + 96) ++ s.wordUnits ctx (s.groupAddr ctx i + 104) ++
      s.wordUnits ctx (s.groupAddr ctx i + 120)
    let clear := s.gateClosed ctx = false ∧ gs.find? short = none ∧ (List.range 4).any (s.holds ctx n gs) = false
    (clear → (∀ i, failAt = some i → i ∉ gs) →
      ∃ t, exec (.commitFlip ctx failAt) s = .next t ∧ t.cstep ctx = n.toNat ∧ t.bufs = s.bufs ∧ s.ScalarsKept t ∧ s.SemsBut t [] ∧
        (∀ ctx' : Fin 16, ctx' ≠ ctx → t.cstep ctx' = s.cstep ctx') ∧
        s.UnitsBut t (gs.flatMap units) ∧
        ∀ i ∈ gs, ∀ pa, s.GroupTakes ctx i pa → s.GroupAlone ctx i pa gs →
          let g := s.groupAt ctx i
          let h := t.groupAt ctx i
          h.cur = !g.cur ∧ h.tcount = g.tcount + 1 ∧ h.fb = (g.fb || g.wfb) ∧ h.cstep = n ∧
            h.b1p = f32 (mul32 (v32 g.b1p) (v32 g.b1)) ∧ h.b2p = f32 (mul32 (v32 g.b2p) (v32 g.b2))) ∧
    ∀ i, clear → failAt = some i → i ∈ gs → ∃ t, exec (.commitFlip ctx failAt) s = .next t ∧ t.cstep ctx = s.cstep ctx ∧
      t.regBit (updK ctx 0x10) 30 = true ∧ (s.regBit (updK ctx 0x18) 63 = false → t.reg (updK ctx 0x18) = updErrWord i n) ∧
      t.bufs = s.bufs ∧ s.ScalarsKept t ∧ s.UnitsBut t ((gs.takeWhile (· ≠ i)).flatMap units ++ units i)

/-- Snapshot registers and the committed step: arming a snapshot that is not armed sets its range, ARMED and the committed step; DONE
clears it; a write of UPD_STEP sets CSTEP unless a UPD or COMMIT of the context is in flight. No other register changes. -/
def Obligations.SnapshotsAndStep : Prop :=
  (∀ (ctx bank : Fin 16) (n : Fin 4) (v : W64) (s : State) (b : Nat), bankFor ctx bank = some b →
    let k := snapK b n
    (bitAt v 60 = false → bitAt v 61 = true → s.regBit k 63 = false → fld v 32 12 ≤ fld v 44 12 →
      ∃ t, exec (.pipeSnapArm ctx bank n v) s = .next t ∧ s.OnlyRegs t [k] ∧ t.regBit k 63 = true ∧ t.regFld k 0 32 = s.cstep b ∧
        t.regFld k 32 24 = fld v 32 24) ∧
    (bitAt v 60 = true → ∃ t, exec (.pipeSnapDone ctx bank n v) s = .next t ∧ s.OnlyRegs t [k] ∧ t.regBit k 63 = false ∧
      t.regBit k 62 = false)) ∧
  (∀ (c : Fin 96) (q : Queue) (w : InstrWord) (s : State), s.ready c q .snap w →
    let k := snapK ((s.takeWait c q w).ctxOf c) (opnd w 63 62)
    (w.f1 = true → ∃ t, exec (.snap c q w) s = .next t ∧ s.CoreOnly t ∧ s.IssuedTo t c q w (s.headEntry c q .snap w) [k] ∧
      t.regBit k 63 = false ∧ t.regBit k 62 = false) ∧
    (w.f1 = false → w.f0 = true → s.regBit k 63 = false → opnd w 43 32 ≤ opnd w 55 44 → ∃ t, exec (.snap c q w) s = .next t ∧
      s.CoreOnly t ∧ s.IssuedTo t c q w (s.headEntry c q .snap w) [k] ∧ t.regBit k 63 = true ∧
      t.regFld k 0 32 = s.cstep ((s.takeWait c q w).ctxOf c) ∧ t.regFld k 32 24 = opnd w 55 32)) ∧
  ∀ (ctx bank : Fin 16) (v : W64) (s : State) (b : Nat), bankFor ctx bank = some b →
    (((s.inflightOf b).any fun p => p.2.2.op == .upd || p.2.2.op == .commit) = false →
      ∃ t, exec (.updStepCstepWrite ctx bank v) s = .next t ∧ s.OnlyRegs t [updK b 0x10] ∧ t.cstep b = fld v 32 32) ∧
    (((s.inflightOf b).any fun p => p.2.2.op == .upd || p.2.2.op == .commit) = true →
      exec (.updStepCstepWrite ctx bank v) s = .next s)

/-! The kerb monitor (R142 to R156, R406) -/

/-- KSTEP of the next step closes it: the kerb registers are sampled, the close waits for the step's work, and KERB_STATUS.STEP is the
step; KSTEP of the closed step joins it. KERB_CLOSE_MERGE then forms the local record: a replica alone holds it as the reduced record, one
with a partner below it waits for that partner's; a timeout sets RTIMEOUT once. No cluster is gated. -/
def Obligations.KerbStepsClose : Prop :=

  (∀ (c : Fin 96) (q : Queue) (w : InstrWord) (s : State), s.ready c q .kstep w →
    let u := s.takeWait c q w
    let x := s.queue c q
    let ctx := u.ctxOf c
    let n := u.stepField c q w
    let k := BitVec.ofNat 32 (u.kstepNow ctx)
    let issues : State → InFlight → BitVec 32 → Prop := fun t f need =>
      t.queue c q = x.afterIssue f (advance x.pc x.loops).1 (advance x.pc x.loops).2 ∧ s.QueuesBut t c q ∧ f.op = .kstep ∧
        f.pc = x.pc ∧ f.step = n ∧ f.work = (if (t.kerbOf ctx).closings.any (·.step == need) then .kstep ctx need else .done) ∧
        t.mem = s.mem ∧ t.bufs = s.bufs
    (n = k → ∃ t f, exec (.kstep c q w) s = .next t ∧ s.CoreOnly t ∧ s.RegsBut t (s.waitKeys c w) ∧
      issues t f (if bitAt (u.kerbNow ctx).policy 29 then n - 1 else n)) ∧
    (n = k + 1 → ∃ t f, exec (.kstep c q w) s = .next t ∧ s.RegsBut t (kerbK ctx 0x38 :: s.waitKeys c w) ∧
      t.kstepNow ctx = n.toNat ∧ issues t f (if bitAt (s.reg (kerbK ctx 0)) 29 then n - 1 else n) ∧
      t.kerbOf ctx = { s.kerbOf ctx with
        sample := some (s.kerbRegs ctx)
        closings := (s.kerbOf ctx).closings ++ [{ step := n, sample := s.kerbRegs ctx, stage := .waitWork }] }) ∧
    (n ≠ k → n ≠ k + 1 → x.inflight = [] → ∃ t, exec (.kstep c q w) s = .next t ∧ (t.queue c q).mode = .faulted ∧ t.mem = s.mem)) ∧
  (∀ (ctx : Fin 16) (s : State) (k : Closing) (r : List Closing), (s.kerbOf ctx).closings = k :: r →
    (k.stage = .waitWork → s.quantising ctx k.step = false → s.Awake → k.sample.g = 1 →
      ∃ t, exec (.kerbCloseMerge ctx) s = .next t ∧
        (t.kerbOf ctx).closings = { k with stage := .ready, own := s.localRecord ctx k } :: r ∧ t.queues = s.queues ∧
        t.bufs = s.bufs ∧ s.RegsBut t (storeKeys ++ reportKeys ctx) ∧
        s.UnitsBut t (s.rangeUnits ctx (k.sample.at_ localOff) (s.localRecord ctx k).length ++
          s.rangeUnits ctx (k.sample.at_ (slotOff 16)) (s.localRecord ctx k).length)) ∧
    (∀ j, k.stage = .waitWork → s.quantising ctx k.step = false → s.Awake →
      redNext k.sample.g k.sample.self (rounds k.sample.g) 0 = .wait j →
      ∃ t, exec (.kerbCloseMerge ctx) s = .next t ∧
        (t.kerbOf ctx).closings = { k with stage := .reduce j, own := s.localRecord ctx k } :: r ∧ t.queues = s.queues ∧
        s.RegsBut t (storeKeys ++ reportKeys ctx)) ∧
    (k.stage ≠ .ready → k.timeout = false → s.regFld (kerbK ctx 0x40) 0 32 ≠ 0 →
      ∃ t, exec (.kerbReduceTimeout ctx) s = .next t ∧ t.regBit (kerbK ctx 0x38) 6 = true ∧ s.CoresKept t ∧
        (t.kerbOf ctx).closings = { k with timeout := true } :: r ∧ s.RegsBut t (kerbK ctx 0x38 :: reportKeys ctx)))

/-- KERB_RECORD_ARRIVAL, while no cluster is gated: a record that nothing waits for is discarded and reported; one of a later round stays
in its slot (DEDUCED, log 38); one of the awaited round is merged; the reduced record is held for the decision. The command itself changes
no memory. -/
def Obligations.KerbTakesRecords : Prop :=  ∀ (ctx : Fin 16) (slot : Fin 17) (s : State),
    let a := (s.reduceRegs ctx).at_ (slotOff slot)
    let last := tgetD (s.kerbOf ctx).seen slot 0
    let n := BitVec.ofNat 32 (khdrOf (s.getRecord ctx a 0)).step
    s.Awake → last.toNat < (s.arriveAt ctx a).toNat →
    (s.arrival ctx slot n = .refuse → ∃ t, exec (.kerbRecordArrival ctx slot) s = .next t ∧ s.CoresKept t ∧
      t.kerbOf ctx = { s.kerbOf ctx with seen := tset (s.kerbOf ctx).seen slot (last + 1) } ∧ s.RegsBut t (reportKeys ctx)) ∧
    (s.arrival ctx slot n = .early → exec (.kerbRecordArrival ctx slot) s = .next s) ∧
    (∀ k i, s.arrival ctx slot n = .merge k →
      redNext k.sample.g k.sample.self (rounds k.sample.g - (slot + 1)) (slot + 1) = .wait i →
      ∃ t, exec (.kerbRecordArrival ctx slot) s = .next t ∧ s.CoresKept t ∧ s.RegsBut t (reportKeys ctx) ∧
        (t.kerbOf ctx).closings = { k with
          stage := .reduce i
          own := mergeRecords (layersOf k.sample.policy) k.own (s.getRecord ctx a (layersOf k.sample.policy)) } ::
            (s.kerbOf ctx).closings.tail) ∧
    (∀ k, s.arrival ctx slot n = .reduced k → bcastRounds k.sample.g k.sample.self = [] →
      ∃ t, exec (.kerbRecordArrival ctx slot) s = .next t ∧ s.CoresKept t ∧ s.RegsBut t (reportKeys ctx) ∧
        (t.kerbOf ctx).closings = { k with stage := .ready, own := s.getRecord ctx a (layersOf k.sample.policy) } ::
          (s.kerbOf ctx).closings.tail)

/-- KERB_DECIDE, while no cluster is gated, ends the oldest closing: records that do not agree only set MISMATCH; off mode changes nothing;
shadow mode only counts the moves; active mode writes the layer entries that may move, FROZEN, and counts what it moved and denied. -/
def Obligations.KerbDecides : Prop :=  ∀ (ctx : Fin 16) (s : State) (k : Closing) (r : List Closing), (s.kerbOf ctx).closings = k :: r →
  k.stage = .ready → s.Awake →
    let h := khdrOf k.own
    let d := s.decision ctx k
    ∃ t, exec (.kerbDecide ctx) s = .next t ∧ (t.kerbOf ctx).closings = r ∧ (t.kerbOf ctx).decided = k.step ∧ t.bufs = s.bufs ∧
      s.ScalarsKept t ∧ s.SemsBut t [] ∧
      ((h.crcMin ≠ h.crcMax ∨ h.nrep ≠ k.sample.g) → t.regBit (kerbK ctx 0x38) 5 = true ∧ t.mem = s.mem ∧
        s.RegsBut t (kerbK ctx 0x38 :: reportKeys ctx)) ∧
      (h.crcMin = h.crcMax → h.nrep = k.sample.g → (h.mode = 0 ∨ 3 ≤ h.mode) → t.mem = s.mem ∧ t.regs = s.regs) ∧
      (h.crcMin = h.crcMax → h.nrep = k.sample.g → h.mode = 1 → t.mem = s.mem ∧ s.RegsBut t (kerbK ctx 0x68 :: reportKeys ctx) ∧
        t.reg (kerbK ctx 0x68) = s.reg (kerbK ctx 0x68) + BitVec.ofNat 64 d.moved) ∧
      (h.crcMin = h.crcMax → h.nrep = k.sample.g → h.mode = 2 → t.regBit (kerbK ctx 0x30) 31 = d.frozen ∧
        (d.stormed = true → t.regFld (kerbK ctx 0x30) 32 32 = k.step.toNat) ∧
        t.reg (kerbK ctx 0x50) = s.reg (kerbK ctx 0x50) + BitVec.ofNat 64 d.moved ∧
        t.reg (kerbK ctx 0x58) = s.reg (kerbK ctx 0x58) + BitVec.ofNat 64 d.denied ∧
        s.UnitsBut t ((List.range (layersOf k.sample.policy)).flatMap fun i =>
          s.wordUnits ctx (s.layerAddr ctx i) ++ s.wordUnits ctx (s.layerAddr ctx i + 8)))

/-- A decision of the ladder never asks more than the larger of the budget and what its layers already cost; frozen it moves nothing, and
no layer moves by more than one rung or without wanting to. -/
def Obligations.LadderKeepsToItsBudget : Prop :=  ∀ (k : KerbSample) (frozen : Bool) (ls : List Lay),
    let d := decideMoves k frozen ls
    let spent := fun l : List Lay => (l.map fun x => x.cost * rungMult x.rung).sum
    spent d.layers ≤ max k.budget.toNat (spent ls) ∧ d.layers.length = ls.length ∧
    (d.frozen = true → d.layers = ls ∧ d.moved = 0 ∧ d.denied = 0) ∧
    ∀ (i : Nat) (a b : Lay), ls[i]? = some a → d.layers[i]? = some b → (a.want = 0 → b = a) ∧ b.rung ≤ a.rung + 1 ∧ a.rung ≤ b.rung + 1

/-- KERB_STATUS, DISCARD_KSTAT and KRESEND: a write of KERB_STATUS clears the bits written 1 and, with no KSTEP or decision outstanding,
sets STEP; DISCARD_KSTAT drops the open step's statistics and no others; KRESEND with nothing sent is refused, and writes a record kept
for this device to its slot with ARRIVE one higher. -/
def Obligations.KerbReplayAndStatus : Prop :=  ∀ (ctx bank : Fin 16) (s : State) (b : Nat), bankFor ctx bank = some b →
    (∀ v : W64, ∃ t, exec (.kerbStatusStepWrite ctx bank v) s = .next t ∧ s.CoresKept t ∧ s.RegsBut t [kerbK b 0x38] ∧
      (∀ i, 4 ≤ i → i < 7 → t.regBit (kerbK b 0x38) i = (s.regBit (kerbK b 0x38) i && !bitAt v i)) ∧
      (s.ladderBusy b = false → ((s.inflightOf b).any fun p => p.2.2.op == .kstep) = false →
        t.kstepNow b = fld v 32 32 ∧ (t.kerbOf b).closings = []) ∧
      ((s.ladderBusy b = true ∨ ((s.inflightOf b).any fun p => p.2.2.op == .kstep) = true) → t.kstepNow b = s.kstepNow b)) ∧
    (s.discardRefused b = false → ∃ t, exec (.discardKstat ctx bank) s = .next t ∧ t = { s with kerb := t.kerb } ∧
      (∀ d l, d < 2 → l < 65536 → tget (t.kerbOf b).stats (statKey (s.openStep b) d l) = none) ∧
      (∀ n d l, d < 2 → l < 65536 → n ≠ s.openStep b → tget (t.kerbOf b).stats (statKey n d l) = tget (s.kerbOf b).stats (statKey n d l))) ∧
    (s.discardRefused b = true → ∃ t, exec (.discardKstat ctx bank) s = .next t ∧ s.OnlyRegs t [errK b 8] ∧
      t.regBit (errK b 8) 61 = true) ∧
    ((s.kerbOf b).sent = [] → ∃ t, exec (.kresend ctx bank) s = .next t ∧ s.OnlyRegs t [errK b 8] ∧ t.regBit (errK b 8) 61 = true) ∧
    (∀ r pa, (s.kerbOf b).sent = [r] → r.device = s.fuses.device →
      let a := (s.reduceRegs b).at_ (slotOff r.slot)
      s.localPlace b a = .mem pa → s.deadAt pa = none → s.shutCore none pa = none →
      (∀ x ∈ unitsOf a r.bytes.length, x ≠ a → s.localPlace b x ≠ .mem pa) →
      ∃ t, exec (.kresend ctx bank) s = .next t ∧ s.RegsBut t (storeKeys ++ gateKeys ++ reportKeys b) ∧ t.queues = s.queues ∧
        s.UnitsBut t (s.rangeUnits b a (max 0x20 r.bytes.length)) ∧ t.arriveAt b a = s.arriveAt b a + 1)

/-! Queues, images, gates (R225 to R241, R429) -/

/-- INSTRUCTION_FETCH: a queue that runs or waits gets the word at its PC as its head, and with a matrix instruction the MB of its slot as
it then is; beyond 12,287 it is refused with PC_RANGE; an uncorrectable word is refused with MEM_IFETCH, a reserved opcode with
OPCODE_RESERVED. A core without a clock fetches nothing. The command latches the head, and another of its queue changes nothing (DESIGN
CHOICE, log 16). -/
def Obligations.FetchReadsTheHead : Prop :=
  ∀ (c : Fin 96) (q : Queue) (e : Ecc) (s : State),
    let x := s.queue c q
    (s.coreHung c = true → exec (.instructionFetch c q e) s = .next s) ∧
    (s.coreHung c = false → (x.mode = .running ∨ x.mode = .waiting) → x.refusal = none → x.inflight.any (·.op == .end_) = false →
    (∀ o, x.pc.toNat < 12288 → e ≠ .uncorrectable → x.fetched = none → opOf (opField (s.imemWord c x.pc)) = some o →
      ∃ t m, exec (.instructionFetch c q e) s = .next t ∧ s.QueuesBut t c q ∧ t.ages = s.ages + 1 ∧ t.mem = s.mem ∧ t.bufs = s.bufs ∧
        t.queue c q = { x with fetched := some (s.imemWord c x.pc), age := s.ages, given := none, mb := m } ∧
        s.RegsBut t (gateKeys ++ reportKeys (s.ctxOf c)) ∧
        (s.mbRange c q o (frameOf (s.imemWord c x.pc)) = none →
          m = x.mb ∧ t = { s with queues := t.queues, ages := s.ages + 1 }) ∧
        ∀ r, s.mbRange c q o (frameOf (s.imemWord c x.pc)) = some r → m = leNat (s.tableRead (s.ctxOf c) r.1 r.2).data) ∧
    (12288 ≤ x.pc.toNat → x.inflight = [] → ∃ t, exec (.instructionFetch c q e) s = .next t ∧ (t.queue c q).mode = .faulted ∧
      t.mem = s.mem ∧ (s.regBit (qK c q 8) 63 = false → t.reg (qK c q 8) = faultWord false Code.PC_RANGE 0 x.pc)) ∧
    (x.pc.toNat < 12288 → e = .uncorrectable → x.inflight = [] → ∃ t, exec (.instructionFetch c q e) s = .next t ∧
      (t.queue c q).mode = .faulted ∧ t.mem = s.mem ∧
      (s.regBit (qK c q 8) 63 = false → t.reg (qK c q 8) = faultWord false Code.MEM_IFETCH 0 x.pc)) ∧
    (x.pc.toNat < 12288 → e ≠ .uncorrectable → x.fetched = none → opOf (opField (s.imemWord c x.pc)) = none → x.inflight = [] →
      (frameOf (s.imemWord c x.pc)).wcond = 0 → ∃ t, exec (.instructionFetch c q e) s = .next t ∧
      (t.queue c q).mode = .faulted ∧ t.mem = s.mem ∧ (s.regBit (qK c q 8) 63 = false →
        t.reg (qK c q 8) = faultWord false Code.OPCODE_RESERVED (frameOf (s.imemWord c x.pc)).optag x.pc)))

/-- INSTRUCTION_COMPLETE: the oldest instruction whose work is done leaves flight, its signal is on its way and its register write takes
place; END halts the queue with an empty loop stack; a detected error faults the queue and no signal leaves; work not done keeps it, and
so does a core without a clock. An END leaves a queue FAULTED that is (DEDUCED, log 52). That the entry completes by a command of its own is
the model's choice (log 16). -/
def Obligations.CompletionRetiresTheOldest : Prop :=
  ∀ (c : Fin 96) (q : Queue) (s : State) (f : InFlight) (r : List InFlight),
    let x := s.queue c q
    x.inflight = f :: r →
    ((f.work.ended = false ∨ s.coreHung c = true) → exec (.instructionComplete c q) s = .next s) ∧
    (f.work.ended = true → s.coreHung c = false → f.error = none → f.events = [] → f.hold = .none → x.refusal = none → f.op ≠ .vop →
      f.op ≠ .vxadd →
      ∃ t, exec (.instructionComplete c q) s = .next t ∧ t.mem = s.mem ∧ t.bufs = s.bufs ∧ s.QueuesBut t c q ∧
        t.sigs = (if f.sinc = 0 then s.sigs
          else s.sigs ++ [{ src := .queue c q, home := f.home, inc := f.sinc, optag := f.optag, pc := f.pc }]) ∧
        (f.op ≠ .end_ → t.queue c q = { x with inflight := r }) ∧
        (f.op = .end_ → t.queue c q = { x with
          inflight := r, loops := [], fetched := none, wcause := .none, mode := if x.mode = .faulted then .faulted else .halted }) ∧
        (f.post = none → t.regs = s.regs) ∧
        ∀ i v, f.post = some (i, v) → t.sreg c q i = v ∧ s.RegsBut t [qK c q (0x80 + 8 * i)]) ∧
    (∀ e, f.work.ended = true → s.coreHung c = false → f.error = some e → ∃ t, exec (.instructionComplete c q) s = .next t ∧
      (t.queue c q).mode = .faulted ∧
      t.mem = s.mem ∧ t.sigs = s.sigs ∧ (s.regBit (qK c q 8) 63 = false →
        t.reg (qK c q 8) = faultWord (e != Code.UPD_STEP_ORDER) e f.optag f.pc))

/-- QUEUE_START, QUEUE_STOP, CLUSTER_START, CLUSTER_STOP and PC_WRITE on an awake cluster: START runs the READY, STOPPED, HELD and FAULTED
queues of the mask; STOP stops the RUNNING, WAITING and HELD ones; a write of the PC stops a queue that may take one at that address
with an empty loop stack. No other queue, no register and no memory changes. On a core with a disabled engine START acts on READY queues
only (DEDUCED, log 92); STOP leaves the arrive bit that a head XARR set (DEDUCED, log 63). -/
def Obligations.QueuesStartAndStop : Prop :=
  ∀ (ctx : Fin 16) (s : State),
    let acts : Nat → QState → Prop := fun c x => x.startable ∧ (s.engineOff c = false ∨ x.mode = .ready)
    let started : Nat → QState → QState → Prop := fun c x y =>
      (acts c x → y = { x with mode := .running, wcause := .none, fetched := none, lineWait := none }) ∧ (¬acts c x → y = x)
    let halted : QState → QState → Prop := fun x y =>
      (x.stoppable → y = { x with mode := .stopped, wcause := .none, fetched := none, lineWait := none }) ∧ (¬x.stoppable → y = x)
    (∀ (vc : Fin 96) (m : BitVec 6) (c : Nat), s.coreOf ctx vc = some c → s.cluUp (c / 6) = true →
      (s.gate (c / 6) = 0 → s.coreUp c = true → ∃ t, exec (.queueStart ctx vc m) s = .next t ∧ t = { s with queues := t.queues } ∧
        ∀ c' q, (c' = c ∧ m.getLsbD (qnum q) = true → started c (s.queue c q) (t.queue c q)) ∧
          (¬(c' = c ∧ m.getLsbD (qnum q) = true) → t.queue c' q = s.queue c' q)) ∧
      (∃ t, exec (.queueStop ctx vc m) s = .next t ∧ t = { s with queues := t.queues } ∧
        ∀ c' q, (c' = c ∧ m.getLsbD (qnum q) = true → halted (s.queue c q) (t.queue c q)) ∧
          (¬(c' = c ∧ m.getLsbD (qnum q) = true) → t.queue c' q = s.queue c' q)) ∧
      (∀ (q : Queue) (v : W64), ∃ t, exec (.pcWrite ctx vc q v) s = .next t ∧ t = { s with queues := t.queues } ∧
        s.QueuesBut t c q ∧
        (((s.queue c q).mode = .ready ∨ (s.queue c q).mode = .stopped ∨ (s.queue c q).mode = .halted ∨ (s.queue c q).mode = .faulted) →
          t.queue c q = { s.queue c q with
            mode := .stopped, wcause := .none, pc := BitVec.ofNat 14 (fld v 0 14), loops := [], fetched := none }) ∧
        (((s.queue c q).mode = .idle ∨ (s.queue c q).mode = .running ∨ (s.queue c q).mode = .waiting ∨ (s.queue c q).mode = .held) →
          t.queue c q = s.queue c q))) ∧
    ∀ (vg : Fin 16) (m : BitVec 6) (g : Nat), s.cluOf ctx vg = some g → s.cluUp g = true →
      (s.gate g = 0 → (∀ k, k < 6 → s.coreUp (6 * g + k) = true) → ∃ t, exec (.clusterStart ctx vg m) s = .next t ∧
        t = { s with queues := t.queues } ∧ ∀ c q, (c / 6 = g ∧ m.getLsbD (c % 6) = true → started c (s.queue c q) (t.queue c q)) ∧
          (¬(c / 6 = g ∧ m.getLsbD (c % 6) = true) → t.queue c q = s.queue c q)) ∧
      (∃ t, exec (.clusterStop ctx vg m) s = .next t ∧
        t = { s with queues := t.queues } ∧ ∀ c q, (c / 6 = g ∧ m.getLsbD (c % 6) = true → halted (s.queue c q) (t.queue c q)) ∧
          (¬(c / 6 = g ∧ m.getLsbD (c % 6) = true) → t.queue c q = s.queue c q))

/-- SCALAR_REGISTER_WRITE, CORE_SEED_WRITE, DTBASE_WRITE, PICK_WRITE and WINDOW_WRITE: the first two take effect while their queue is
stopped, the third and the last while every queue of the core is; each changes its register or its bytes and nothing else. -/
def Obligations.CoreRegistersAndWindows : Prop :=
  (∀ (ctx : Fin 16) (vc : Fin 96) (v : W64) (s : State) (c : Nat), s.coreOf ctx vc = some c → s.cluUp (c / 6) = true →
    (∀ (q : Queue) (i : Fin 16),
      ((s.queue c q).stopped = true → ∃ t, exec (.scalarRegisterWrite ctx vc q i v) s = .next t ∧ t.sreg c q i = v ∧
        s.OnlyRegs t [qK c q (0x80 + 8 * i)]) ∧
      ((s.queue c q).stopped = false → exec (.scalarRegisterWrite ctx vc q i v) s = .next s)) ∧
    (∀ i : Fin 5,
      ((s.queue c (seedQueue i)).stopped = true → ∃ t, exec (.coreSeedWrite ctx vc i v) s = .next t ∧
        t.reg (coreK c (0x800 + 8 * i)) = v ∧ s.OnlyRegs t [coreK c (0x800 + 8 * i)]) ∧
      ((s.queue c (seedQueue i)).stopped = false → exec (.coreSeedWrite ctx vc i v) s = .next s)) ∧
    (s.coreStopped c = true → ∃ t, exec (.dtbaseWrite ctx vc v) s = .next t ∧ t.regFld (coreK c 0xC00) 14 8 = fld v 14 8 ∧
      s.OnlyRegs t [coreK c 0xC00]) ∧
    (s.coreStopped c = false → exec (.dtbaseWrite ctx vc v) s = .next s) ∧
    (∃ t, exec (.pickWrite ctx vc v) s = .next t ∧ t = { s with regs := t.regs, lastLoser := t.lastLoser } ∧
      s.RegsBut t [coreK c 0xA00] ∧ t.regFld (coreK c 0xA00) 16 16 = fld v 16 16 ∧ t.regFld (coreK c 0xA00) 0 2 = fld v 0 2 ∧
      tget t.lastLoser c = none ∧ ∀ c', c' ≠ c → tget t.lastLoser c' = tget s.lastLoser c')) ∧
  ∀ (ctx : Fin 16) (addr : W64) (bs : List Byte) (s : State) (pa : Nat), bs ≠ [] → s.place ctx addr.toNat = .mem pa →
    oneWindow (offOf addr.toNat) bs.length = true → s.coreUp (windowCore pa) = true → s.gate (windowCore pa / 6) = 0 →
    (s.coreStopped (windowCore pa) = true → ∃ t, exec (.windowWrite ctx addr bs) s = .next t ∧ memRead t.mem pa bs.length = bs ∧
      s.BytesBut t pa bs.length ∧ t.regs = s.regs ∧ t.queues = s.queues ∧ t.bufs = s.bufs) ∧
    (s.coreStopped (windowCore pa) = false → ∃ t, exec (.windowWrite ctx addr bs) s = .next t ∧
      s.OnlyRegs t [coreK (windowCore pa) 0x28] ∧
      t.reg (coreK (windowCore pa) 0x28) = s.reg (coreK (windowCore pa) 0x28) + 1)

/-- IMAGE_LOAD and IMAGE_LOAD_END: a load while another runs is IMAGE_BUSY; one that every check passes makes the queues of its cores IDLE
with their scalar registers at reset and is under way; its end copies its sections and nothing else, and gives each queue named its
entry PC, READY or RUNNING, or records the code that ended it. An image in a reserved range ends the load as a read that fails does (DESIGN
CHOICE, log 86). -/
def Obligations.ImagesLoad : Prop :=
  (∀ (ctx vg : Fin 16) (s : State) (g : Nat), s.cluOf ctx vg = some g → s.cluUp g = true → s.gate g = 0 →
    let base := s.regFld (cluK g 0) 6 40 * 64
    ((tget s.loads g).isSome = true → ∃ t, exec (.imageLoad ctx vg) s = .next t ∧ s.Reported t ctx [cluK g 0x10] ∧
      t.regBit (cluK g 0x10) 63 = true ∧ t.regFld (cluK g 0x10) 32 16 = Code.IMAGE_BUSY.toNat) ∧
    (∀ h, tget s.loads g = none → s.TablesOpen ctx (s.imgRanges ctx base) → s.imgHead ctx base = some h →
      (∀ c ∈ maskCores g (imgMask h), s.coreStopped c = true) →
      imgChecks h = none → s.imgTargets g h = none → ∃ t, exec (.imageLoad ctx vg) s = .next t ∧ t.mem = s.mem ∧ t.bufs = s.bufs ∧
        tget t.loads g = some { ctx := ctx, base := base, head := h } ∧ t.regBit (cluK g 0x10) 63 = true ∧
        (∀ c q, c ∈ maskCores g (imgMask h) → t.queue c q = { lost := (s.queue c q).lost } ∧
          ∀ i : Fin 16, t.sreg c q i = State.reset.sreg c q i) ∧
        ∀ c q, c ∉ maskCores g (imgMask h) → t.queue c q = s.queue c q) ∧
    (tget s.loads g = none → s.Awake → (s.touchedAll ctx (s.imgRanges ctx base)).imgHead ctx base = none →
      ∃ t, exec (.imageLoad ctx vg) s = .next t ∧ s.Reported t ctx [cluK g 0x10] ∧ t.regBit (cluK g 0x10) 63 = false ∧
        t.regFld (cluK g 0x10) 32 16 = Code.IMAGE_READ_FAULT.toNat ∧ t.regFld (cluK g 0x10) 0 8 = 0x0B) ∧
    (∀ h e, tget s.loads g = none → s.TablesOpen ctx (s.imgRanges ctx base) → s.imgHead ctx base = some h →
      (∀ c ∈ maskCores g (imgMask h), s.coreStopped c = true) →
      imgChecks h = some e → ∃ t, exec (.imageLoad ctx vg) s = .next t ∧ s.Reported t ctx [cluK g 0x10] ∧
        t.regBit (cluK g 0x10) 63 = false ∧ t.regFld (cluK g 0x10) 32 16 = e.1.toNat)) ∧
  ∀ (g : Fin 16) (s : State) (l : Load), tget s.loads g = some l → s.Awake →
    let r := ({ s with loads := tdel s.loads g } : State).imgSections g l 0 (imgNsec l.head)
    ∃ t, exec (.imageLoadEnd g) s = .next t ∧ tget t.loads g = none ∧ t.regBit (cluK g 0x10) 63 = false ∧
      (∀ a, (∀ i, i < imgNsec l.head →
        let x := imgSec l.head i
        let pa := if x.type = 0 then imemPa (6 * g + x.core) x.dst else chamPa (6 * g + x.core) x.dst
        a < pa ∨ pa + x.len ≤ a) → memByte t.mem a = memByte s.mem a) ∧
      (∀ e, r.2.1 = some e → t.queues = s.queues ∧ t.regFld (cluK g 0x10) 32 16 = e.1.toNat) ∧
      (r.2.1 = none → t.regFld (cluK g 0x10) 32 16 = 0 ∧ ∀ (k : Fin 6) (q : Queue),
        ((imgMask l.head).getLsbD k = true → (imgFld l.head (0x41 + 32 * k) 1).testBit (qnum q) = true →
          t.queue (6 * g + k) q = { s.queue (6 * g + k) q with
            mode := if (imgFld l.head 9 1).testBit 0 then .running else .ready
            pc := BitVec.ofNat 14 (imgFld l.head (0x44 + 32 * k + 2 * qnum q) 2) }) ∧
        (((imgMask l.head).getLsbD k = false ∨ (imgFld l.head (0x41 + 32 * k) 1).testBit (qnum q) = false) →
          t.queue (6 * g + k) q = s.queue (6 * g + k) q))

/-- GATE_REQUEST, GATE_ENTER and WAKE_END: a request sets the state asked of each cluster of the die, code 11 none; a cluster whose queues
are stopped enters the state asked; waking brings it to RUN and then takes the actions that waited. An ATOM on a word of a gated cluster's
chamber window waits as its queue's head while the cluster wakes, and touches nothing. -/
def Obligations.ClustersGateAndWake : Prop :=
  (∀ (d : Fin 2) (v : W64) (s : State), ∃ t, exec (.gateRequest 0 d v) s = .next t ∧ s.CoresKept t ∧ s.RegsBut t [dieK d 0x360030] ∧
    ∀ i : Fin 8, t.gate (8 * d + i) = s.gate (8 * d + i) ∧
      t.regFld (dieK d 0x360030) (2 * i) 2 = (if fld v (2 * i) 2 = 3 then s.regFld (dieK d 0x360030) (2 * i) 2 else fld v (2 * i) 2) ∧
      (fld v (2 * i) 2 = 0 → s.gate (8 * d + i) ≠ 0 → (tget t.waking (8 * d + i)).isSome = true)) ∧
  (∀ (g : Fin 16) (s : State), (s.regFld (gateK g) (gatePos g) 2 = 1 ∨ s.regFld (gateK g) (gatePos g) 2 = 2) →
    tget s.waking g = none → (∀ k, k < 6 → s.coreStopped (6 * g + k) = true) → ∃ t, exec (.gateEnter g) s = .next t ∧
      s.OnlyRegs t [gateK g] ∧ t.gate g = s.regFld (gateK g) (gatePos g) 2 ∧
      ∀ g' : Fin 16, g' ≠ g → t.gate g' = s.gate g') ∧
  (∀ (c : Fin 96) (q : Queue) (w : InstrWord) (s : State) (pa : Nat), s.ready c q .atom w →
    let u := s.takeWait c q w
    let a := (s.sreg c q (opnd w 63 60)).toNat
    a % 8 = 0 → a / 0x4000000000000000 < 2 → regionOf (a % 0x400000000000) = some 2 → u.place (u.ctxOf c) a = .mem pa →
    s.gate (windowCore pa / 6) ≠ 0 → ∃ t, exec (.atom c q w) s = .next t ∧ t = { s with queues := t.queues, waking := t.waking } ∧
      s.QueuesBut t c q ∧ t.queue c q = { s.queue c q with mode := .waiting, wcause := .resource } ∧
      (tget t.waking (windowCore pa / 6)).isSome = true) ∧
  ∀ (g : Fin 16) (s : State) (l : List Instr), tget s.waking g = some l → ∃ u t, exec (.wakeEnd g) s = .next t ∧
    t = (l.foldl State.runWoken u).resumeGathers.drainAll ∧ u = { s with regs := u.regs, waking := u.waking } ∧ s.RegsBut u [gateK g] ∧
      u.gate g = 0 ∧
    u.regFld (gateK g) (gatePos g) 2 = 0 ∧ tget u.waking g = none

/-! Soxis fabric (R346 to R376) -/

/-- Requests served at once, of a queue pair that takes them and may send, in sequence (log 43), of an accepted epoch and passing every
check: READ answers the units, WRITE and WRITE_MASKED land theirs and are acknowledged, FADD and CAS store their sum or swap and answer the
old value, CTRL_WRITE delivers its message. Memory changes only there and in the queue pair's entry; no queue and no accumulator does. -/
def Obligations.TargetPerformsRequests : Prop :=
  ∀ (qy : Fin 8) (p : Packet) (s : State), s.TakesPacket qy p → s.SendsAtOnce p.qp →
    let u := (s.atPort qy p).notify p
    let ctx := u.qpCtx p.qp
    let kept : State → Prop := fun t => t.queues = s.queues ∧ t.bufs = s.bufs ∧ s.ScalarsKept t
    let answers : State → BitVec 8 → Prop := fun t op =>
      ∃ k f, t.tx.head? = some (.soxis (u.qpQuay p.qp) k f) ∧ k.op = op ∧ k.psn = p.psn ∧ k.status = 0
    let lands : Nat → List Nat := fun m => u.unitsLanded ctx (p.units.zipIdx.map fun x => wrOf p x.2 m x.1)
    let clear : List Nat → Prop := fun us => ∀ x ∈ us, x ∉ u.qpEntry p.qp
    u.order p = .next → u.epochOk p = true →
    (u.headReason p 1 = none → u.targetReason p p.nunits.toNat 64 true = none → ∃ t, exec (.read qy p) s = .next t ∧
      t.tx = .soxis (u.qpQuay p.qp) { u.answer p 0x41 with
        nunits := p.nunits, units := u.sendUnits ctx (offOf p.addr.toNat) p.nunits.toNat } (u.frameFor p.qp) :: u.tx ∧
      kept t ∧ s.UnitsBut t (u.qpEntry p.qp) ∧
      ∀ pa, u.qpPlace p.qp 0 = .mem pa → t.epsn p.qp = (u.epsn p.qp + 1) % 2 ^ 24) ∧
    (u.headReason p 2 = none → lengthBad p = false → u.targetReason p p.nunits.toNat 64 true = none → clear (lands fullMask) →
      ∃ t, exec (.write qy p) s = .next t ∧ answers t 0x42 ∧ kept t ∧ s.UnitsBut t (lands fullMask ++ u.qpEntry p.qp) ∧
        ∀ pa y, p.units = [y] → u.place ctx p.addr.toNat = .mem pa → u.shutCore none pa = none → u.deadAt pa = none →
          memRead t.mem pa 64 = unitBytes y.data) ∧
    (u.headReason p 3 = none → lengthBad p = false → p.nunits = 1 → u.targetReason p 1 64 true = none →
      clear (lands (nibbleMask p.opa p.opb)) →
      ∃ t, exec (.writeMasked qy p) s = .next t ∧ answers t 0x42 ∧ kept t ∧
        s.UnitsBut t (lands (nibbleMask p.opa p.opb) ++ u.qpEntry p.qp)) ∧
    (∀ (cas : Bool) (pa : Nat), u.headReason p (if cas then 5 else 4) = none → u.targetReason p 0 8 false = none →
      u.localPlace ctx (offOf p.addr.toNat) = .mem pa → (u.readBytes pa 8).tag = .good →
      clear [pa / 64 * 64] →
      let old : W64 := BitVec.ofNat 64 (leNat (u.readBytes pa 8).data)
      ∃ t k f, exec (if cas then .cas qy p else .fadd qy p) s = .next t ∧ t.tx.head? = some (.soxis (u.qpQuay p.qp) k f) ∧
        k.op = 0x44 ∧ k.opa = old ∧
        kept t ∧ s.UnitsBut t (pa / 64 * 64 :: u.qpEntry p.qp) ∧ (p.psn, old) ∈ (t.qp p.qp).cache ∧
        (u.deadAt pa = none → u.shutCore none pa = none → memRead t.mem pa 8 =
          leBytes 8 (if cas then (if old = p.opa then p.opb else old) else old + p.opa).toNat)) ∧
    (∀ g, u.headReason p 6 = none → lengthBad p = false → ctrlFormOk p = true → u.ctrlChan p = some g → fld p.opa 0 7 ≠ 0 →
      u.mbFull g (fld p.addr 0 6) = false → ∃ t, exec (.ctrlWrite qy p) s = .next t ∧ answers t 0x42 ∧ kept t ∧
        t.mbFull g (fld p.addr 0 6) = true ∧ t.msg g (fld p.addr 0 6) = (ctrlMsg p, !p.units.all goodUnit) ∧
        s.UnitsBut t (u.qpEntry p.qp))

/-- Answers to this device's requests, of a queue pair that takes them and with nothing waiting to be sent: a response or acknowledgement
ends its request and gives its instruction what came back; RNR makes the queue pair wait; NAK_SEQ acknowledges nothing (the model's
reading, log 64) and, while tries are left, has every outstanding request sent again; REFUSE ends its request with an error, or counts an
epoch refusal and waits. RNR and an epoch refusal are responses to their request, whose tries start again (DEDUCED, log 43). -/
def Obligations.RequesterTakesAnswers : Prop :=
  ∀ (qy : Fin 8) (p : Packet) (s : State) (r : Req), s.TakesPacket qy p → s.SendsAtOnce p.qp → s.NoneQueued →
    (s.qp p.qp).outstanding.find? (·.psn == p.psn) = some r →
    let u := (s.atPort qy p).notify p
    let left := (s.qp p.qp).outstanding.filter (·.psn != r.psn)
    let more := (u.retired p.qp r.psn).owes r.owner
    (∀ c q id f j, p.op = 0x41 → lengthBad p = false → r.op = 1 → p.status = 0 → p.nunits.toNat = r.nunits → more = true →
      r.owner = .instr c q id → s.flight c q id = some f → f.work = .gather j → ∃ t, exec (.readResp qy p) s = .next t ∧
      (t.qp p.qp).outstanding = left ∧ t.mem = s.mem ∧ t.bufs = s.bufs ∧ s.QueuesBut t c q ∧
      t.queue c q = { s.queue c q with inflight := (s.queue c q).inflight.map fun g => if g.id = f.id then
        { g with work := .gather { j with units := j.units ++ unitsRead r (some p) }, hold := .none } else g }) ∧
    (∀ c q id f, p.op = 0x42 → (s.qp p.qp).outstanding = [r] → ackable r = true → p.nunits = 0 → p.status = 0 →
      r.owner = .instr c q id → s.flight c q id = some f → f.work = .acks → ∃ t, exec (.ack qy p) s = .next t ∧
      (t.qp p.qp).outstanding = [] ∧ t.mem = s.mem ∧ t.bufs = s.bufs ∧ s.QueuesBut t c q ∧
      t.queue c q = { s.queue c q with inflight := (s.queue c q).inflight.map fun g => if g.id = f.id then
        { g with work := if more then .acks else .done, hold := .none } else g }) ∧
    (∀ c q id f res, p.op = 0x44 → (r.op = 4 ∨ r.op = 5) → p.nunits = 0 → p.status = 0 → c < 96 → res % 8 = 0 →
      r.owner = .instr c q id → s.flight c q id = some f → f.work = .atomic res → s.deadAt (chamPa c res) = none →
      ∃ t, exec (.atomicResp qy p) s = .next t ∧ (t.qp p.qp).outstanding = left ∧ t.bufs = s.bufs ∧ s.QueuesBut t c q ∧
      memRead t.mem (chamPa c res) 8 = leBytes 8 p.opa.toNat ∧ s.BytesBut t (chamPa c res) 8 ∧
      t.queue c q = { s.queue c q with inflight := (s.queue c q).inflight.map fun g => if g.id = f.id then
        { g with work := .done, hold := .none } else g }) ∧
    (p.op = 0x4D → p.nunits = 0 → p.status = 0 → ∃ t, exec (.rnr qy p) s = .next t ∧ s.CoresKept t ∧
      (t.qp p.qp).holdOff = true ∧ (t.qp p.qp).resume = some r.psn ∧
      (t.qp p.qp).outstanding = (s.qp p.qp).outstanding.map fun o => if o.psn = r.psn then { o with tries := 0 } else o) ∧
    (∀ o rest, p.op = 0x4E → p.nunits = 0 → p.status = 0 → (s.qp p.qp).outstanding = o :: rest → o.tries < s.qpFld p.qp 0 50 3 →
      ∃ t, exec (.nakSeq qy p) s = .next t ∧ s.CoresKept t ∧
        (t.qp p.qp).outstanding.map Req.psn = (s.qp p.qp).outstanding.map Req.psn ∧ ∀ y ∈ (t.qp p.qp).outstanding, y.retx = true) ∧
    (∀ code x, p.op = 0x4F → p.nunits = 0 → refusalCode p.status.toNat = some code → r.owner = .kerb x →
      ∃ t, exec (.refuse qy p) s = .next t ∧ s.CoresKept t ∧ (t.qp p.qp).outstanding = left ∧
        t.regBit (quayK (s.qpQuay p.qp) 0x50) 63 = true) ∧
    (p.op = 0x4F → p.nunits = 0 → p.status = 1 → r.refusals + 1 < s.epochTries (s.qpQuay p.qp) →
      ∃ t, exec (.refuse qy p) s = .next t ∧ s.CoresKept t ∧ (t.qp p.qp).holdOff = true ∧
        (t.qp p.qp).resume = some r.psn ∧ (t.qp p.qp).outstanding = (s.qp p.qp).outstanding.map fun o =>
          if o.psn = r.psn then { o with refusals := o.refusals + 1, tries := 0 } else o)

/-- Timers and commands of a queue pair: the end of an RNR delay or an epoch delay has its outstanding requests sent again from the one that
was turned away, a retransmission timeout with tries left all of them, once its class may send; READY sets the line's rate on a queue pair
in RESET, RESET leaves ERROR, and ERROR or the last try ends requests that the kerb monitor owns; a transition that the state does not allow
sets REFUSED; another context's command does nothing. -/
def Obligations.QueuePairsMove : Prop :=
  ∀ (qp : BitVec 14) (s : State),
    let n := qp.toNat
    let x := s.qp n
    let again : Nat → State → Prop := fun i t => s.CoresKept t ∧ (t.qp n).holdOff = false ∧
      (t.qp n).outstanding.map Req.psn = x.outstanding.map Req.psn ∧ ∀ o ∈ (t.qp n).outstanding.drop i, o.retx = true
    let entry : State → Nat → Prop := fun t st => t.queues = s.queues ∧ t.bufs = s.bufs ∧ s.UnitsBut t (s.qpEntry n) ∧
      ∀ pa, s.qpPlace n 0 = .mem pa → s.deadAt pa = none → t.qpState n = st
    let failed : State → Prop := fun t => (t.qp n).outstanding = [] ∧ (t.qp n).queued = [] ∧ (t.qp n).holdOff = false ∧ entry t 2
    let kerbOwned := ∀ r ∈ x.outstanding ++ x.queued, ∃ c, r.owner = .kerb c
    (∀ pre r post, x.holdOff = true → s.qpState n = 1 → s.NoneQueued → x.outstanding = pre ++ r :: post → x.resume = some r.psn →
      (∀ y ∈ pre, y.psn ≠ r.psn) → (∃ t, exec (.rnrDelayExpiry qp) s = .next t ∧ again pre.length t) ∧
        (∃ t, exec (.epochRetry qp) s = .next t ∧ again pre.length t)) ∧
    (∀ r rest, x.outstanding = r :: rest → s.qpState n = 1 → x.holdOff = false →
      (r.tries < s.qpFld n 0 50 3 → s.NoneQueued → ∃ t, exec (.retransmitTimeout qp) s = .next t ∧ again 0 t ∧
        (s.canSend n = true → ((t.qp n).outstanding.head?).map Req.tries = some (r.tries + 1)) ∧
        (s.canSend n = false → ((t.qp n).outstanding.head?).map Req.due = some true)) ∧
      (s.qpFld n 0 50 3 ≤ r.tries → kerbOwned → ∃ t, exec (.retransmitTimeout qp) s = .next t ∧ failed t)) ∧
    (s.qpState n = 0 → s.qpFld n 0 54 2 ≠ 3 → ∃ t, exec (.qpReady 0 qp) s = .next t ∧ entry t 1 ∧ s.RegsBut t storeKeys ∧
      ∀ pa, s.qpPlace n 0 = .mem pa → s.deadAt pa = none → t.qpFld n 6 32 32 = s.lineRate (s.qpQuay n) ∧
        t.qpFld n 6 0 32 = s.lineRate (s.qpQuay n)) ∧
    (s.qpState n = 2 → ∃ t, exec (.qpReset 0 qp) s = .next t ∧ entry t 0 ∧ (t.qp n).gapNak = false ∧ (t.qp n).holdOff = false ∧
      s.RegsBut t storeKeys) ∧
    (kerbOwned → ∃ t, exec (.qpError 0 qp) s = .next t ∧ failed t) ∧
    ((s.qpState n ≠ 0 → ∃ t, exec (.qpReady 0 qp) s = .next t ∧ s.OnlyRegs t [fabK 0 0x10] ∧ t.regBit (fabK 0 0x10) 61 = true) ∧
      (s.qpState n ≠ 2 → ∃ t, exec (.qpReset 0 qp) s = .next t ∧ s.OnlyRegs t [fabK 0 0x10] ∧ t.regBit (fabK 0 0x10) 61 = true)) ∧
    ∀ ctx : Fin 16, ctx.val ≠ 0 → exec (.qpReady ctx qp) s = .next s ∧ exec (.qpReset ctx qp) s = .next s ∧
      exec (.qpError ctx qp) s = .next s

/-- Rates, pauses and frames at a quay: a congestion notification cuts the rate of a READY queue pair and makes it the target; the timer
halves the way to the target; pause frames and storms set and clear the pause of an enabled class, whose answers wait meanwhile; a packet
waits behind those of its class that wait; management frames pass or are dropped, and a dropped frame counts under its reason. -/
def Obligations.QuaysPaceAndPause : Prop :=
  ∀ (qy : Fin 8) (s : State), s.NoneQueued →
    (∀ qp : BitVec 14, s.linkUp qy = true → s.qpState qp.toNat = 1 → ∃ t, exec (.congestionNotification qy qp.toNat) s = .next t ∧
      t.queues = s.queues ∧ t.bufs = s.bufs ∧ s.UnitsBut t (s.qpEntry qp.toNat) ∧ (t.qp qp.toNat).stage = 0 ∧
      t.reg (quayK qy 0x160) = s.reg (quayK qy 0x160) + 1 ∧
      t.qpFld qp.toNat 6 0 32 = s.qpFld qp.toNat 6 32 32 ∧ t.qpFld qp.toNat 6 32 32 =
        max (s.regFld (quayK (s.qpQuay qp.toNat) 0x40) 16 16) (s.qpFld qp.toNat 6 32 32 -
          s.qpFld qp.toNat 6 32 32 * s.regFld (quayK (s.qpQuay qp.toNat) 0x40) 56 8 / 256)) ∧
    (∀ qp : BitVec 14, s.qpState qp.toNat = 1 →
      let n := qp.toNat
      let line := s.lineRate (s.qpQuay n)
      let target := if (s.qp n).stage < 5 then s.qpFld n 6 0 32
        else min line (s.qpFld n 6 0 32 + s.regFld (quayK (s.qpQuay n) 0x40) 0 16)
      ∃ t, exec (.ccTick qp) s = .next t ∧ t.queues = s.queues ∧ t.bufs = s.bufs ∧ t.regs = s.regs ∧
        s.UnitsBut t (s.qpEntry n) ∧ t.qpFld n 6 0 32 = target ∧ t.qpFld n 6 32 32 = min line ((s.qpFld n 6 32 32 + target) / 2) ∧
        (t.qp n).stage = (if (s.qp n).stage < 5 then (s.qp n).stage + 1 else (s.qp n).stage)) ∧
    (∀ (cls : Fin 4) (x : Bool), s.linkUp qy = true → s.regBit (quayK qy 0x30) (12 + cls) = true → s.storm qy cls = false →
      ∃ t, exec (.pauseFrame qy cls x) s = .next t ∧ t = { s with paused := t.paused } ∧
        tgetD t.paused (4 * qy + cls) false = x ∧
        ∀ k, k ≠ 4 * qy.val + cls.val → tgetD t.paused k false = tgetD s.paused k false) ∧
    (∀ cls : Fin 4, s.classPaused qy cls = true → s.regFld (quayK qy 0x30) 48 16 ≠ 0 →
      ∃ t, exec (.pfcWatchdogExpiry qy cls) s = .next t ∧ s.CoresKept t ∧ t.storm qy cls = true ∧ t.classPaused qy cls = false ∧
        s.RegsBut t (quayK qy 8 :: reportKeys 0xFF)) ∧
    (∀ cls : Fin 4, ∃ t, exec (.pfcStormEnd qy cls) s = .next t ∧ t.storm qy cls = false ∧ s.OnlyRegs t [quayK qy 8]) ∧
    (s.linkUp qy = true → exec (.managementFrame qy false) s = .next { s with tx := .frame qy :: s.tx }) ∧
    (∀ p : Packet, s.TakesPacket qy p → lengthBad p = false →
      let u := (s.atPort qy p).notify p
      u.order p = .duplicate → u.headReason p 2 = none → u.canSend p.qp = false → ∃ t, exec (.write qy p) s = .next t ∧
        t = { u with qps := t.qps } ∧ t.qp p.qp = { u.qp p.qp with waiting := (u.qp p.qp).waiting ++ [some (u.answer p 0x42)] }) ∧
    (∀ p : Packet, s.linkUp qy = true → lengthBad p = false →
      let u := s.atPort qy p
      let cls := u.rxClassOf qy p
      (u.rxOf qy cls).waiting ≠ [] → u.rxFull qy cls (rxBytes p) = false → u.spillsNow qy cls = false → u.pfcOn qy cls = false →
        ∃ t, exec (.write qy p) s = .next t ∧ t = { u with rx := t.rx } ∧
          t.rxOf qy cls = { u.rxOf qy cls with waiting := (u.rxOf qy cls).waiting ++ [{ kind := 2, pkt := p, spill := none }] }) ∧
    (∀ reason : Fin 8, s.linkUp qy = true → ∃ t, exec (.droppedFrame qy reason) s = .next t ∧ s.CoresKept t ∧
      t.reg (quayK qy (0x100 + 8 * reason)) = s.reg (quayK qy (0x100 + 8 * reason)) + 1 ∧
      s.RegsBut t (quayK qy (0x100 + 8 * reason) :: reportKeys 0xFF))

/-- Links: context 0 writes QUAY_CTRL; MODE changes only while EN is 0, and a reserved code is refused with BADMODE; EN 0 takes the link
down; a quay with EN and lanes may come up, and a link that is lost goes down, with the answers that waited there. -/
def Obligations.QuayLinksComeAndGo : Prop :=
  ∀ (qy : Fin 8) (s : State),
    (∀ v : W64, s.regBit (quayK qy 0) 3 = false → fld v 0 3 < 5 → ∃ t, exec (.quayModeWrite 0 qy v) s = .next t ∧
      t.regFld (quayK qy 0) 0 3 = fld v 0 3 ∧ t.regBit (quayK qy 0) 3 = bitAt v 3 ∧ s.CoresKept t ∧
      s.RegsBut t ([quayK qy 0, quayK qy 8] ++ reportKeys 0xFF)) ∧
    (∀ v : W64, s.regBit (quayK qy 0) 3 = false → 5 ≤ fld v 0 3 → ∃ t, exec (.quayModeWrite 0 qy v) s = .next t ∧
      t.regFld (quayK qy 0) 0 3 = s.regFld (quayK qy 0) 0 3 ∧ t.regBit (quayK qy 8) 58 = true) ∧
    (∀ v : W64, ∃ t, exec (.quayEnWrite 0 qy v) s = .next t ∧ t.regBit (quayK qy 0) 3 = bitAt v 3 ∧ s.CoresKept t ∧
      (s.regBit (quayK qy 0) 3 = true → t.regFld (quayK qy 0) 0 3 = s.regFld (quayK qy 0) 0 3) ∧
      (bitAt v 3 = false → t.linkUp qy = false) ∧ s.RegsBut t ([quayK qy 0, quayK qy 8] ++ reportKeys 0xFF)) ∧
    (s.NoneQueued → s.regBit (quayK qy 0) 3 = true → s.regFld (quayK qy 0) 0 3 ≠ 0 → s.linkUp qy = false →
      ∃ t, exec (.quayLinkUp qy) s = .next t ∧ t.linkUp qy = true ∧ s.Reported t 0xFF [quayK qy 8]) ∧
    (s.linkUp qy = true → ∃ t, exec (.quayLinkDown qy) s = .next t ∧ t.linkUp qy = false ∧ s.CoresKept t ∧
      s.RegsBut t (quayK qy 8 :: reportKeys 0xFF) ∧
      ∀ n, t.qp n = if s.qpQuay n = qy then { s.qp n with waiting := [] } else s.qp n)

/-! Contexts and the configuration epoch (R11, R377 to R390) -/

/-- A context other than 0 that writes a register of context 0's is logged, and nothing else happens. -/
def Obligations.OnlyContextZeroCommands : Prop :=
  ∀ (ctx : Fin 16) (v : W64) (d : Fin 2) (qy : Fin 8) (st : Fin 12) (ch l : Fin 32) (mask src : BitVec 16) (s : State), ctx.val ≠ 0 →
    ∀ i ∈ [Instr.svnRaise ctx v, .clockSwitch ctx d v, .pkgRstWarm ctx v, .wdogKick ctx v, .quayModeWrite ctx qy v,
        .quayEnWrite ctx qy v, .offlineWrite ctx st v, .echoGo ctx st ch v, .rebind ctx mask, .errDisableGo ctx d src,
        .errDisableEnable ctx d src, .compute ctx, .advance ctx, .computeThenAdvance ctx, .epochWrite ctx v, .gateRequest ctx d v,
        .xrdForce ctx l],
      ∃ t, exec i s = .next t ∧ s.Reported t ctx []

/-- REBIND by context 0: a refused one only leaves its code in BIND_STAT; an accepted one that releases no queue pair stops the queues of
the clusters it releases and drops the snapshots of contexts that lose their last, and is under way. -/
def Obligations.RebindStarts : Prop :=
  ∀ (mask : BitVec 16) (s : State),
    (∀ e, s.rebindCheck mask = some e → ∃ t, exec (.rebind 0 mask) s = .next t ∧ s.OnlyRegs t [bindRegK 8] ∧
      t.regFld (bindRegK 8) 32 16 = e.toNat) ∧
    (s.rebindCheck mask = none → (s.rebindPlan mask).qps = [] → ∃ t, exec (.rebind 0 mask) s = .next t ∧
      t.rebind = some (s.rebindPlan mask) ∧ t.mem = s.mem ∧ t.bufs = s.bufs ∧
      s.RegsBut t ((s.rebindPlan mask).lost.flatMap fun x => (List.range 4).map (snapK x)) ∧
      (∀ x ∈ (s.rebindPlan mask).lost, ∀ i : Fin 4, t.regBit (snapK x i) 63 = false) ∧
      ∀ c q, (c / 6 ∈ (s.rebindPlan mask).clusters → t.queue c q = (s.queue c q).stop) ∧
        (c / 6 ∉ (s.rebindPlan mask).clusters → t.queue c q = s.queue c q))

/-- The phases of a re-bind: the drain timeout abandons what is in flight on released clusters and counts it; the drained re-bind is
fenced, no masked context names a released cluster any more nor waits on a released line (DEDUCED, log 90), and gated clusters wake for the
scrub (log 58); the scrub of clusters that are awake leaves released granules of working memory 0 and ends in the swap, which sets DONE and
STALE, unless a COMPUTE holds it. What is disabled is neither woken nor scrubbed. The staged copies are those that BIND_CMD latched (DEDUCED,
log 15). -/
def Obligations.RebindEnds : Prop :=
  ∀ (s : State) (r : Rebind), s.rebind = some r →
    (r.phase = .drain → s.inflightOn (clusterCores r.clusters) ≠ 0 → ∃ t, exec .rebindDrainTimeout s = .next t ∧ t.mem = s.mem ∧
      t.rebind = some { r with late := true } ∧ (∀ g ∈ r.clusters, ∀ k q, k < 6 → (t.queue (6 * g + k) q).inflight = []) ∧
      t.regFld (bindRegK 8) 32 16 = Code.BIND_DRAIN_ABANDONED.toNat ∧ t.regFld (bindRegK 8) 0 32 =
        (s.regFld (bindRegK 8) 0 32 + s.inflightOn (clusterCores r.clusters)) % 2 ^ 32) ∧
    (r.phase = .drain → s.inflightOn (clusterCores r.clusters) = 0 →
      exec .rebindDrainTimeout s = .next { s with rebind := some { r with late := true } }) ∧
    (r.phase = .drain → s.drained r = true → s.compute = none → ∃ t, exec .rebindDrainEnd s = .next t ∧
      t = { s with regs := t.regs, queues := t.queues, rebind := t.rebind, waking := t.waking } ∧
      (∀ c q, (t.queue c q).mode = (s.queue c q).mode ∧ (t.queue c q).pc = (s.queue c q).pc ∧
        (t.queue c q).inflight.map InFlight.id = (s.queue c q).inflight.map InFlight.id ∧
        (r.mask.getLsbD (s.ctxOf c) = true → ∀ l ∈ r.lines, (t.queue c q).lineWait ≠ some l) ∧
        (r.mask.getLsbD (s.ctxOf c) = false → t.queue c q = s.queue c q)) ∧
      (∀ g ∈ (s.scrubbed r).clusters, s.gate g ≠ 0 → (tget t.waking g).isSome = true) ∧
      t.rebind = some { r with phase := .scrub } ∧ (∀ k, k < 0x110000 ∨ 0x200000 ≤ k → t.reg k = s.reg k) ∧
      ∀ (ctx v : Fin 16) (g : Nat), ctx.val ≠ 0 → r.mask.getLsbD ctx = true → g ∈ r.clusters → t.cluOf ctx v ≠ some g) ∧
    (r.phase = .scrub → s.testOwed r = false → (∀ g ∈ (s.scrubbed r).clusters, s.gate g = 0) → s.compute = none →
      (∀ g ∈ (s.scrubbed r).grans, s.scrubFails g = none) →
      ∃ t, exec (.rebindScrubEnd []) s = .next t ∧ t.rebind = none ∧
      t.regBit (bindRegK 8) 62 = true ∧ t.regBit (cfgK 0x10) 62 = true ∧
      ∀ g ∈ (s.scrubbed r).grans, s.regBit (stkK (g / 64) 0) 0 = false → ∀ x, g * 0x40000000 ≤ x → x < (g + 1) * 0x40000000 →
        memByte t.mem x = 0) ∧
    (r.phase = .scrub → s.testOwed r = false → (∀ g ∈ (s.scrubbed r).clusters, s.gate g = 0) → s.compute.isSome = true →
      ∃ t, exec (.rebindScrubEnd []) s = .next t ∧
      t.rebind = some { r with phase := .swapHeld })

/-- COMPUTE, ADVANCE, both, and CFG_EPOCH by context 0: a reserved section is refused; a COMPUTE waits for a re-bind and an ADVANCE for a
COMPUTE; the end of a COMPUTE puts the SHA-256 of its preimage, formed before a fence that came first, in CFG_DIGEST, and the ADVANCEs that
waited follow; ADVANCE copies it and moves the epoch on; CFG_EPOCH is
locked while a quay has EN. What overlapping commands do is the model's choice (log 45). -/
def Obligations.EpochsAdvance : Prop :=
  ∀ s : State,
    let digest : List Byte → Nat → W64 := fun d i => BitVec.ofNat 64 (beNat ((d.drop (8 * i)).take 8))
    let ready := sectOk (s.regFld (cfgK 0) 0 16) = true ∧ s.compute = none ∧ s.computeWait = false
    let job := (BitVec.ofNat 16 (s.regFld (cfgK 0) 0 16), BitVec.ofNat 16 (s.regFld (cfgK 0) 16 16))
    (ready → s.rebind = none → (∃ t, exec (.compute 0) s = .next t ∧ t = { s with compute := t.compute } ∧ t.compute = some job) ∧
      ∃ t, exec (.computeThenAdvance 0) s = .next t ∧ t = { s with compute := t.compute, advanceWait := s.advanceWait + 1 } ∧
        t.compute = some job) ∧
    (ready → s.rebind.isSome = true → ∃ t, exec (.compute 0) s = .next t ∧ t = { s with computeWait := true }) ∧
    (sectOk (s.regFld (cfgK 0) 0 16) = false → ∃ t, exec (.compute 0) s = .next t ∧ s.OnlyRegs t [cfgK 0x10] ∧
      t.regBit (cfgK 0x10) 60 = true) ∧
    (s.compute = none → s.computeWait = false → ∃ t, exec (.advance 0) s = .next t ∧ t.epoch = s.epoch + 1 ∧
      t.mgmt.advanced = s.epoch + 1 ∧ s.CoresKept t ∧
      s.RegsBut t [cfgK 0x18, cfgK 0x40, cfgK 0x48, cfgK 0x50, cfgK 0x58] ∧
      ∀ i : Fin 4, t.reg (cfgK (0x40 + 8 * i)) = s.reg (cfgK (0x20 + 8 * i))) ∧
    (s.compute.isSome = true → exec (.advance 0) s = .next { s with advanceWait := s.advanceWait + 1 }) ∧
    (s.compute.isSome = true → s.rebind = none → s.computeWait = false → s.Awake → ∃ t, exec .computeEnd s = .next t ∧
      t.epoch = s.epoch + BitVec.ofNat 32 s.advanceWait ∧ t.advanceWait = 0) ∧
    (∀ a b h, s.compute = some (a, b) → s.rebind = none → s.advanceWait = 0 → s.Awake →
      (s.formed = some h ∨ (s.formed = none ∧ h = (sha256 (s.preimage a b).1, (s.preimage a b).2))) → ∃ t, exec .computeEnd s = .next t ∧
      t.compute = none ∧ s.CoresKept t ∧ s.RegsBut t [cfgK 0x10, cfgK 0x20, cfgK 0x28, cfgK 0x30, cfgK 0x38] ∧
      t.regBit (cfgK 0x10) 62 = false ∧ (h.2 = true → t.regBit (cfgK 0x10) 61 = true) ∧
      ∀ i : Fin 4, t.reg (cfgK (0x20 + 8 * i)) = digest h.1 i) ∧
    (∀ v : W64, (∀ qy : Fin 8, s.regBit (quayK qy 0) 3 = false) → ∃ t, exec (.epochWrite 0 v) s = .next t ∧
      t.epoch = BitVec.ofNat 32 (fld v 0 32) ∧ s.OnlyRegs t [cfgK 0x18]) ∧
    ∀ (v : W64) (qy : Fin 8), s.regBit (quayK qy 0) 3 = true → ∃ t, exec (.epochWrite 0 v) s = .next t ∧ t.epoch = s.epoch ∧
      t.regBit (cfgK 0x10) 59 = true ∧ s.Reported t 0xFF [cfgK 0x10]

/-! Reports, self-tests and the disabling of units (R391 to R402) -/

/-- What a report does, at the command THROT_N_ASSERT: it merges into an unsent record of its kind, code and source; on a full ring it is
counted as lost; else it is the next record, after one of kind 0x09 where records have been lost. -/
def Obligations.ReportsMergeOrFollow : Prop :=
  ∀ s : State, s.throtN = true →
    let code := Code.PWR_PIN_THROTTLE
    let src := srcOf 0xC 0
    let seq := BitVec.ofNat 32 (s.regFld (dieK 0 0x350010) 32 32)
    (∀ r, s.mergeWith 0x0A code src = some r → ∃ t, exec .throtNAssert s = .next t ∧ t.ring = s.ring.map (raiseCount r.seq) ∧
      t = { s with throtN := false, ring := t.ring }) ∧
    (s.mergeWith 0x0A code src = none → 4096 ≤ s.ring.length + (if s.lostSince = 0 then 0 else 1) →
      ∃ t, exec .throtNAssert s = .next t ∧ t = { s with throtN := false, regs := t.regs, lostSince := s.lostSince + 1 } ∧
        s.RegsBut t [dieK 0 0x350010] ∧
        t.regFld (dieK 0 0x350010) 0 32 = min (s.regFld (dieK 0 0x350010) 0 32 + 1) (2 ^ 32 - 1)) ∧
    (s.mergeWith 0x0A code src = none → s.ring.length < 4096 → s.lostSince = 0 → s.portUp = false →
      ∃ t r, exec .throtNAssert s = .next t ∧ s.CoresKept t ∧ t.throtN = false ∧ t.ring = s.ring ++ [r] ∧
        t.unsent = s.unsent ++ [r.seq] ∧ r.seq = seq + 1 ∧ r.kind = 0x0A ∧ r.code = code ∧ r.source = src ∧ r.time = s.time ∧
        r.count = 1 ∧ r.context = 0xFF ∧ r.epoch = s.epoch ∧ s.RegsBut t [dieK 0 0x350010] ∧
        t.regFld (dieK 0 0x350010) 32 32 = r.seq.toNat) ∧
    (s.mergeWith 0x0A code src = none → s.ring.length < 4095 → s.lostSince ≠ 0 → s.portUp = false →
      ∃ t a r, exec .throtNAssert s = .next t ∧ t.ring = s.ring ++ [a, r] ∧ a.kind = 9 ∧ a.count = min s.lostSince 0xFFFF ∧
        a.seq = seq + 1 ∧ r.kind = 0x0A ∧ r.code = code ∧ r.seq = seq + 2 ∧ t.lostSince = 0)

/-- Self-tests and row repair: the oldest test starts when none runs, unless its unit is disabled, and waits while its cluster must
wake; its end keeps a passing unit's verdict and leaves none running; a repaired row's pseudo-channel has one spare row more in use. -/
def Obligations.SelfTestsRun : Prop :=
  (∀ (d : Fin 2) (s : State) (x : Test) (r : List Test), (s.die d).running = none → (s.die d).tests = x :: r →
    (∀ g, s.asleep x.source = some g → ∃ t, exec (.selfTestStart d) s = .next t ∧ t = { s with waking := t.waking } ∧
      tget t.waking g = some (tgetD s.waking g [] ++ [.selfTestStart d])) ∧
    (s.unitOff x.source = false → s.asleep x.source = none → ∃ t, exec (.selfTestStart d) s = .next t ∧
      (t.die d).running = some x ∧ (t.die d).tests = r ∧ t.mem = s.mem ∧ t.regs = s.regs) ∧
    (s.unitOff x.source = true → ∃ t, exec (.selfTestStart d) s = .next t ∧ (t.die d).running = none ∧ (t.die d).tests = r ∧
      s.CoresKept t ∧ s.RegsBut t (reportKeys 0xFF))) ∧
  (∀ (d : Fin 2) (passed : Bool) (s : State) (x : Test), (s.die d).running = some x → ∃ t, exec (.selfTestEnd d passed) s = .next t ∧
    (t.die d).running = none ∧ (t.die d).tests = (s.die d).tests ∧
    (passed = true → t.faults.verdicts = s.faults.verdicts ++ [(x.source, s.faults.hours)]) ∧
    (passed = false → t.faults.verdicts = s.faults.verdicts) ∧
    (srcType x.source ≠ 8 → t.mem = s.mem) ∧ (srcType x.source = 8 → s.UnitsBut t [x.addr / 64 * 64]) ∧
    (passed = false → srcType x.source ≠ 8 → s.autoDis x.source = true → s.unitOff x.source = false →
      t.disabling.contains x.source = true)) ∧
  ∀ (st : Fin 12) (s : State) (p a : Nat) (r : List (Nat × Nat)), (s.stack st).repair = (p, a) :: r →
    ∃ t, exec (.rowRepairEnd st) s = .next t ∧ (t.stack st).repair = r ∧ s.CoresKept t ∧ s.RegsBut t (reportKeys 0xFF) ∧
      tgetD t.faults.spares (64 * st + p) 0 = tgetD s.faults.spares (64 * st + p) 0 + 1

/-- Disabling: GO stops the queues of the unit's cores and leaves it to be marked; marking abandons what they have in flight and lists the
unit as disabled; ENABLE only takes it from the list at the next reset. The table is in the flash with each change (DEDUCED, log 51);
what is abandoned ends as in a re-bind (logs 15 and 90). -/
def Obligations.UnitsAreDisabled : Prop :=
  ∀ (d : Fin 2) (src : W16) (s : State),
    (canDisable src = true → s.unitOff src = false → s.disabling.contains src = false → ∃ t, exec (.errDisableGo 0 d src) s = .next t ∧
      t = { s with queues := t.queues, disabling := s.disabling ++ [src] } ∧
      ∀ c q, (c ∈ coresOf src → t.queue c q = (s.queue c q).stop) ∧ (c ∉ coresOf src → t.queue c q = s.queue c q)) ∧
    (canDisable src = false → exec (.errDisableGo 0 d src) s = .next s) ∧
    (∃ t, exec (.errDisableEnable 0 d src) s = .next t ∧ t = { s with enables := t.enables } ∧ t.enables.contains src = true) ∧
    (s.disabling.contains src = true → (∀ c q, c ∈ coresOf src → (s.queue c q).lineWait = none) →
      ∃ t, exec (.unitDisableMark src) s = .next t ∧ t.disabled = s.disabled ++ [src] ∧
      t.disabling = s.disabling.erase src ∧ t.faults.disabled = s.faults.disabled ++ [src] ∧ t.mem = s.mem ∧ t.bufs = s.bufs ∧
      ∀ c q, c ∈ coresOf src → (t.queue c q).inflight = [])

/-! Resets, boot, clocks, supply and temperature (R409 to R434, R458) -/

/-- Resets: each kind records itself in PKG_RSTCAUSE, of several causes in one reference cycle (that is, with no count of the clock between
them: DEDUCED, log 102) the first in the manual's order; each keeps fuses and pending commands, ends every queue's work and empties the
report ring; the warm kinds keep time and memory and start at the ROM, the others wait for the reference; PKG_RST needs its key and a clock;
a device held in reset takes no supply or watchdog reset; a loss of VDD_IO clears the always-on domain (log 66; which rail fell is free, log
102), and each cause is a command of the sender (log 20). Release, then a running reference, lead to the PLL stage; restarting the reference
count changes nothing that the model holds; WDOG_KICK stores TIMEOUT. That only a POWER_ON loses what memory holds is the model's choice
(log 2), as is what flash a reset leaves (log 51). -/
def Obligations.ResetsRecordTheirKind : Prop :=
  (∀ s : State,
    let after : State → BitVec 3 → Prop := fun t k => t.rstLast = k ∧ t.fuses = s.fuses ∧ t.pending = s.pending ∧ t.ring = [] ∧
      t.queues = [] ∧ t.bufs = [] ∧ t.sigs = [] ∧ t.kerb = [] ∧ t.rebind = none ∧ t.mgmt.key = none
    let warm : State → BitVec 3 → Prop := fun t k => after t k ∧ t.boot = .rom ∧ t.time = s.time ∧ t.time1 = s.time1 ∧ t.mem = s.mem ∧
      t.rstSeen = s.rstSeen ||| (1 <<< k.toNat) ∧ t.reg (pkgK 0x118) = s.reg (pkgK 0x118)
    let y := s.cycleNow
    let first : List RstCause → BitVec 3 := fun cs => if .powerOn ∈ cs then 0 else if .supply ∈ cs then 1 else if .reference ∈ cs then 6
      else if .thermal ∈ cs then 2 else 3
    let cold : State → RstCause → Prop := fun t c =>
      let k := first (c :: y.causes)
      after t k ∧ t.boot = .refWait ∧ t.time = 0 ∧ t.time1 = 0 ∧ t.refStarted = false ∧ t.cycle = some { y with causes := c :: y.causes } ∧
      (k = 0 → t.rstSeen = 0) ∧ (k ≠ 0 → t.mem = s.mem ∧ t.rstSeen = y.seen ||| (1 <<< k.toNat))
    let dry : State → RstCause → Prop := fun t c => cold t c ∧ t.reg (pkgK 0x118) = s.reg (pkgK 0x118) ∧ t.thermtrip = s.thermtrip
    (∀ v : W64, fld v 48 16 = 0xA5C3 → fld v 0 2 = 1 → s.domHung 0 2 = false → ∃ t, exec (.pkgRstWarm 0 v) s = .next t ∧ warm t 4) ∧
    (∀ v : W64, (fld v 48 16 ≠ 0xA5C3 ∨ fld v 0 2 ≠ 1 ∨ s.domHung 0 2 = true) → exec (.pkgRstWarm 0 v) s = .next s) ∧
    (s.regFld (pkgK 0x118) 0 16 ≠ 0 → s.released = true → ∃ t, exec .wdogExpiry s = .next t ∧ warm t 5) ∧
    ((s.regFld (pkgK 0x118) 0 16 = 0 ∨ s.released = false) → exec .wdogExpiry s = .next s) ∧
    (∃ t, exec .powerOnReset s = .next t ∧ cold t .powerOn ∧ t.released = false ∧
      ((t.reg (pkgK 0x118) = s.reg (pkgK 0x118) ∧ t.thermtrip = s.thermtrip) ∨ (t.reg (pkgK 0x118) = 0 ∧ t.thermtrip = []))) ∧
    (y.released = true → ∃ t, exec .supplyReset s = .next t ∧ dry t .supply ∧ t.released = false) ∧
    (y.released = false → exec .supplyReset s = .next s) ∧
    (∀ d mv, mv ≤ 500 → exec (.droopWarning d mv) s = exec .supplyReset s) ∧
    (∃ t, exec .pinReset s = .next t ∧ dry t .pin ∧ t.released = false) ∧
    (y.started = true → ∃ t, exec .referenceLost s = .next t ∧ dry t .reference ∧
      t.released = (if .powerOn ∈ y.causes ∨ .supply ∈ y.causes ∨ .pin ∈ y.causes then false else s.released)) ∧
    (y.started = false → exec .referenceLost s = .next s)) ∧
  (∀ s : State,
    exec .resetRelease s = .next { s with released := true, cycle := none } ∧
    (s.released = true → s.boot = .refWait → s.thermtrip = [] → ∃ t, exec .referenceStarted s = .next t ∧ t.refStarted = true ∧
      t.boot = .pll ∧ t = { s with refStarted := t.refStarted, boot := t.boot, cycle := none }) ∧
    ((s.released = false ∨ s.boot ≠ .refWait ∨ s.thermtrip ≠ []) → exec .referenceStarted s = .next s) ∧
    exec .refcountRestart s = .next s ∧
    ∀ v : W64, ∃ t, exec (.wdogKick 0 v) s = .next t ∧ s.OnlyRegs t [pkgK 0x118] ∧ t.regFld (pkgK 0x118) 0 16 = fld v 0 16)

/-- Clock switches: with LEGACY a permitted selection takes effect at once; without it the domains are gated until CLOCK_UNGATE; a
selection that needs an unlocked PLL is refused; a locked PLL clocks the boot, and a lost one is counted and left, with no switch to it under
way. A die that enters or leaves its PLL during a dip has its clock stretched, or no longer. -/
def Obligations.ClocksSwitch : Prop :=  ∀ (d : Fin 2) (s : State),
    (∀ v : W64,
      let sel := fld v 0 3
      bitAt v 63 = true → sel ≠ s.srcSel d → s.regBit (clkK d 0) 62 = false → (s.die d).switch = none →
      ((s.locked d = true ∨ sel &&& (7 - s.srcSel d) = 0) → bitAt v 62 = true → ∃ t, exec (.clockSwitch 0 d v) s = .next t ∧
        t.srcSel d = sel ∧ s.OnlyRegs t [clkK d 8, clkK d 0, clkK d 0x18] ∧
        t.regBit (clkK d 0x18) 16 = (if (s.die d).dip.isSome then decide (sel ≠ 0) else s.regBit (clkK d 0x18) 16)) ∧
      ((s.locked d = true ∨ sel &&& (7 - s.srcSel d) = 0) → bitAt v 62 = false → ∃ t, exec (.clockSwitch 0 d v) s = .next t ∧
        (t.die d).switch = some (BitVec.ofNat 3 sel) ∧ s.CoresKept t ∧ s.RegsBut t [clkK d 8]) ∧
      (s.locked d = false → sel &&& (7 - s.srcSel d) ≠ 0 → ∃ t, exec (.clockSwitch 0 d v) s = .next t ∧
        t.srcSel d = s.srcSel d ∧ t.regBit (clkK d 0) 3 = true ∧ s.Reported t 0xFF [clkK d 8, clkK d 0])) ∧
    (∀ sel, (s.die d).switch = some sel → ∃ t, exec (.clockUngate d) s = .next t ∧ t.srcSel d = sel.toNat ∧
      (t.die d).switch = none ∧ s.CoresKept t ∧ s.RegsBut t [clkK d 0, clkK d 0x18] ∧ (s.boot ≠ .pll → t.boot = s.boot) ∧
      t.regBit (clkK d 0x18) 16 = (if (s.die d).dip.isSome then decide (sel ≠ 0) else s.regBit (clkK d 0x18) 16)) ∧
    (s.refStarted = true → s.locked d = false → ∃ t, exec (.pllLock d) s = .next t ∧ t.locked d = true ∧ s.CoresKept t ∧
      s.RegsBut t [clkK d 0, clkK d 0x18] ∧ (s.boot = .pll → (t.die d).switch = some 7)) ∧
    (s.locked d = true → ∃ t, exec (.pllUnlock d) s = .next t ∧ t.locked d = false ∧ s.CoresKept t ∧
      s.RegsBut t ([clkK d 0, clkK d 0x18] ++ reportKeys 0xFF) ∧
      (s.regBit (clkK d 8) 62 = true → (t.die d).switch = none) ∧
      t.regFld (clkK d 0) 16 16 = min (s.regFld (clkK d 0) 16 16 + 1) 0xFFFF ∧
      (s.srcSel d ≠ 0 → s.regBit (clkK d 8) 62 = false → (t.die d).switch = some 0))

/-- Supply, after release: a dip to 500 mV or less, with no other cause of a reset in its cycle, resets; one to the warning level stretches
the clock until it has recovered and been held, is then counted in the bucket of its lowest voltage, and asks for a throttle while it
persists; the voltage loop moves one step, by a transaction with its rail's regulator, and its third failure in a row sets AVS_FAULT. -/
def Obligations.SupplyDips : Prop :=  ∀ (d : Fin 2) (s : State),
    let k := s.die d
    (∀ mv, s.cycle = none → s.released = false → exec (.droopWarning d mv) s = .next s) ∧
    (∀ mv, s.cycle = none → s.released = true → mv ≤ 500 → ∃ t, exec (.droopWarning d mv) s = .next t ∧ t.boot = .refWait ∧
      t.rstLast = 1) ∧
    (∀ mv, s.released = true → 500 < mv → mv ≤ s.warnLevel d → ∃ t, exec (.droopWarning d mv) s = .next t ∧ s.CoresKept t ∧
      t.die d = { k with dip := some (min mv (k.dip.getD mv)), above := false, clear := false } ∧
      s.RegsBut t [clkK d 0x18] ∧ t.regBit (clkK d 0x18) 16 = decide (s.srcSel d ≠ 0)) ∧
    (∀ mv, 500 < mv → s.warnLevel d < mv → exec (.droopWarning d mv) s = .next s) ∧
    (∀ mv, ∃ t, exec (.vddCoreRecovery d mv) s = .next t ∧ t = { s with dies := t.dies } ∧
      t.die d = { k with above := k.above || decide (s.warnLevel d < mv), clear := k.clear || decide (s.warnLevel d + 10 < mv) }) ∧
    (∀ m lowest, k.dip = some m → k.clear = true →
      let b := clkK d (0x40 + 8 * min 7 ((s.vset d - min m lowest) / 10))
      ∃ t, exec (.droopHoldExpiry d lowest) s = .next t ∧ t.die d = { k with dip := none } ∧ s.CoresKept t ∧
        t.reg b = s.reg b + 1 ∧ t.regBit (clkK d 0x18) 16 = false ∧
        t.regFld (clkK d 0x18) 0 16 = min (s.regFld (clkK d 0x18) 0 16 + 1) 0xFFFF ∧
        s.RegsBut t ([b, clkK d 0x18] ++ reportKeys 0xFF)) ∧
    (k.dip.isSome = true → k.above = false → k.dipReq = false → ∃ t, exec (.droopPersistExpiry d) s = .next t ∧
      t.die d = { k with dipReq := true } ∧ s.CoresKept t ∧ s.RegsBut t (reportKeys 0xFF)) ∧
    (k.dipReq = true → k.above = true → ∃ t, exec (.dipThrottleEnd d) s = .next t ∧ t = { s with dies := t.dies } ∧
      t.die d = { k with dipReq := false }) ∧
    (s.regBit (clkK d 0x10) 63 = true →
      (∃ t, exec (.avsStep d true) s = .next t ∧ t.die d = { k with avsFails := 0 } ∧ s.RegsBut t [clkK d 0x10] ∧
        t.tx = .avs d (stepVset (s.vset d) (s.vtarget d)) :: s.tx ∧ t.vset d = stepVset (s.vset d) (s.vtarget d)) ∧
      ∃ t, exec (.avsStep d false) s = .next t ∧ t.die d = { k with avsFails := k.avsFails + 1 } ∧
        (k.avsFails = 2 → t.regBit (clkK d 0x10) 0 = true) ∧ s.RegsBut t (clkK d 0x10 :: reportKeys 0xFF) ∧ t.vset d = s.vset d)

/-- Temperatures: a junction reading below the trip is stored and sets a request whose level n is entered at ENTER + 5(n - 1) and left 3
below; at the trip a die resets once; a stack reading sets its refresh band, entered at 85, 95 and 105, its interval and throttle. -/
def Obligations.TemperaturesThrottle : Prop :=
  (∀ (d : Fin 2) (tj : BitVec 8) (s : State),
    let k := clkK d 0x20
    (tj.toNat < s.trip d → ∃ t, exec (.thermalReading d tj) s = .next t ∧ s.CoresKept t ∧ t.regFld k 56 8 = tj.toNat ∧
      s.RegsBut t (k :: reportKeys 0xFF) ∧ t.regFld k 0 2 ≤ 3 ∧
      ∀ n, 1 ≤ n → n ≤ 3 → (n ≤ t.regFld k 0 2 ↔ s.regFld k 48 8 + 5 * (n - 1) ≤ tj.toNat ∨
        (n ≤ s.regFld k 0 2 ∧ s.regFld k 48 8 + 5 * (n - 1) < tj.toNat + 3))) ∧
    (s.trip d ≤ tj.toNat → s.thermtrip.contains d.val = false → ∃ t, exec (.thermalReading d tj) s = .next t ∧
      (s.cycle = none → t.rstLast = 2) ∧ t.boot = .refWait ∧
        t.thermtrip = s.thermtrip ++ [d.val]) ∧
    (s.trip d ≤ tj.toNat → s.thermtrip.contains d.val = true → exec (.thermalReading d tj) s = .next s)) ∧
  (∀ (st : Fin 12) (x : BitVec 8) (s : State),
    let k := stkK st 0x10
    let e := s.regFld (clkK (st.val / 6) 0x20) 32 8
    ∃ t, exec (.dramTempReading st x) s = .next t ∧ s.CoresKept t ∧ s.RegsBut t (k :: reportKeys 0xFF) ∧ t.regFld k 0 8 = x.toNat ∧
      (∀ n, 1 ≤ n → n ≤ 3 → (n ≤ t.regFld k 8 2 ↔
        75 + 10 * n ≤ x.toNat ∨ (n ≤ s.regFld k 8 2 ∧ 75 + 10 * n < x.toNat + 3))) ∧
      (t.stack st).interval = (if t.regFld k 8 2 = 0 then 3900 else if t.regFld k 8 2 = 1 then 1950 else 975) ∧
      (t.stack st).throttle ≤ 2 ∧ ∀ n, 1 ≤ n → n ≤ 2 → (n ≤ (t.stack st).throttle ↔
        e + 5 * (n - 1) ≤ x.toNat ∨ (n ≤ (s.stack st).throttle ∧ e + 5 * (n - 1) < x.toNat + 3))) ∧
  (∀ s : State, exec .throtNRelease s = .next { s with throtN := true }) ∧
  ∀ s : State, s.throtN = false → exec .throtNAssert s = .next s

/-- The later boot: the fuses are measured and a verified image runs, an image that fails goes to RECOVERY; the firmware takes the newest
copy of the fault table, with the units that this boot has disabled, loads die 1's timestamp counter, and resumes signing at no index
below the newest journal entry's limit, unless signing has ended; the boot scrub leaves everything but granule 0 of each stack 0, every queue
IDLE, nothing bound, no quay enabled and the epoch 0. Which tree is built first is the model's choice (log 73), as are the places in the
flash (log 96); the newest copy of the table is in force (DEDUCED, log 51). -/
def Obligations.BootVerifiesAndScrubs : Prop :=
  (∀ s : State, s.boot = .rom → s.domHung 0 2 = false →
    ∃ t, exec .bootImageVerify s = .next t ∧ s.CoresKept t ∧ t.fuses = s.fuses ∧ s.RegsBut t [mgtK 0x48] ∧
      t.mgmt.measured = some s.fuses ∧ (s.mgmt.slotBroken = true → t.boot = .recovery) ∧
      (s.mgmt.slotBroken = false → if s.imageFails (flashSlot s.mgmt.flash) = none then
        t.boot = .firmware ∧ t.mgmt.image = some (Config.imageHeader (flashSlot s.mgmt.flash)) ∧ t.regs = s.regs
        else t.boot = .recovery)) ∧
  (∀ s : State, s.boot = .firmware → ∃ t, exec .firmwareInitEnd s = .next t ∧ t.boot = .scrub ∧
    t.mem = s.mem ∧ t.time1 = s.time ∧ s.CoresKept t ∧ s.RegsBut t [mgtK 0x48] ∧ (∀ u ∈ s.disabled, u ∈ t.disabled) ∧
    (∀ n q f, newestTab s.mgmt.flash = some (n, q, f) → (∀ u ∈ f.disabled, u ∈ t.disabled) ∧ (s.disabled = [] → t.faults = f)) ∧
    (∀ j, newestEntry s.mgmt.flash = some j → j.2 ≤ t.mgmt.next ∨ t.mgmt.exhausted = true) ∧
    t.mgmt.limit = t.mgmt.next ∧ t.mgmt.trees = t.mgmt.next / 2 ^ 20 + 1 ∧ s.FusesRise t) ∧
  ∀ (failed : List Nat) (s : State), s.boot = .scrub → ∃ t, exec (.bootScrubEnd failed) s = .next t ∧ t.boot = .ready ∧
    (∀ c q, t.queue c q = {}) ∧ t.rebind = none ∧ t.epoch = 0 ∧ (∀ qy : Fin 8, t.regBit (quayK qy 0) 3 = false) ∧
    (∀ d : Fin 2, t.regBit (clkK d 8) 62 = false) ∧ (∀ ctx v : Fin 16, ctx.val ≠ 0 → t.cluOf ctx v = none) ∧
    (∀ x, ¬(x < stackEnd ∧ x % 0x1000000000 < 0x40000000) → memByte t.mem x = 0) ∧
    ∀ x, x < stackEnd → x % 0x1000000000 < 0x40000000 → (∀ a ∈ failed, a / 64 ≠ x / 64) → memByte t.mem x = memByte s.mem x

/-! Memories, links, channels, echo units (R321 to R345) -/

/-- Reads, write-backs, masked writes and patrols of units that answer: a clean outcome changes nothing but the end of its channel's retries;
a corrected one counts and, in a stack, owes a write-back; an uncorrectable one leaves the unit as read and poisoned, and counts; a masked
write merges nibbles with a new tag, and one of less than the whole unit keeps a bad unit poisoned. No other byte of memory changes. -/
def Obligations.MemoriesAnswer : Prop :=
  ∀ (pa : Nat) (raw : UnitData) (s : State),
    let a := pa / 64 * 64
    let quiet : State → Prop := fun t => t.mem = s.mem ∧ t.regs = s.regs ∧ t.tags = s.tags ∧ t.queues = s.queues
    let bad : State → Prop := fun t => memRead t.mem a 64 = unitBytes raw ∧ t.tagAt pa = .poisoned ∧ s.BytesBut t a 64 ∧
      t.queues = s.queues ∧ t.bufs = s.bufs
    let stk := stkK (pa / 0x1000000000)
    (s.stackAnswers pa = true →
      (∃ t, exec (.stackRead pa .clean raw) s = .next t ∧ quiet t) ∧
      (∃ t, exec (.stackRead pa .corrected raw) s = .next t ∧ s.CoresKept t ∧ t.reg (stk 0x20) = s.reg (stk 0x20) + 1 ∧
        (t.stack (pa / 0x1000000000)).writebacks.contains a = true) ∧
      (∃ t, exec (.stackRead pa .uncorrectable raw) s = .next t ∧ bad t ∧ t.reg (stk 0x28) = s.reg (stk 0x28) + 1)) ∧
    (∀ k, tget s.bases (pa / 0x1000000000) = some k → ∃ t, exec (.correctedWriteback pa) s = .next t ∧ t = { s with bases := t.bases } ∧
      (t.stack (pa / 0x1000000000)).writebacks.contains a = false) ∧
    (∀ lo hi : W64, dataPa pa = true → s.deadAt pa = none → ∃ t, exec (.maskedWrite pa lo hi raw) s = .next t ∧
      s.BytesBut t a 64 ∧ t.regs = s.regs ∧ t.queues = s.queues ∧
      t.tagAt pa = (if nibbleMask lo hi = fullMask ∨ s.tagAt pa = .good then .good else .poisoned) ∧ ∀ i : Fin 64,
        let old := (memByte s.mem (a + i)).toNat
        let new := raw.toNat / 256 ^ i.val % 256
        (memByte t.mem (a + i)).toNat =
          (if bitAt lo i then new % 16 else old % 16) + 16 * (if bitAt hi i then new / 16 else old / 16)) ∧
    (s.stackAnswers pa = true → s.scrubbing pa = false → s.regFld (stk 0x18) 0 16 ≠ 0 →
      (s.tagAt pa ≠ .mismatch → ∃ t, exec (.patrolScrub pa .clean raw) s = .next t ∧ quiet t) ∧
      ∃ t, exec (.patrolScrub pa .uncorrectable raw) s = .next t ∧ bad t ∧ t.reg (stk 0x28) = s.reg (stk 0x28) + 1) ∧
    ∀ patrol : Bool, dataPa pa = true → stackEnd ≤ pa → s.deadAt pa = none →
      ((patrol = false ∨ s.tagAt pa ≠ .mismatch) → exec (.sramPatrol pa ⟨.clean, patrol⟩ raw) s = .next s) ∧
      (∃ t, exec (.sramPatrol pa ⟨.corrected, patrol⟩ raw) s = .next t ∧ s.CoresKept t) ∧
      ∃ t, exec (.sramPatrol pa ⟨.uncorrectable, patrol⟩ raw) s = .next t ∧ bad t

/-- Die links and channels: eight failed replays of one flit start a retraining, and one that passes ends its count, whose failure is a
lasting link failure; a channel retries up to its limit, then retrains once, then fails; a link or channel that does not train at boot fails
(a training's end is that of boot step 5 while the firmware starts: DEDUCED, log 101); a refresh is counted. Memory and queues stay. -/
def Obligations.LinksRetrainAndFail : Prop :=
  ∀ (st : Fin 12) (ch : Fin 32) (fl : Nat) (s : State),
    let k := s.stack st
    let n := tgetD k.chTries ch 0
    (∃ t, exec (.refresh st) s = .next t ∧ t = { s with bases := t.bases } ∧ t.stack st = { k with refreshes := k.refreshes + 1 }) ∧
    (s.linkFailed st = false → k.linkTraining = false →
      (∃ t, exec (.flitReplay ⟨st, fl, true⟩) s = .next t ∧ t = { s with bases := t.bases } ∧
        t.stack st = { k with flits := tdel k.flits fl }) ∧
      ∃ t, exec (.flitReplay ⟨st, fl, false⟩) s = .next t ∧ t = { s with bases := t.bases } ∧
        (tgetD k.flits fl 0 < 7 → t.stack st = { k with flits := tset k.flits fl (tgetD k.flits fl 0 + 1) }) ∧
        (7 ≤ tgetD k.flits fl 0 → t.stack st = { k with flits := [], linkTraining := true })) ∧
    (k.linkTraining = true →
      (∃ t, exec (.dieLinkRetrainEnd st true) s = .next t ∧ t = { s with bases := t.bases } ∧
        t.stack st = { k with linkTraining := false, flits := [] }) ∧
      ∃ t, exec (.dieLinkRetrainEnd st false) s = .next t ∧ t.linkFailed st = true ∧ s.CoresKept t ∧
        s.RegsBut t (stkK st 8 :: reportKeys 0xFF)) ∧
    (s.chFailed st ch = false → s.chTraining st ch = false →
      (n < s.retries st → ∃ t, exec (.dramParityFail st ch) s = .next t ∧ s.CoresKept t ∧ tgetD (t.stack st).chTries ch 0 = n + 1 ∧
        t.regFld (chK st ch) 0 16 = min (s.regFld (chK st ch) 0 16 + 1) 0xFFFF ∧ s.RegsBut t (chK st ch :: reportKeys 0xFF)) ∧
      (s.retries st ≤ n → k.chSecond.contains ch.val = false → ∃ t, exec (.dramParityFail st ch) s = .next t ∧ s.CoresKept t ∧
        t.chTraining st ch = true ∧ tget (t.stack st).chTries ch = none ∧ s.RegsBut t [chK st ch]) ∧
      (s.retries st ≤ n → k.chSecond.contains ch.val = true → ∃ t, exec (.dramParityFail st ch) s = .next t ∧ s.CoresKept t ∧
        t.chFailed st ch = true ∧ s.RegsBut t ([chK st ch, stkK st 8] ++ reportKeys 0xFF))) ∧
    (s.chTraining st ch = true →
      (∃ t, exec (.channelRetrainEnd st ch true) s = .next t ∧ s.CoresKept t ∧ t.chTraining st ch = false ∧
        (t.stack st).chSecond.contains ch.val = true ∧ s.RegsBut t [chK st ch]) ∧
      ∃ t, exec (.channelRetrainEnd st ch false) s = .next t ∧ s.CoresKept t ∧ t.chFailed st ch = true ∧ t.chTraining st ch = false) ∧
    (s.boot = .firmware →
      (∃ t, exec (.dieLinkRetrainEnd st false) s = .next t ∧ t.linkFailed st = true ∧ s.CoresKept t ∧ t.boot = .firmware) ∧
      ∃ t, exec (.channelRetrainEnd st ch false) s = .next t ∧ t.chFailed st ch = true ∧ s.CoresKept t ∧ t.boot = .firmware)

/-- OFFLINE, echo runs: context 0 clears OFFLINE at will and sets it unless a granule of the stack is bound or a link spills there, which
sets REFUSED; GO starts a run in the modes allowed; its end clears BUSY, sets DONE and counts, and only a fill writes, in its stack. -/
def Obligations.StacksEchoAndGoOffline : Prop :=
  ∀ (st : Fin 12) (ch : Fin 32) (v : W64) (s : State),
    let k := echoK st ch 0
    (bitAt v 0 = false → ∃ t, exec (.offlineWrite 0 st v) s = .next t ∧ s.OnlyRegs t [stkK st 0] ∧ t.regBit (stkK st 0) 0 = false ∧
      t.regFld (stkK st 0) 4 4 = fld v 4 4) ∧
    (bitAt v 0 = true → s.offlineRefused st = false → ∃ t, exec (.offlineWrite 0 st v) s = .next t ∧ s.OnlyRegs t [stkK st 0] ∧
      t.regBit (stkK st 0) 0 = true) ∧
    (bitAt v 0 = true → s.regBit (stkK st 0) 0 = false → s.offlineRefused st = true → ∃ t, exec (.offlineWrite 0 st v) s = .next t ∧
      s.OnlyRegs t [stkK st 0, stkK st 8] ∧ t.regBit (stkK st 0) 0 = false ∧ t.regBit (stkK st 8) 0 = true) ∧
    (bitAt v 63 = true → s.regBit k 62 = false → 1 ≤ fld v 35 3 → fld v 35 3 ≤ 3 → (fld v 35 3 = 1 ∨ s.regBit (stkK st 0) 0 = true) →
      ∃ t, exec (.echoGo 0 st ch v) s = .next t ∧ t.regBit k 62 = true ∧ t = { s with regs := t.regs, bases := t.bases } ∧
        tget (t.stack st).echo ch = some (v, s.reg (echoK st ch 8)) ∧ s.RegsBut t [k]) ∧
    (bitAt v 63 = true → s.regBit k 62 = false → (4 ≤ fld v 35 3 ∨ (2 ≤ fld v 35 3 ∧ s.regBit (stkK st 0) 0 = false)) →
      ∃ t, exec (.echoGo 0 st ch v) s = .next t ∧ s.OnlyRegs t [k] ∧ t.regBit k 60 = true ∧ t.regBit k 62 = false) ∧
    ∀ c r, tget (s.stack st).echo ch = some (c, r) → ∃ t, exec (.echoRunEnd st ch []) s = .next t ∧ t.regBit k 62 = false ∧
      t.regBit k 61 = true ∧ tget (t.stack st).echo ch = none ∧ t.queues = s.queues ∧ s.RegsBut t [k, echoK st ch 0x10] ∧
      (fld c 35 3 ≠ 2 → t.mem = s.mem) ∧
      ∀ x, x < st.val * 0x1000000000 ∨ (st.val + 1) * 0x1000000000 ≤ x → memByte t.mem x = memByte s.mem x

/-! Control space, management and security (R9 to R11, R34 to R36, R435 to R452) -/

/-- Register reads and writes: an invalid access is not performed and answered as such; one outside the binding completes without effect,
reads 0 and is logged as a binding violation (an empty offset of a block of context 0's too: DEDUCED, log 85); one to a block that does not
answer is ignored; a read returns the register's value and clears its read-clear bits; a write of a plain register of a stack or quay changes
only its writable bits; SVN_RAISE burns the running image's version. -/
def Obligations.RegistersReadAndWrite : Prop :=
  ∀ (ctx : Fin 16) (addr v : W64) (width : Nat) (s : State),
    (s.access ctx addr width = .invalid →
      exec (.registerWrite ctx addr width v) s = .next { s with tx := .addrInvalid ctx addr :: s.tx }) ∧
    (s.access ctx addr width = .outside →
      let t := s.violation ctx addr
      exec (.registerWrite ctx addr width v) s = .next t ∧ s.Reported t ctx [] ∧
        exec (.registerRead ctx addr width) s = .next { t with tx := .value ctx addr 0 :: t.tx }) ∧
    (s.access ctx addr width = .quiet → exec (.registerWrite ctx addr width v) s = .next s) ∧
    (∀ b o r, s.access ctx addr width = .at_ b o → rowOf b o = some r → (r.rw ≠ 0 ∨ r.w1c ≠ 0) →
      ((∃ st, b = .stk st ∧ 0x10 ≤ o ∧ ¬(0x1000 ≤ o ∧ o < 0x1400)) ∨ (∃ qy, b = .quay qy ∧ o ≠ 0)) →
      ∃ t, exec (.registerWrite ctx addr width v) s = .next t ∧ s.OnlyRegs t [b.key o] ∧
        t.reg (b.key o) = (((s.reg (b.key o) &&& ~~~r.rw) ||| (v &&& r.rw)) &&& ~~~(v &&& r.w1c))) ∧
    (∀ b o, s.access ctx addr width = .at_ b o → (∀ d, b = .die d → o / 0x10000 ≠ 0x31) →
      ∃ t, exec (.registerRead ctx addr width) s = .next t ∧ t.tx = .value ctx addr (s.regValue ctx b o) :: s.tx ∧
        t = { s with regs := t.regs, tx := t.tx } ∧ s.RegsBut t [homeKey b o] ∧
      ∀ r, rowOf b o = some r → t.reg (homeKey b o) = s.reg (homeKey b o) &&& ~~~r.rc) ∧
    (∀ d o r, s.access ctx addr width = .at_ (.die d) o → o / 0x10000 = 0x31 → rowOf (.die d) o = some r →
      let u := s.showStalls (o % 0x10000 / 0x100)
      ∃ t, exec (.registerRead ctx addr width) s = .next t ∧ t.tx = .value ctx addr (u.reg (dieK d o)) :: u.tx ∧
        t = { u with regs := t.regs, tx := t.tx } ∧ u.RegsBut t [dieK d o] ∧ t.reg (dieK d o) = u.reg (dieK d o) &&& ~~~r.rc) ∧
    (∀ h, bitAt v 63 = true → s.mgmt.image = some h → s.fuses.svn ≤ 64 → h.svn ≤ 64 →
      ∃ t, exec (.svnRaise 0 v) s = .next t ∧ t = { s with fuses := t.fuses } ∧ t.fuses = { s.fuses with svn := max s.fuses.svn h.svn })

/-- A datagram that the management port hears, one at a time: one whose MAC or SEQ fails is dropped and counted, and where it needs a key
answered so; REG_WRITE does what a register write of context 0 does and REG_READ answers the value; RESET resets, or waits for the image
write; reports are fetched and acknowledged; what comes while the controller is at work waits. An answer goes to the sender and bears a SEQ
of the device's own (a free value, log 50) and the MAC under the installed key. That RESET keeps memory is the model's choice (log 2). -/
def Obligations.DatagramsAct : Prop :=
  ∀ (dg : Datagram) (s : State),
    let answer : BitVec 8 → W16 → List Byte → Tx := fun c st l => s.answerOf dg.src s.tx.length c st l
    let waits : Instr → Prop := fun i =>
      s.mgmtBusy = true → exec i s = .next { s with mgmt := { s.mgmt with requests := s.mgmt.requests ++ [i] } }
    (∀ addr v first count seq, waits (.regRead dg addr) ∧ waits (.regWrite dg addr v) ∧ waits (.rptFetch dg first count) ∧
      waits (.rptAck dg seq)) ∧
    (s.mgmtBusy = false →
    (∀ addr v : W64,
      let pay := beBytes 8 addr.toNat ++ beBytes 8 v.toNat
      s.heard dg pay = true →
      (s.accepts dg 0x02 pay true = false → ∃ t, exec (.regWrite dg addr v) s = .next t ∧ s.CoresKept t ∧
        s.RegsBut t [mgtK 8, mgtK 0x48] ∧ t.fuses = s.fuses ∧ t.mgmt = s.mgmt ∧
        t.regFld (mgtK 8) 0 32 = min (s.regFld (mgtK 8) 0 32 + 1) (2 ^ 32 - 1) ∧
        t.regFld (mgtK 0x48) 0 16 = min (s.regFld (mgtK 0x48) 0 16 + 1) 0xFFFF ∧
        t.tx.head? = some (s.answerOf dg.src (s.tx.length + 1) 0x02 Code.SEC_MGMT_AUTH [])) ∧
      (∀ u, s.accepts dg 0x02 pay true = true → s.access 0 addr 8 ≠ .invalid → exec (.registerWrite 0 addr 8 v) (s.tookSeq dg) = .next u →
        s.access 0 addr 8 ≠ .outside →
          exec (.regWrite dg addr v) s = .next { u with tx := u.answerOf dg.src u.tx.length 0x02 0 [] :: u.tx }) ∧
      (∀ qy o r, s.accepts dg 0x02 pay true = true → s.access 0 addr 8 = .at_ (.quay qy) o → o ≠ 0 → rowOf (.quay qy) o = some r →
        (r.rw ≠ 0 ∨ r.w1c ≠ 0) → ∃ t, exec (.regWrite dg addr v) s = .next t ∧ s.CoresKept t ∧ t.tx = answer 0x02 0 [] :: s.tx ∧
        t.reg (quayK qy o) = (((s.reg (quayK qy o) &&& ~~~r.rw) ||| (v &&& r.rw)) &&& ~~~(v &&& r.w1c)) ∧
        s.RegsBut t [quayK qy o]) ∧
      (s.accepts dg 0x02 pay true = true → s.access 0 addr 8 = .invalid → ∃ t, exec (.regWrite dg addr v) s = .next t ∧
        s.CoresKept t ∧ t.regs = s.regs ∧ t.tx = answer 0x02 Code.ADDR_INVALID [] :: s.tx)) ∧
    (∀ (addr : W64) (b : Blk) (o : Nat), s.heard dg (beBytes 8 addr.toNat) = true →
      s.accepts dg 0x01 (beBytes 8 addr.toNat) (!keyless addr) = true → s.access 0 addr 8 = .at_ b o →
      (∀ d, b = .die d → o / 0x10000 ≠ 0x31) → ∃ t, exec (.regRead dg addr) s = .next t ∧ s.CoresKept t ∧ s.RegsBut t [homeKey b o] ∧
        t.tx = answer 0x01 0 (beBytes 8 ((s.tookSeq dg).regValue 0 b o).toNat) :: s.tx) ∧
    (s.heard dg [] = true → s.accepts dg 0x03 [] true = true →
      ∃ t, exec (.reset dg) s = .next t ∧ t.rstLast = 4 ∧ t.boot = .rom ∧ t.mem = s.mem ∧ t.queues = [] ∧
        t.tx = answer 0x03 0 [] :: s.tx) ∧
    (∀ (first : BitVec 32) (count : BitVec 16), s.heard dg (beBytes 4 first.toNat ++ beBytes 2 count.toNat) = true →
      s.accepts dg 0x04 (beBytes 4 first.toNat ++ beBytes 2 count.toNat) true = true → 1 ≤ count.toNat → count.toNat ≤ 15 →
      ∃ t, exec (.rptFetch dg first count) s = .next t ∧ s.CoresKept t ∧ t.regs = s.regs ∧ t.ring = s.ring ∧
        t.tx = answer 0x04 0 ((((s.ring.filter fun r => notBefore r.seq first).take count.toNat).map s.recordBytes).flatten) :: s.tx) ∧
    ∀ seq : BitVec 32, s.heard dg (beBytes 4 seq.toNat) = true → s.accepts dg 0x05 (beBytes 4 seq.toNat) true = true →
      ∃ t, exec (.rptAck dg seq) s = .next t ∧ s.CoresKept t ∧ t.regs = s.regs ∧ t.tx = answer 0x05 0 [] :: s.tx ∧
        ∀ r, r ∈ t.ring ↔ r ∈ s.ring ∧ notBefore seq r.seq = false) ∧
    (s.mgmt.writing.isSome = true → s.heard dg [] = true → s.accepts dg 0x03 [] true = true → ∃ t, exec (.reset dg) s = .next t ∧
      t.mgmt.resetWaits = true ∧ s.CoresKept t ∧ t.regs = s.regs ∧ t.boot = s.boot)

/-- Image datagrams, while the controller is free: a chunk is staged where it fits (bytes not listed are 0xFF); a staged image that verifies
runs from RECOVERY, and FLASH_COMMIT begins to write it, answered when it has been written (DESIGN CHOICE, log 99); a reserved command is
refused and counted. The SEQ of an answer is a free value (log 50), and so are the places of an image's parts (log 6). -/
def Obligations.ImagesAreStagedAndCommitted : Prop :=
  ∀ (dg : Datagram) (s : State), s.mgmtBusy = false →
    let answer : BitVec 8 → W16 → Tx := fun c st => s.answerOf dg.src s.tx.length c st []
    let after : BitVec 8 → W16 → Tx := fun c st => s.answerOf dg.src (s.tx.length + 1) c st []
    (∀ (o : BitVec 32) (bs : List Byte), s.heard dg (beBytes 4 o.toNat ++ bs) = true →
      s.accepts dg 0x06 (beBytes 4 o.toNat ++ bs) (s.boot != .recovery) = true → bs.length ≤ 1016 → o.toNat + bs.length ≤ imageBytes →
      ∃ t, exec (.stageChunk dg o bs) s = .next t ∧ s.CoresKept t ∧ t.regs = s.regs ∧ t.tx = answer 0x06 0 :: s.tx ∧
        (∀ i (h : i < bs.length), tgetD t.mgmt.staging (o.toNat + i) 0xFF = bs[i]) ∧
        ∀ k, k < o.toNat ∨ o.toNat + bs.length ≤ k → tget t.mgmt.staging k = tget s.mgmt.staging k) ∧
    (s.heard dg [] = true → s.accepts dg 0x07 [] false = true → s.boot = .recovery →
      ∃ t, exec (.recovBoot dg) s = .next t ∧ s.CoresKept t ∧ s.RegsBut t [mgtK 0x48] ∧ match s.imageFails s.mgmt.staging with
        | none => t.boot = .firmware ∧ t.mgmt.image = some (Config.imageHeader s.mgmt.staging) ∧ t.tx = answer 0x07 0 :: s.tx
        | some e => t.boot = .recovery ∧ t.tx.head? = some (after 0x07 e)) ∧
    (s.heard dg [] = true → s.accepts dg 0x08 [] true = true →
      ∃ t, exec (.flashCommit dg) s = .next t ∧ s.CoresKept t ∧ s.RegsBut t [mgtK 0x48] ∧ match s.imageFails s.mgmt.staging with
        | none => t.mgmt.writing = some (dg, s.mgmt.staging) ∧ t.tx = s.tx
        | some e => t.mgmt.writing = none ∧ t.tx.head? = some (after 0x08 e)) ∧
    ∀ (cmd : BitVec 8) (pay : List Byte), reservedCmd cmd = true → s.heard dg pay = true → s.accepts dg cmd pay false = true →
      ∃ t, exec (.mgmtCmdReserved dg cmd pay) s = .next t ∧ s.CoresKept t ∧ s.RegsBut t [mgtK 0x48] ∧
        t.regFld (mgtK 0x48) 0 16 = min (s.regFld (mgtK 0x48) 0 16 + 1) 0xFFFF ∧
        t.tx.head? = some (after cmd Code.SEC_MGMT_AUTH)

/-- Sessions, keys, measurements and sensors, while the I3C target answers and the controller is free: a key is set only inside the secured
session; a measurement index answers its block, of which the manual gives no preimage (log 9); sensors read what their last update found,
and 0 before it (log 72). Of SPDM only whether a session is open is held (DESIGN CHOICE, log 67). -/
def Obligations.AttestationAnswers : Prop :=
  ∀ s : State, s.i3cUp = true → s.mgmtBusy = false →
    (exec .keyExchange s = .next { s with mgmt := { s.mgmt with session := true } }) ∧
    (∀ key, s.mgmt.session = true → ∃ t, exec (.setMgmtKey true key) s = .next t ∧ t = { s with mgmt := t.mgmt } ∧
      t.mgmt.key = some key ∧ t.mgmt.lastSeq = none) ∧
    (∀ key x, (x = false ∨ s.mgmt.session = false) →
      exec (.setMgmtKey x key) s = .next { s with tx := .spdmError .notAccepted :: s.tx }) ∧
    (∀ i : BitVec 8, 1 ≤ i.toNat → i.toNat ≤ 6 → exec (.getMeasurements i) s = .next { s with tx := s.measurement i.toNat :: s.tx }) ∧
    (exec (.getMeasurements 0xFF) s =
      .next { s with tx := [6, 5, 4, 3, 2, 1].map s.measurement ++ s.tx }) ∧
    (∀ i : BitVec 8, 6 < i.toNat → i.toNat < 0xFF →
      exec (.getMeasurements i) s = .next { s with tx := .spdmError .noMeasurement :: s.tx }) ∧
    (∀ id : BitVec 16, 1 ≤ id.toNat → id.toNat ≤ 20 →
      exec (.pldmSensorRead id) s = .next { s with tx := .pldm id.toNat (some (tgetD s.mgmt.sensors id.toNat 0)) :: s.tx }) ∧
    ∀ amps : RailAmps, ∃ t, exec (.pldmSensorUpdate amps) s = .next t ∧ t = { s with mgmt := t.mgmt } ∧
      (∀ d : Fin 2, tget t.mgmt.sensors (1 + d) = some (s.regFld (clkK d 0x20) 56 8) ∧
        tget t.mgmt.sensors (15 + d) = some (s.vset d) ∧ tget t.mgmt.sensors (18 + d) = some (s.throttle d)) ∧
      (∀ st : Fin 12, tget t.mgmt.sensors (3 + st) = some (s.regFld (stkK st 0x10) 0 8)) ∧
      tget t.mgmt.sensors 17 = some (amps.core0 + amps.core1) ∧ tget t.mgmt.sensors 20 = some s.ring.length

/-- Signing never uses an index twice: a signature takes the next index and moves it on, with the fuses of its window burned first; without
a journal entry it waits, and the entry programmed lets it go on; a built tree counts; a flash write ends in the slot, which answers its
command, or in the copy of the table that is not in force, and one that fails leaves the previous image. Where these lie in the flash is the
model's choice (log 96), as is which tree is built first (log 73); the seeds and randomizers of a signature are free values (log 10). -/
def Obligations.SigningMovesOn : Prop :=
  ∀ s : State,
    let signed : State → Nat → Prop := fun t n => s.mgmt.next ≤ n ∧ t.mgmt.next = n + 1 ∧ n / 2 ^ 32 < t.fuses.lms ∧
      s.fuses.lms ≤ t.fuses.lms ∧ s.CoresKept t
    (∀ d, s.tableLoaded = true → s.domHung 0 2 = false → s.mgmtBusy = false → s.mgmt.exhausted = false →
      s.mgmt.next / 2 ^ 20 < s.mgmt.trees →
      (s.mgmt.next < s.mgmt.limit → ∃ t, exec (.signatureRequest d) s = .next t ∧ signed t s.mgmt.next ∧
        Tx.signature s.mgmt.next (hssSign s.mgmt.next d) ∈ t.tx) ∧
      (s.mgmt.limit ≤ s.mgmt.next → ∃ t, exec (.signatureRequest d) s = .next t ∧ t = { s with mgmt := t.mgmt } ∧
        t.mgmt = { s.mgmt with waiting := some d })) ∧
    (∀ d, s.mgmt.waiting = some d → s.tableLoaded = true → s.domHung 0 2 = false → s.mgmt.requests = [] → s.mgmt.exhausted = false →
      s.mgmt.next / 2 ^ 20 < s.mgmt.trees →
      let limit := s.mgmt.next / 1024 * 1024 + 1024
      ∃ t, exec .journalEntryProgrammed s = .next t ∧ signed t s.mgmt.next ∧ t.mgmt.waiting = none ∧
        t.mgmt.limit = limit ∧ t.mgmt.flash = journalAppend s.mgmt.flash limit) ∧
    (s.mgmt.busy = true → ∃ t, exec .bottomTreeBuilt s = .next t ∧ t = { s with mgmt := t.mgmt } ∧ t.mgmt.trees = s.mgmt.trees + 1) ∧
    (∀ dg img, s.mgmt.writing = some (dg, img) → s.mgmt.resetWaits = false → s.mgmt.requests = [] →
      (∃ t, exec (.flashWriteEnd true) s = .next t ∧ t = { s with mgmt := t.mgmt, tx := s.answerOf dg.src s.tx.length 0x08 0 [] :: s.tx } ∧
        t.mgmt.flash = flashImage s.mgmt.flash img ∧ t.mgmt.writing = none ∧ t.mgmt.slotBroken = false) ∧
      ∃ t, exec (.flashWriteEnd false) s = .next t ∧ s.CoresKept t ∧ t.mgmt.flash = s.mgmt.flash ∧ t.mgmt.writing = none ∧
        t.tx.head? = some (s.answerOf dg.src (s.tx.length + 1) 0x08 Code.FW_FLASH_FAIL [])) ∧
    (s.mgmt.writing = none → s.tableLoaded = true →
      (∃ t, exec (.flashWriteEnd true) s = .next t ∧ t = { s with mgmt := t.mgmt, flashFailed := false } ∧
        t.mgmt = { s.mgmt with flash := tabWrite s.mgmt.flash s.faults }) ∧
      ∃ t, exec (.flashWriteEnd false) s = .next t ∧ t.flashFailed = true ∧ s.CoresKept t ∧ t.mgmt.writing = none)
end

