-- ==== Sys2Proof/Laws/Fields.lean ====
section
/-! SUPPORT. What a field of a register reads after a field of it has been written. -/

namespace Sys2Proof

theorem fld_lt (v : W64) (lo len : Nat) : fld v lo len < 2 ^ len := Nat.mod_lt _ (Nat.two_pow_pos len)

theorem fld_testBit (v : W64) (lo len i : Nat) : (fld v lo len).testBit i = (decide (i < len) && v.getLsbD (lo + i)) := by
  simp [fld, Nat.testBit_mod_two_pow, Nat.testBit_shiftRight, BitVec.getLsbD]

theorem getLsbD_putFld (v : W64) (lo len x i : Nat) (h : lo + len ≤ 64) :
    (putFld v lo len x).getLsbD i = if lo ≤ i ∧ i < lo + len then x.testBit (i - lo) else v.getLsbD i := by
  unfold putFld
  simp only [BitVec.getLsbD_or, BitVec.getLsbD_and, BitVec.getLsbD_not, BitVec.getLsbD_ofNat, Nat.testBit_mul_two_pow,
    Nat.testBit_mod_two_pow, Nat.testBit_two_pow_sub_one]
  by_cases h1 : i < 64
  · by_cases h2 : lo ≤ i
    · by_cases h3 : i < lo + len
      · have : i - lo < len := by omega
        simp [h1, h2, h3, this]
      · have : ¬ i - lo < len := by omega
        simp [h1, h2, h3, this]
    · simp [h1, h2]
  · have hv : v.getLsbD i = false := BitVec.getLsbD_of_ge v i (by omega)
    have : ¬ (lo ≤ i ∧ i < lo + len) := by omega
    simp [h1, hv, this]

theorem fld_putFld_self (v : W64) (lo len x : Nat) (h : lo + len ≤ 64) : fld (putFld v lo len x) lo len = x % 2 ^ len := by
  apply Nat.eq_of_testBit_eq
  intro i
  rw [fld_testBit, getLsbD_putFld v lo len x _ h, Nat.testBit_mod_two_pow]
  by_cases hi : i < len
  · have : lo + i - lo = i := by omega
    simp [hi, this]
  · simp [hi]

theorem fld_putFld_ne (v : W64) (lo len x lo' len' : Nat) (h : lo + len ≤ 64) (d : lo' + len' ≤ lo ∨ lo + len ≤ lo') :
    fld (putFld v lo len x) lo' len' = fld v lo' len' := by
  apply Nat.eq_of_testBit_eq
  intro i
  rw [fld_testBit, fld_testBit, getLsbD_putFld v lo len x _ h]
  by_cases hi : i < len'
  · have : ¬ (lo ≤ lo' + i ∧ lo' + i < lo + len) := by omega
    simp [hi, this]
  · simp [hi]

theorem bitAt_putBit_self (v : W64) (n : Nat) (b : Bool) (h : n < 64) : bitAt (putBit v n b) n = b := by
  unfold bitAt putBit
  rw [getLsbD_putFld v n 1 _ n (by omega)]
  cases b <;> simp

theorem bitAt_putBit_ne (v : W64) (n m : Nat) (b : Bool) (h : n < 64) (d : m ≠ n) : bitAt (putBit v n b) m = bitAt v m := by
  unfold bitAt putBit
  rw [getLsbD_putFld v n 1 _ m (by omega)]
  have : ¬ (n ≤ m ∧ m < n + 1) := by omega
  rw [if_neg this]

theorem bitAt_putFld_ne (v : W64) (lo len x n : Nat) (h : lo + len ≤ 64) (d : n < lo ∨ lo + len ≤ n) :
    bitAt (putFld v lo len x) n = bitAt v n := by
  unfold bitAt
  rw [getLsbD_putFld v lo len x n h]
  have : ¬ (lo ≤ n ∧ n < lo + len) := by omega
  rw [if_neg this]

theorem fld_putBit_ne (v : W64) (n lo len : Nat) (b : Bool) (h : n < 64) (d : n < lo ∨ lo + len ≤ n) :
    fld (putBit v n b) lo len = fld v lo len := by
  unfold putBit
  exact fld_putFld_ne v n 1 _ lo len (by omega) (by omega)

end Sys2Proof
end

