-- ==== Sys2Proof/Laws/Tables.lean ====
section
/-! SUPPORT. What look-up finds in a sparse table after an insertion or a removal. None of these laws needs the keys to rise. -/

namespace Sys2Proof.Machine

theorem tget_tset_self {α : Type} (t : Tbl α) (k : Nat) (v : α) : tget (tset t k v) k = some v := by
  induction t with
  | nil => simp [tset, tget]
  | cons p r ih =>
    obtain ⟨j, w⟩ := p
    simp only [tset]
    split
    · simp [tget]
    · split
      · simp [tget]
      · have : j ≠ k := by omega
        simp [tget, this, ih]

theorem tget_tset_ne {α : Type} (t : Tbl α) {j k : Nat} (v : α) (h : j ≠ k) : tget (tset t k v) j = tget t j := by
  induction t with
  | nil => simp [tset, tget, Ne.symm h]
  | cons p r ih =>
    obtain ⟨i, w⟩ := p
    simp only [tset]
    split
    · simp [tget, Ne.symm h]
    · split
      · next h1 h2 => subst h2; simp [tget, Ne.symm h]
      · simp only [tget]; split <;> simp [ih]

theorem tget_tdel_self {α : Type} (t : Tbl α) (k : Nat) : tget (tdel t k) k = none := by
  induction t with
  | nil => rfl
  | cons p r ih =>
    obtain ⟨j, w⟩ := p
    simp only [tdel]
    split
    · exact ih
    · next h => simp [tget, h, ih]

theorem tget_tdel_ne {α : Type} (t : Tbl α) {j k : Nat} (h : j ≠ k) : tget (tdel t k) j = tget t j := by
  induction t with
  | nil => rfl
  | cons p r ih =>
    obtain ⟨i, w⟩ := p
    simp only [tdel]
    split
    · next h1 => subst h1; simp [tget, Ne.symm h, ih]
    · simp only [tget]; split <;> simp [ih]

theorem tget_filter {α : Type} (f : Nat → Bool) (t : Tbl α) (k : Nat) :
    tget (t.filter fun p => f p.1) k = if f k then tget t k else none := by
  induction t with
  | nil => simp [tget]
  | cons p r ih =>
    obtain ⟨i, w⟩ := p
    simp only [List.filter_cons]
    by_cases hi : i = k
    · subst hi
      by_cases hp : f i = true <;> simp [hp, tget, ih]
    · by_cases hp : f i = true <;> simp [hp, tget, ih, hi]

theorem tget_tdelRange {α : Type} (t : Tbl α) (lo hi k : Nat) :
    tget (tdelRange t lo hi) k = if k < lo || hi ≤ k then tget t k else none :=
  tget_filter (fun i => i < lo || hi ≤ i) t k

theorem tgetD_tset_self {α : Type} (t : Tbl α) (k : Nat) (v d : α) : tgetD (tset t k v) k d = v := by
  simp [tgetD, tget_tset_self]

theorem tgetD_tset_ne {α : Type} (t : Tbl α) {j k : Nat} (v d : α) (h : j ≠ k) : tgetD (tset t k v) j d = tgetD t j d := by
  simp [tgetD, tget_tset_ne t v h]

theorem tgetD_tdel_ne {α : Type} (t : Tbl α) {j k : Nat} (d : α) (h : j ≠ k) : tgetD (tdel t k) j d = tgetD t j d := by
  simp [tgetD, tget_tdel_ne t h]

end Sys2Proof.Machine
end

