-- ==== Sys2Proof/Laws/Flash.lean ====
section
/-! SUPPORT. The boot flash: bytes that are written are read back, and so is a journal entry in an erased journal. -/

namespace Sys2Proof.Machine

theorem leBytes_length (n v : Nat) : (leBytes n v).length = n := by
  induction n generalizing v with
  | zero => rfl
  | succ n ih => simp [leBytes, ih]

theorem leNat_leBytes (n v : Nat) : leNat (leBytes n v) = v % 256 ^ n := by
  induction n generalizing v with
  | zero => simp [leBytes, leNat, Nat.mod_one]
  | succ n ih =>
    simp only [leBytes, leNat, ih, BitVec.toNat_ofNat]
    rw [show 256 ^ (n + 1) = 256 * 256 ^ n from Nat.pow_succ', Nat.mod_mul]

theorem crc32Byte_lt (c : Nat) (b : Byte) (h : c < 2 ^ 32) : crc32Byte c b < 2 ^ 32 := by
  have step : ∀ x : Nat, x < 2 ^ 32 → (if x % 2 == 1 then (x >>> 1) ^^^ 0xEDB88320 else x >>> 1) < 2 ^ 32 := by
    intro x hx
    have : x >>> 1 < 2 ^ 32 := by rw [Nat.shiftRight_eq_div_pow]; omega
    split
    · exact Nat.xor_lt_two_pow this (by norm_num)
    · exact this
  have all : ∀ (l : List Nat) (x : Nat), x < 2 ^ 32 →
      l.foldl (fun c _ => if c % 2 == 1 then (c >>> 1) ^^^ 0xEDB88320 else c >>> 1) x < 2 ^ 32 := by
    intro l
    induction l with
    | nil => exact fun _ h => h
    | cons _ l ih => exact fun x hx => ih _ (step x hx)
  exact all _ _ (Nat.xor_lt_two_pow h (by have := b.isLt; omega))

theorem crc32_lt (bs : List Byte) : crc32 bs < 2 ^ 32 := by
  have all : ∀ (l : List Byte) (x : Nat), x < 2 ^ 32 → l.foldl crc32Byte x < 2 ^ 32 := by
    intro l
    induction l with
    | nil => exact fun _ h => h
    | cons b l ih => exact fun x hx => ih _ (crc32Byte_lt x b hx)
  exact Nat.xor_lt_two_pow (all _ _ (by norm_num)) (by norm_num)

theorem flashCells_keys (o : Nat) (bs : List Byte) : ∀ p ∈ flashCells o bs, o ≤ p.1 ∧ p.1 < o + bs.length := by
  induction bs generalizing o with
  | nil => simp [flashCells]
  | cons b bs ih =>
    intro p hp
    simp only [flashCells] at hp
    have tail : p ∈ flashCells (o + 1) bs → o ≤ p.1 ∧ p.1 < o + (b :: bs).length := fun h => by
      have := ih (o + 1) p h; simp only [List.length_cons]; omega
    split at hp
    · exact tail hp
    · rcases List.mem_cons.mp hp with rfl | h
      · simp
      · exact tail h

theorem tget_none {α : Type} (t : Tbl α) (k : Nat) (h : ∀ p ∈ t, p.1 ≠ k) : tget t k = none := by
  induction t with
  | nil => rfl
  | cons p r ih =>
    obtain ⟨j, v⟩ := p
    have : j ≠ k := h (j, v) (by simp)
    simp [tget, this, ih fun q hq => h q (by simp [hq])]

theorem tgetD_flashCells (o : Nat) (bs : List Byte) (i : Nat) (h : i < bs.length) :
    tgetD (flashCells o bs) (o + i) 0xFF = bs[i] := by
  induction bs generalizing o i with
  | nil => simp at h
  | cons b bs ih =>
    cases i with
    | zero =>
      simp only [flashCells, Nat.add_zero]
      split
      · next hb =>
        have : tget (flashCells (o + 1) bs) o = none :=
          tget_none _ _ fun p hp => by have := flashCells_keys (o + 1) bs p hp; omega
        simp [tgetD, this, hb]
      · simp [tgetD, tget]
    | succ i =>
      have e : o + (i + 1) = o + 1 + i := by omega
      have := ih (o + 1) i (by simpa using h)
      simp only [flashCells, e]
      split
      · simpa using this
      · simp [tgetD, tget] at this ⊢
        rw [if_neg (by omega)]; simpa using this

/-- Bytes that are written to the flash are read back. -/
theorem flashRead_put (f : Tbl Byte) (o : Nat) (bs : List Byte) : flashRead (flashPut f o bs) o bs.length = bs := by
  have low : (f.filter fun p => decide (p.1 < o)).filter (fun p => decide (o ≤ p.1) && decide (p.1 < o + bs.length)) = [] := by
    rw [List.filter_filter, List.filter_eq_nil_iff]; intro p _; simp; omega
  have high : (f.filter fun p => decide (o + bs.length ≤ p.1)).filter (fun p => decide (o ≤ p.1) && decide (p.1 < o + bs.length)) = [] := by
    rw [List.filter_filter, List.filter_eq_nil_iff]; intro p _; simp
  have mid : (flashCells o bs).filter (fun p => decide (o ≤ p.1) && decide (p.1 < o + bs.length)) = flashCells o bs := by
    rw [List.filter_eq_self]; intro p hp; have := flashCells_keys o bs p hp; simp; omega
  simp only [flashRead, flashPut, flashSplice, List.filter_append, low, high, mid, List.nil_append, List.append_nil]
  refine List.ext_getElem (by simp) fun i h1 h2 => ?_
  simpa using tgetD_flashCells o bs i h2

theorem entryBytes_length (n l : Nat) : (entryBytes n l).length = 32 := by simp [entryBytes, leBytes_length, zeros]

theorem flashPut_nil (o : Nat) (bs : List Byte) : flashPut [] o bs = flashCells o bs := by simp [flashPut, flashSplice]

/-- An entry that is written in place `i` of the journal is the entry that this place holds (R448). -/
theorem journalAt_put (f : Tbl Byte) (i n l : Nat) (hn : n < 2 ^ 64) (hl : l < 2 ^ 64) :
    journalAt (flashPut f (journalBase + 32 * i) (entryBytes n l)) i = some (n, l) := by
  have h := flashRead_put f (journalBase + 32 * i) (entryBytes n l)
  rw [entryBytes_length] at h
  let b := leBytes 4 Config.journalMagic.toNat ++ leBytes 8 n ++ leBytes 8 l ++ zeros 8
  have hb : b.length = 28 := by simp [b, leBytes_length, zeros]
  have he : entryBytes n l = b ++ leBytes 4 (crc32 b) := rfl
  have hm : le4 (entryBytes n l) = Config.journalMagic.toNat := by
    simpa [he, b, le4, leBytes_length, leNat_leBytes] using Config.journalMagic.isLt
  have hd : (entryBytes n l).drop 28 = leBytes 4 (crc32 b) := by rw [he]; simp [hb]
  have ht : (entryBytes n l).take 28 = b := by rw [he]; simp [hb]
  have hs : leNat (((entryBytes n l).drop 4).take 8) = n := by
    simp [he, b, leBytes_length, leNat_leBytes]; omega
  have hlim : leNat (((entryBytes n l).drop 12).take 8) = l := by
    have : (entryBytes n l).drop 12 = leBytes 8 l ++ (zeros 8 ++ leBytes 4 (crc32 b)) := by
      have h12 : (leBytes 4 Config.journalMagic.toNat ++ leBytes 8 n).length = 12 := by simp [leBytes_length]
      rw [he, ← h12]; simp only [b, List.append_assoc]
      rw [← List.append_assoc (leBytes 4 _), List.drop_left]
    have t8 : (leBytes 8 l ++ (zeros 8 ++ leBytes 4 (crc32 b))).take 8 = leBytes 8 l := by
      simp [leBytes_length]
    rw [this, t8, leNat_leBytes]
    exact Nat.mod_eq_of_lt (by simpa using hl)
  have hc : leNat (leBytes 4 (crc32 b)) = crc32 b := by
    rw [leNat_leBytes]; exact Nat.mod_eq_of_lt (by simpa using crc32_lt b)
  simp [journalAt, h, hd, ht, hm, hs, hlim, hc]

theorem eraseDups_zeros (l : List Nat) (hl : l ≠ []) (h : ∀ x ∈ l, x = 0) : l.eraseDups = [0] := by
  cases l with
  | nil => exact absurd rfl hl
  | cons a as =>
    have ha : a = 0 := h a (by simp)
    have : as.filter (fun b => !b == a) = [] := by
      rw [List.filter_eq_nil_iff]; intro b hb; simp [ha, h b (by simp [hb])]
    rw [List.eraseDups_cons, this]; simp [ha]

/-- The first entry of an erased journal is the newest one (R449). -/
theorem newestEntry_first (n l : Nat) (hn : n < 2 ^ 64) (hl : l < 2 ^ 64) :
    newestEntry (flashPut [] journalBase (entryBytes n l)) = some (n, l) := by
  have at0 := journalAt_put [] 0 n l hn hl
  rw [Nat.mul_zero, Nat.add_zero] at at0
  have keys := flashCells_keys journalBase (entryBytes n l)
  rw [entryBytes_length] at keys
  have ne : flashCells journalBase (entryBytes n l) ≠ [] := by
    intro h
    have z := tgetD_flashCells journalBase (entryBytes n l) 20 (by rw [entryBytes_length]; omega)
    rw [h] at z
    have : (entryBytes n l)[20]'(by rw [entryBytes_length]; omega) = 0 := by
      simp [entryBytes, leBytes_length, zeros]
    rw [this] at z
    exact absurd z (by decide)
  have all : (((flashCells journalBase (entryBytes n l)).filter fun p => decide (journalBase ≤ p.1) && decide (p.1 < journalBase + 0x400000)).map
      fun p => (p.1 - journalBase) / 32).eraseDups = [0] := by
    have : (flashCells journalBase (entryBytes n l)).filter
        (fun p => decide (journalBase ≤ p.1) && decide (p.1 < journalBase + 0x400000)) = flashCells journalBase (entryBytes n l) := by
      rw [List.filter_eq_self]; intro p hp; have k := keys p hp
      simp only [Bool.and_eq_true, decide_eq_true_eq]
      exact ⟨k.1, Nat.lt_of_lt_of_le k.2 (Nat.add_le_add_left (by norm_num) _)⟩
    rw [this]
    refine eraseDups_zeros _ (fun h => ne (List.map_eq_nil_iff.mp h)) fun x hx => ?_
    obtain ⟨p, hp, rfl⟩ := List.mem_map.mp hx
    exact Nat.div_eq_of_lt (Nat.sub_lt_left_of_lt_add (keys p hp).1 (keys p hp).2)
  rw [flashPut_nil] at at0 ⊢
  simp only [newestEntry, journal, all, List.filterMap_cons, List.filterMap_nil, at0, List.foldl_cons, List.foldl_nil]

end Sys2Proof.Machine
end

