-- ==== Sys2Proof/Laws/State.lean ====
section
/-! SUPPORT. What each named update of the state leaves in each field and in each accessor, so that no proof unfolds an update. -/

namespace Sys2Proof.Machine

variable (s : State)

@[simp] theorem State.setReg_pending (k : Nat) (v : W64) : (s.setReg k v).pending = s.pending := rfl
@[simp] theorem State.setReg_mem (k : Nat) (v : W64) : (s.setReg k v).mem = s.mem := rfl
@[simp] theorem State.setReg_tags (k : Nat) (v : W64) : (s.setReg k v).tags = s.tags := rfl
@[simp] theorem State.setReg_queues (k : Nat) (v : W64) : (s.setReg k v).queues = s.queues := rfl
@[simp] theorem State.setReg_bufs (k : Nat) (v : W64) : (s.setReg k v).bufs = s.bufs := rfl
@[simp] theorem State.setReg_lastLoser (k : Nat) (v : W64) : (s.setReg k v).lastLoser = s.lastLoser := rfl
@[simp] theorem State.setReg_sigs (k : Nat) (v : W64) : (s.setReg k v).sigs = s.sigs := rfl
@[simp] theorem State.setReg_msgs (k : Nat) (v : W64) : (s.setReg k v).msgs = s.msgs := rfl
@[simp] theorem State.setReg_kerb (k : Nat) (v : W64) : (s.setReg k v).kerb = s.kerb := rfl
@[simp] theorem State.setReg_loads (k : Nat) (v : W64) : (s.setReg k v).loads = s.loads := rfl
@[simp] theorem State.setReg_rebind (k : Nat) (v : W64) : (s.setReg k v).rebind = s.rebind := rfl
@[simp] theorem State.setReg_compute (k : Nat) (v : W64) : (s.setReg k v).compute = s.compute := rfl
@[simp] theorem State.setReg_formed (k : Nat) (v : W64) : (s.setReg k v).formed = s.formed := rfl
@[simp] theorem State.setReg_computeWait (k : Nat) (v : W64) : (s.setReg k v).computeWait = s.computeWait := rfl
@[simp] theorem State.setReg_advanceWait (k : Nat) (v : W64) : (s.setReg k v).advanceWait = s.advanceWait := rfl
@[simp] theorem State.setReg_qps (k : Nat) (v : W64) : (s.setReg k v).qps = s.qps := rfl
@[simp] theorem State.setReg_paused (k : Nat) (v : W64) : (s.setReg k v).paused = s.paused := rfl
@[simp] theorem State.setReg_rx (k : Nat) (v : W64) : (s.setReg k v).rx = s.rx := rfl
@[simp] theorem State.setReg_turns (k : Nat) (v : W64) : (s.setReg k v).turns = s.turns := rfl
@[simp] theorem State.setReg_ring (k : Nat) (v : W64) : (s.setReg k v).ring = s.ring := rfl
@[simp] theorem State.setReg_unsent (k : Nat) (v : W64) : (s.setReg k v).unsent = s.unsent := rfl
@[simp] theorem State.setReg_lostSince (k : Nat) (v : W64) : (s.setReg k v).lostSince = s.lostSince := rfl
@[simp] theorem State.setReg_violations (k : Nat) (v : W64) : (s.setReg k v).violations = s.violations := rfl
@[simp] theorem State.setReg_faults (k : Nat) (v : W64) : (s.setReg k v).faults = s.faults := rfl
@[simp] theorem State.setReg_flashFailed (k : Nat) (v : W64) : (s.setReg k v).flashFailed = s.flashFailed := rfl
@[simp] theorem State.setReg_enables (k : Nat) (v : W64) : (s.setReg k v).enables = s.enables := rfl
@[simp] theorem State.setReg_disabling (k : Nat) (v : W64) : (s.setReg k v).disabling = s.disabling := rfl
@[simp] theorem State.setReg_disabled (k : Nat) (v : W64) : (s.setReg k v).disabled = s.disabled := rfl
@[simp] theorem State.setReg_dies (k : Nat) (v : W64) : (s.setReg k v).dies = s.dies := rfl
@[simp] theorem State.setReg_bases (k : Nat) (v : W64) : (s.setReg k v).bases = s.bases := rfl
@[simp] theorem State.setReg_waking (k : Nat) (v : W64) : (s.setReg k v).waking = s.waking := rfl
@[simp] theorem State.setReg_boot (k : Nat) (v : W64) : (s.setReg k v).boot = s.boot := rfl
@[simp] theorem State.setReg_released (k : Nat) (v : W64) : (s.setReg k v).released = s.released := rfl
@[simp] theorem State.setReg_refStarted (k : Nat) (v : W64) : (s.setReg k v).refStarted = s.refStarted := rfl
@[simp] theorem State.setReg_rstLast (k : Nat) (v : W64) : (s.setReg k v).rstLast = s.rstLast := rfl
@[simp] theorem State.setReg_rstSeen (k : Nat) (v : W64) : (s.setReg k v).rstSeen = s.rstSeen := rfl
@[simp] theorem State.setReg_throtN (k : Nat) (v : W64) : (s.setReg k v).throtN = s.throtN := rfl
@[simp] theorem State.setReg_cycle (k : Nat) (v : W64) : (s.setReg k v).cycle = s.cycle := rfl
@[simp] theorem State.setReg_thermtrip (k : Nat) (v : W64) : (s.setReg k v).thermtrip = s.thermtrip := rfl
@[simp] theorem State.setReg_mgmt (k : Nat) (v : W64) : (s.setReg k v).mgmt = s.mgmt := rfl
@[simp] theorem State.setReg_fuses (k : Nat) (v : W64) : (s.setReg k v).fuses = s.fuses := rfl
@[simp] theorem State.setReg_time (k : Nat) (v : W64) : (s.setReg k v).time = s.time := rfl
@[simp] theorem State.setReg_time1 (k : Nat) (v : W64) : (s.setReg k v).time1 = s.time1 := rfl
@[simp] theorem State.setReg_ages (k : Nat) (v : W64) : (s.setReg k v).ages = s.ages := rfl
@[simp] theorem State.setReg_ids (k : Nat) (v : W64) : (s.setReg k v).ids = s.ids := rfl
@[simp] theorem State.setReg_draws (k : Nat) (v : W64) : (s.setReg k v).draws = s.draws := rfl
@[simp] theorem State.setReg_tx (k : Nat) (v : W64) : (s.setReg k v).tx = s.tx := rfl
@[simp] theorem State.setReg_acc_queue (k : Nat) (v : W64) (c' : Nat) (q' : Queue) : (s.setReg k v).queue c' q' = s.queue c' q' := rfl
@[simp] theorem State.setReg_acc_die (k : Nat) (v : W64) (d' : Nat) : (s.setReg k v).die d' = s.die d' := rfl
@[simp] theorem State.setReg_acc_stack (k : Nat) (v : W64) (d' : Nat) : (s.setReg k v).stack d' = s.stack d' := rfl
@[simp] theorem State.setReg_acc_buf (k : Nat) (v : W64) (c' i' : Nat) : (s.setReg k v).buf c' i' = s.buf c' i' := rfl
@[simp] theorem State.setReg_acc_kerbOf (k : Nat) (v : W64) (n' : Nat) : (s.setReg k v).kerbOf n' = s.kerbOf n' := rfl
@[simp] theorem State.setReg_acc_qp (k : Nat) (v : W64) (n' : Nat) : (s.setReg k v).qp n' = s.qp n' := rfl
@[simp] theorem State.setReg_acc_rxOf (k : Nat) (v : W64) (qy' cls' : Nat) : (s.setReg k v).rxOf qy' cls' = s.rxOf qy' cls' := rfl

@[simp] theorem State.clearReg_pending (k : Nat) : (s.clearReg k).pending = s.pending := rfl
@[simp] theorem State.clearReg_mem (k : Nat) : (s.clearReg k).mem = s.mem := rfl
@[simp] theorem State.clearReg_tags (k : Nat) : (s.clearReg k).tags = s.tags := rfl
@[simp] theorem State.clearReg_queues (k : Nat) : (s.clearReg k).queues = s.queues := rfl
@[simp] theorem State.clearReg_bufs (k : Nat) : (s.clearReg k).bufs = s.bufs := rfl
@[simp] theorem State.clearReg_lastLoser (k : Nat) : (s.clearReg k).lastLoser = s.lastLoser := rfl
@[simp] theorem State.clearReg_sigs (k : Nat) : (s.clearReg k).sigs = s.sigs := rfl
@[simp] theorem State.clearReg_msgs (k : Nat) : (s.clearReg k).msgs = s.msgs := rfl
@[simp] theorem State.clearReg_kerb (k : Nat) : (s.clearReg k).kerb = s.kerb := rfl
@[simp] theorem State.clearReg_loads (k : Nat) : (s.clearReg k).loads = s.loads := rfl
@[simp] theorem State.clearReg_rebind (k : Nat) : (s.clearReg k).rebind = s.rebind := rfl
@[simp] theorem State.clearReg_compute (k : Nat) : (s.clearReg k).compute = s.compute := rfl
@[simp] theorem State.clearReg_formed (k : Nat) : (s.clearReg k).formed = s.formed := rfl
@[simp] theorem State.clearReg_computeWait (k : Nat) : (s.clearReg k).computeWait = s.computeWait := rfl
@[simp] theorem State.clearReg_advanceWait (k : Nat) : (s.clearReg k).advanceWait = s.advanceWait := rfl
@[simp] theorem State.clearReg_qps (k : Nat) : (s.clearReg k).qps = s.qps := rfl
@[simp] theorem State.clearReg_paused (k : Nat) : (s.clearReg k).paused = s.paused := rfl
@[simp] theorem State.clearReg_rx (k : Nat) : (s.clearReg k).rx = s.rx := rfl
@[simp] theorem State.clearReg_turns (k : Nat) : (s.clearReg k).turns = s.turns := rfl
@[simp] theorem State.clearReg_ring (k : Nat) : (s.clearReg k).ring = s.ring := rfl
@[simp] theorem State.clearReg_unsent (k : Nat) : (s.clearReg k).unsent = s.unsent := rfl
@[simp] theorem State.clearReg_lostSince (k : Nat) : (s.clearReg k).lostSince = s.lostSince := rfl
@[simp] theorem State.clearReg_violations (k : Nat) : (s.clearReg k).violations = s.violations := rfl
@[simp] theorem State.clearReg_faults (k : Nat) : (s.clearReg k).faults = s.faults := rfl
@[simp] theorem State.clearReg_flashFailed (k : Nat) : (s.clearReg k).flashFailed = s.flashFailed := rfl
@[simp] theorem State.clearReg_enables (k : Nat) : (s.clearReg k).enables = s.enables := rfl
@[simp] theorem State.clearReg_disabling (k : Nat) : (s.clearReg k).disabling = s.disabling := rfl
@[simp] theorem State.clearReg_disabled (k : Nat) : (s.clearReg k).disabled = s.disabled := rfl
@[simp] theorem State.clearReg_dies (k : Nat) : (s.clearReg k).dies = s.dies := rfl
@[simp] theorem State.clearReg_bases (k : Nat) : (s.clearReg k).bases = s.bases := rfl
@[simp] theorem State.clearReg_waking (k : Nat) : (s.clearReg k).waking = s.waking := rfl
@[simp] theorem State.clearReg_boot (k : Nat) : (s.clearReg k).boot = s.boot := rfl
@[simp] theorem State.clearReg_released (k : Nat) : (s.clearReg k).released = s.released := rfl
@[simp] theorem State.clearReg_refStarted (k : Nat) : (s.clearReg k).refStarted = s.refStarted := rfl
@[simp] theorem State.clearReg_rstLast (k : Nat) : (s.clearReg k).rstLast = s.rstLast := rfl
@[simp] theorem State.clearReg_rstSeen (k : Nat) : (s.clearReg k).rstSeen = s.rstSeen := rfl
@[simp] theorem State.clearReg_throtN (k : Nat) : (s.clearReg k).throtN = s.throtN := rfl
@[simp] theorem State.clearReg_cycle (k : Nat) : (s.clearReg k).cycle = s.cycle := rfl
@[simp] theorem State.clearReg_thermtrip (k : Nat) : (s.clearReg k).thermtrip = s.thermtrip := rfl
@[simp] theorem State.clearReg_mgmt (k : Nat) : (s.clearReg k).mgmt = s.mgmt := rfl
@[simp] theorem State.clearReg_fuses (k : Nat) : (s.clearReg k).fuses = s.fuses := rfl
@[simp] theorem State.clearReg_time (k : Nat) : (s.clearReg k).time = s.time := rfl
@[simp] theorem State.clearReg_time1 (k : Nat) : (s.clearReg k).time1 = s.time1 := rfl
@[simp] theorem State.clearReg_ages (k : Nat) : (s.clearReg k).ages = s.ages := rfl
@[simp] theorem State.clearReg_ids (k : Nat) : (s.clearReg k).ids = s.ids := rfl
@[simp] theorem State.clearReg_draws (k : Nat) : (s.clearReg k).draws = s.draws := rfl
@[simp] theorem State.clearReg_tx (k : Nat) : (s.clearReg k).tx = s.tx := rfl
@[simp] theorem State.clearReg_acc_queue (k : Nat) (c' : Nat) (q' : Queue) : (s.clearReg k).queue c' q' = s.queue c' q' := rfl
@[simp] theorem State.clearReg_acc_die (k : Nat) (d' : Nat) : (s.clearReg k).die d' = s.die d' := rfl
@[simp] theorem State.clearReg_acc_stack (k : Nat) (d' : Nat) : (s.clearReg k).stack d' = s.stack d' := rfl
@[simp] theorem State.clearReg_acc_buf (k : Nat) (c' i' : Nat) : (s.clearReg k).buf c' i' = s.buf c' i' := rfl
@[simp] theorem State.clearReg_acc_kerbOf (k : Nat) (n' : Nat) : (s.clearReg k).kerbOf n' = s.kerbOf n' := rfl
@[simp] theorem State.clearReg_acc_qp (k : Nat) (n' : Nat) : (s.clearReg k).qp n' = s.qp n' := rfl
@[simp] theorem State.clearReg_acc_rxOf (k : Nat) (qy' cls' : Nat) : (s.clearReg k).rxOf qy' cls' = s.rxOf qy' cls' := rfl

@[simp] theorem State.setQueue_pending (c : Nat) (q : Queue) (x : QState) : (s.setQueue c q x).pending = s.pending := rfl
@[simp] theorem State.setQueue_mem (c : Nat) (q : Queue) (x : QState) : (s.setQueue c q x).mem = s.mem := rfl
@[simp] theorem State.setQueue_tags (c : Nat) (q : Queue) (x : QState) : (s.setQueue c q x).tags = s.tags := rfl
@[simp] theorem State.setQueue_regs (c : Nat) (q : Queue) (x : QState) : (s.setQueue c q x).regs = s.regs := rfl
@[simp] theorem State.setQueue_bufs (c : Nat) (q : Queue) (x : QState) : (s.setQueue c q x).bufs = s.bufs := rfl
@[simp] theorem State.setQueue_lastLoser (c : Nat) (q : Queue) (x : QState) : (s.setQueue c q x).lastLoser = s.lastLoser := rfl
@[simp] theorem State.setQueue_sigs (c : Nat) (q : Queue) (x : QState) : (s.setQueue c q x).sigs = s.sigs := rfl
@[simp] theorem State.setQueue_msgs (c : Nat) (q : Queue) (x : QState) : (s.setQueue c q x).msgs = s.msgs := rfl
@[simp] theorem State.setQueue_kerb (c : Nat) (q : Queue) (x : QState) : (s.setQueue c q x).kerb = s.kerb := rfl
@[simp] theorem State.setQueue_loads (c : Nat) (q : Queue) (x : QState) : (s.setQueue c q x).loads = s.loads := rfl
@[simp] theorem State.setQueue_rebind (c : Nat) (q : Queue) (x : QState) : (s.setQueue c q x).rebind = s.rebind := rfl
@[simp] theorem State.setQueue_compute (c : Nat) (q : Queue) (x : QState) : (s.setQueue c q x).compute = s.compute := rfl
@[simp] theorem State.setQueue_formed (c : Nat) (q : Queue) (x : QState) : (s.setQueue c q x).formed = s.formed := rfl
@[simp] theorem State.setQueue_computeWait (c : Nat) (q : Queue) (x : QState) : (s.setQueue c q x).computeWait = s.computeWait := rfl
@[simp] theorem State.setQueue_advanceWait (c : Nat) (q : Queue) (x : QState) : (s.setQueue c q x).advanceWait = s.advanceWait := rfl
@[simp] theorem State.setQueue_qps (c : Nat) (q : Queue) (x : QState) : (s.setQueue c q x).qps = s.qps := rfl
@[simp] theorem State.setQueue_paused (c : Nat) (q : Queue) (x : QState) : (s.setQueue c q x).paused = s.paused := rfl
@[simp] theorem State.setQueue_rx (c : Nat) (q : Queue) (x : QState) : (s.setQueue c q x).rx = s.rx := rfl
@[simp] theorem State.setQueue_turns (c : Nat) (q : Queue) (x : QState) : (s.setQueue c q x).turns = s.turns := rfl
@[simp] theorem State.setQueue_ring (c : Nat) (q : Queue) (x : QState) : (s.setQueue c q x).ring = s.ring := rfl
@[simp] theorem State.setQueue_unsent (c : Nat) (q : Queue) (x : QState) : (s.setQueue c q x).unsent = s.unsent := rfl
@[simp] theorem State.setQueue_lostSince (c : Nat) (q : Queue) (x : QState) : (s.setQueue c q x).lostSince = s.lostSince := rfl
@[simp] theorem State.setQueue_violations (c : Nat) (q : Queue) (x : QState) : (s.setQueue c q x).violations = s.violations := rfl
@[simp] theorem State.setQueue_faults (c : Nat) (q : Queue) (x : QState) : (s.setQueue c q x).faults = s.faults := rfl
@[simp] theorem State.setQueue_flashFailed (c : Nat) (q : Queue) (x : QState) : (s.setQueue c q x).flashFailed = s.flashFailed := rfl
@[simp] theorem State.setQueue_enables (c : Nat) (q : Queue) (x : QState) : (s.setQueue c q x).enables = s.enables := rfl
@[simp] theorem State.setQueue_disabling (c : Nat) (q : Queue) (x : QState) : (s.setQueue c q x).disabling = s.disabling := rfl
@[simp] theorem State.setQueue_disabled (c : Nat) (q : Queue) (x : QState) : (s.setQueue c q x).disabled = s.disabled := rfl
@[simp] theorem State.setQueue_dies (c : Nat) (q : Queue) (x : QState) : (s.setQueue c q x).dies = s.dies := rfl
@[simp] theorem State.setQueue_bases (c : Nat) (q : Queue) (x : QState) : (s.setQueue c q x).bases = s.bases := rfl
@[simp] theorem State.setQueue_waking (c : Nat) (q : Queue) (x : QState) : (s.setQueue c q x).waking = s.waking := rfl
@[simp] theorem State.setQueue_boot (c : Nat) (q : Queue) (x : QState) : (s.setQueue c q x).boot = s.boot := rfl
@[simp] theorem State.setQueue_released (c : Nat) (q : Queue) (x : QState) : (s.setQueue c q x).released = s.released := rfl
@[simp] theorem State.setQueue_refStarted (c : Nat) (q : Queue) (x : QState) : (s.setQueue c q x).refStarted = s.refStarted := rfl
@[simp] theorem State.setQueue_rstLast (c : Nat) (q : Queue) (x : QState) : (s.setQueue c q x).rstLast = s.rstLast := rfl
@[simp] theorem State.setQueue_rstSeen (c : Nat) (q : Queue) (x : QState) : (s.setQueue c q x).rstSeen = s.rstSeen := rfl
@[simp] theorem State.setQueue_throtN (c : Nat) (q : Queue) (x : QState) : (s.setQueue c q x).throtN = s.throtN := rfl
@[simp] theorem State.setQueue_cycle (c : Nat) (q : Queue) (x : QState) : (s.setQueue c q x).cycle = s.cycle := rfl
@[simp] theorem State.setQueue_thermtrip (c : Nat) (q : Queue) (x : QState) : (s.setQueue c q x).thermtrip = s.thermtrip := rfl
@[simp] theorem State.setQueue_mgmt (c : Nat) (q : Queue) (x : QState) : (s.setQueue c q x).mgmt = s.mgmt := rfl
@[simp] theorem State.setQueue_fuses (c : Nat) (q : Queue) (x : QState) : (s.setQueue c q x).fuses = s.fuses := rfl
@[simp] theorem State.setQueue_time (c : Nat) (q : Queue) (x : QState) : (s.setQueue c q x).time = s.time := rfl
@[simp] theorem State.setQueue_time1 (c : Nat) (q : Queue) (x : QState) : (s.setQueue c q x).time1 = s.time1 := rfl
@[simp] theorem State.setQueue_ages (c : Nat) (q : Queue) (x : QState) : (s.setQueue c q x).ages = s.ages := rfl
@[simp] theorem State.setQueue_ids (c : Nat) (q : Queue) (x : QState) : (s.setQueue c q x).ids = s.ids := rfl
@[simp] theorem State.setQueue_draws (c : Nat) (q : Queue) (x : QState) : (s.setQueue c q x).draws = s.draws := rfl
@[simp] theorem State.setQueue_tx (c : Nat) (q : Queue) (x : QState) : (s.setQueue c q x).tx = s.tx := rfl
@[simp] theorem State.setQueue_acc_reg (c : Nat) (q : Queue) (x : QState) (j : Nat) : (s.setQueue c q x).reg j = s.reg j := rfl
@[simp] theorem State.setQueue_acc_die (c : Nat) (q : Queue) (x : QState) (d' : Nat) : (s.setQueue c q x).die d' = s.die d' := rfl
@[simp] theorem State.setQueue_acc_stack (c : Nat) (q : Queue) (x : QState) (d' : Nat) : (s.setQueue c q x).stack d' = s.stack d' := rfl
@[simp] theorem State.setQueue_acc_buf (c : Nat) (q : Queue) (x : QState) (c' i' : Nat) : (s.setQueue c q x).buf c' i' = s.buf c' i' := rfl
@[simp] theorem State.setQueue_acc_kerbOf (c : Nat) (q : Queue) (x : QState) (n' : Nat) : (s.setQueue c q x).kerbOf n' = s.kerbOf n' := rfl
@[simp] theorem State.setQueue_acc_qp (c : Nat) (q : Queue) (x : QState) (n' : Nat) : (s.setQueue c q x).qp n' = s.qp n' := rfl
@[simp] theorem State.setQueue_acc_rxOf (c : Nat) (q : Queue) (x : QState) (qy' cls' : Nat) : (s.setQueue c q x).rxOf qy' cls' = s.rxOf qy' cls' := rfl

@[simp] theorem State.setDie_pending (d : Nat) (x : DieSt) : (s.setDie d x).pending = s.pending := rfl
@[simp] theorem State.setDie_mem (d : Nat) (x : DieSt) : (s.setDie d x).mem = s.mem := rfl
@[simp] theorem State.setDie_tags (d : Nat) (x : DieSt) : (s.setDie d x).tags = s.tags := rfl
@[simp] theorem State.setDie_regs (d : Nat) (x : DieSt) : (s.setDie d x).regs = s.regs := rfl
@[simp] theorem State.setDie_queues (d : Nat) (x : DieSt) : (s.setDie d x).queues = s.queues := rfl
@[simp] theorem State.setDie_bufs (d : Nat) (x : DieSt) : (s.setDie d x).bufs = s.bufs := rfl
@[simp] theorem State.setDie_lastLoser (d : Nat) (x : DieSt) : (s.setDie d x).lastLoser = s.lastLoser := rfl
@[simp] theorem State.setDie_sigs (d : Nat) (x : DieSt) : (s.setDie d x).sigs = s.sigs := rfl
@[simp] theorem State.setDie_msgs (d : Nat) (x : DieSt) : (s.setDie d x).msgs = s.msgs := rfl
@[simp] theorem State.setDie_kerb (d : Nat) (x : DieSt) : (s.setDie d x).kerb = s.kerb := rfl
@[simp] theorem State.setDie_loads (d : Nat) (x : DieSt) : (s.setDie d x).loads = s.loads := rfl
@[simp] theorem State.setDie_rebind (d : Nat) (x : DieSt) : (s.setDie d x).rebind = s.rebind := rfl
@[simp] theorem State.setDie_compute (d : Nat) (x : DieSt) : (s.setDie d x).compute = s.compute := rfl
@[simp] theorem State.setDie_formed (d : Nat) (x : DieSt) : (s.setDie d x).formed = s.formed := rfl
@[simp] theorem State.setDie_computeWait (d : Nat) (x : DieSt) : (s.setDie d x).computeWait = s.computeWait := rfl
@[simp] theorem State.setDie_advanceWait (d : Nat) (x : DieSt) : (s.setDie d x).advanceWait = s.advanceWait := rfl
@[simp] theorem State.setDie_qps (d : Nat) (x : DieSt) : (s.setDie d x).qps = s.qps := rfl
@[simp] theorem State.setDie_paused (d : Nat) (x : DieSt) : (s.setDie d x).paused = s.paused := rfl
@[simp] theorem State.setDie_rx (d : Nat) (x : DieSt) : (s.setDie d x).rx = s.rx := rfl
@[simp] theorem State.setDie_turns (d : Nat) (x : DieSt) : (s.setDie d x).turns = s.turns := rfl
@[simp] theorem State.setDie_ring (d : Nat) (x : DieSt) : (s.setDie d x).ring = s.ring := rfl
@[simp] theorem State.setDie_unsent (d : Nat) (x : DieSt) : (s.setDie d x).unsent = s.unsent := rfl
@[simp] theorem State.setDie_lostSince (d : Nat) (x : DieSt) : (s.setDie d x).lostSince = s.lostSince := rfl
@[simp] theorem State.setDie_violations (d : Nat) (x : DieSt) : (s.setDie d x).violations = s.violations := rfl
@[simp] theorem State.setDie_faults (d : Nat) (x : DieSt) : (s.setDie d x).faults = s.faults := rfl
@[simp] theorem State.setDie_flashFailed (d : Nat) (x : DieSt) : (s.setDie d x).flashFailed = s.flashFailed := rfl
@[simp] theorem State.setDie_enables (d : Nat) (x : DieSt) : (s.setDie d x).enables = s.enables := rfl
@[simp] theorem State.setDie_disabling (d : Nat) (x : DieSt) : (s.setDie d x).disabling = s.disabling := rfl
@[simp] theorem State.setDie_disabled (d : Nat) (x : DieSt) : (s.setDie d x).disabled = s.disabled := rfl
@[simp] theorem State.setDie_bases (d : Nat) (x : DieSt) : (s.setDie d x).bases = s.bases := rfl
@[simp] theorem State.setDie_waking (d : Nat) (x : DieSt) : (s.setDie d x).waking = s.waking := rfl
@[simp] theorem State.setDie_boot (d : Nat) (x : DieSt) : (s.setDie d x).boot = s.boot := rfl
@[simp] theorem State.setDie_released (d : Nat) (x : DieSt) : (s.setDie d x).released = s.released := rfl
@[simp] theorem State.setDie_refStarted (d : Nat) (x : DieSt) : (s.setDie d x).refStarted = s.refStarted := rfl
@[simp] theorem State.setDie_rstLast (d : Nat) (x : DieSt) : (s.setDie d x).rstLast = s.rstLast := rfl
@[simp] theorem State.setDie_rstSeen (d : Nat) (x : DieSt) : (s.setDie d x).rstSeen = s.rstSeen := rfl
@[simp] theorem State.setDie_throtN (d : Nat) (x : DieSt) : (s.setDie d x).throtN = s.throtN := rfl
@[simp] theorem State.setDie_cycle (d : Nat) (x : DieSt) : (s.setDie d x).cycle = s.cycle := rfl
@[simp] theorem State.setDie_thermtrip (d : Nat) (x : DieSt) : (s.setDie d x).thermtrip = s.thermtrip := rfl
@[simp] theorem State.setDie_mgmt (d : Nat) (x : DieSt) : (s.setDie d x).mgmt = s.mgmt := rfl
@[simp] theorem State.setDie_fuses (d : Nat) (x : DieSt) : (s.setDie d x).fuses = s.fuses := rfl
@[simp] theorem State.setDie_time (d : Nat) (x : DieSt) : (s.setDie d x).time = s.time := rfl
@[simp] theorem State.setDie_time1 (d : Nat) (x : DieSt) : (s.setDie d x).time1 = s.time1 := rfl
@[simp] theorem State.setDie_ages (d : Nat) (x : DieSt) : (s.setDie d x).ages = s.ages := rfl
@[simp] theorem State.setDie_ids (d : Nat) (x : DieSt) : (s.setDie d x).ids = s.ids := rfl
@[simp] theorem State.setDie_draws (d : Nat) (x : DieSt) : (s.setDie d x).draws = s.draws := rfl
@[simp] theorem State.setDie_tx (d : Nat) (x : DieSt) : (s.setDie d x).tx = s.tx := rfl
@[simp] theorem State.setDie_acc_reg (d : Nat) (x : DieSt) (j : Nat) : (s.setDie d x).reg j = s.reg j := rfl
@[simp] theorem State.setDie_acc_queue (d : Nat) (x : DieSt) (c' : Nat) (q' : Queue) : (s.setDie d x).queue c' q' = s.queue c' q' := rfl
@[simp] theorem State.setDie_acc_stack (d : Nat) (x : DieSt) (d' : Nat) : (s.setDie d x).stack d' = s.stack d' := rfl
@[simp] theorem State.setDie_acc_buf (d : Nat) (x : DieSt) (c' i' : Nat) : (s.setDie d x).buf c' i' = s.buf c' i' := rfl
@[simp] theorem State.setDie_acc_kerbOf (d : Nat) (x : DieSt) (n' : Nat) : (s.setDie d x).kerbOf n' = s.kerbOf n' := rfl
@[simp] theorem State.setDie_acc_qp (d : Nat) (x : DieSt) (n' : Nat) : (s.setDie d x).qp n' = s.qp n' := rfl
@[simp] theorem State.setDie_acc_rxOf (d : Nat) (x : DieSt) (qy' cls' : Nat) : (s.setDie d x).rxOf qy' cls' = s.rxOf qy' cls' := rfl

@[simp] theorem State.setStack_pending (n : Nat) (x : StackSt) : (s.setStack n x).pending = s.pending := rfl
@[simp] theorem State.setStack_mem (n : Nat) (x : StackSt) : (s.setStack n x).mem = s.mem := rfl
@[simp] theorem State.setStack_tags (n : Nat) (x : StackSt) : (s.setStack n x).tags = s.tags := rfl
@[simp] theorem State.setStack_regs (n : Nat) (x : StackSt) : (s.setStack n x).regs = s.regs := rfl
@[simp] theorem State.setStack_queues (n : Nat) (x : StackSt) : (s.setStack n x).queues = s.queues := rfl
@[simp] theorem State.setStack_bufs (n : Nat) (x : StackSt) : (s.setStack n x).bufs = s.bufs := rfl
@[simp] theorem State.setStack_lastLoser (n : Nat) (x : StackSt) : (s.setStack n x).lastLoser = s.lastLoser := rfl
@[simp] theorem State.setStack_sigs (n : Nat) (x : StackSt) : (s.setStack n x).sigs = s.sigs := rfl
@[simp] theorem State.setStack_msgs (n : Nat) (x : StackSt) : (s.setStack n x).msgs = s.msgs := rfl
@[simp] theorem State.setStack_kerb (n : Nat) (x : StackSt) : (s.setStack n x).kerb = s.kerb := rfl
@[simp] theorem State.setStack_loads (n : Nat) (x : StackSt) : (s.setStack n x).loads = s.loads := rfl
@[simp] theorem State.setStack_rebind (n : Nat) (x : StackSt) : (s.setStack n x).rebind = s.rebind := rfl
@[simp] theorem State.setStack_compute (n : Nat) (x : StackSt) : (s.setStack n x).compute = s.compute := rfl
@[simp] theorem State.setStack_formed (n : Nat) (x : StackSt) : (s.setStack n x).formed = s.formed := rfl
@[simp] theorem State.setStack_computeWait (n : Nat) (x : StackSt) : (s.setStack n x).computeWait = s.computeWait := rfl
@[simp] theorem State.setStack_advanceWait (n : Nat) (x : StackSt) : (s.setStack n x).advanceWait = s.advanceWait := rfl
@[simp] theorem State.setStack_qps (n : Nat) (x : StackSt) : (s.setStack n x).qps = s.qps := rfl
@[simp] theorem State.setStack_paused (n : Nat) (x : StackSt) : (s.setStack n x).paused = s.paused := rfl
@[simp] theorem State.setStack_rx (n : Nat) (x : StackSt) : (s.setStack n x).rx = s.rx := rfl
@[simp] theorem State.setStack_turns (n : Nat) (x : StackSt) : (s.setStack n x).turns = s.turns := rfl
@[simp] theorem State.setStack_ring (n : Nat) (x : StackSt) : (s.setStack n x).ring = s.ring := rfl
@[simp] theorem State.setStack_unsent (n : Nat) (x : StackSt) : (s.setStack n x).unsent = s.unsent := rfl
@[simp] theorem State.setStack_lostSince (n : Nat) (x : StackSt) : (s.setStack n x).lostSince = s.lostSince := rfl
@[simp] theorem State.setStack_violations (n : Nat) (x : StackSt) : (s.setStack n x).violations = s.violations := rfl
@[simp] theorem State.setStack_faults (n : Nat) (x : StackSt) : (s.setStack n x).faults = s.faults := rfl
@[simp] theorem State.setStack_flashFailed (n : Nat) (x : StackSt) : (s.setStack n x).flashFailed = s.flashFailed := rfl
@[simp] theorem State.setStack_enables (n : Nat) (x : StackSt) : (s.setStack n x).enables = s.enables := rfl
@[simp] theorem State.setStack_disabling (n : Nat) (x : StackSt) : (s.setStack n x).disabling = s.disabling := rfl
@[simp] theorem State.setStack_disabled (n : Nat) (x : StackSt) : (s.setStack n x).disabled = s.disabled := rfl
@[simp] theorem State.setStack_dies (n : Nat) (x : StackSt) : (s.setStack n x).dies = s.dies := rfl
@[simp] theorem State.setStack_waking (n : Nat) (x : StackSt) : (s.setStack n x).waking = s.waking := rfl
@[simp] theorem State.setStack_boot (n : Nat) (x : StackSt) : (s.setStack n x).boot = s.boot := rfl
@[simp] theorem State.setStack_released (n : Nat) (x : StackSt) : (s.setStack n x).released = s.released := rfl
@[simp] theorem State.setStack_refStarted (n : Nat) (x : StackSt) : (s.setStack n x).refStarted = s.refStarted := rfl
@[simp] theorem State.setStack_rstLast (n : Nat) (x : StackSt) : (s.setStack n x).rstLast = s.rstLast := rfl
@[simp] theorem State.setStack_rstSeen (n : Nat) (x : StackSt) : (s.setStack n x).rstSeen = s.rstSeen := rfl
@[simp] theorem State.setStack_throtN (n : Nat) (x : StackSt) : (s.setStack n x).throtN = s.throtN := rfl
@[simp] theorem State.setStack_cycle (n : Nat) (x : StackSt) : (s.setStack n x).cycle = s.cycle := rfl
@[simp] theorem State.setStack_thermtrip (n : Nat) (x : StackSt) : (s.setStack n x).thermtrip = s.thermtrip := rfl
@[simp] theorem State.setStack_mgmt (n : Nat) (x : StackSt) : (s.setStack n x).mgmt = s.mgmt := rfl
@[simp] theorem State.setStack_fuses (n : Nat) (x : StackSt) : (s.setStack n x).fuses = s.fuses := rfl
@[simp] theorem State.setStack_time (n : Nat) (x : StackSt) : (s.setStack n x).time = s.time := rfl
@[simp] theorem State.setStack_time1 (n : Nat) (x : StackSt) : (s.setStack n x).time1 = s.time1 := rfl
@[simp] theorem State.setStack_ages (n : Nat) (x : StackSt) : (s.setStack n x).ages = s.ages := rfl
@[simp] theorem State.setStack_ids (n : Nat) (x : StackSt) : (s.setStack n x).ids = s.ids := rfl
@[simp] theorem State.setStack_draws (n : Nat) (x : StackSt) : (s.setStack n x).draws = s.draws := rfl
@[simp] theorem State.setStack_tx (n : Nat) (x : StackSt) : (s.setStack n x).tx = s.tx := rfl
@[simp] theorem State.setStack_acc_reg (n : Nat) (x : StackSt) (j : Nat) : (s.setStack n x).reg j = s.reg j := rfl
@[simp] theorem State.setStack_acc_queue (n : Nat) (x : StackSt) (c' : Nat) (q' : Queue) : (s.setStack n x).queue c' q' = s.queue c' q' := rfl
@[simp] theorem State.setStack_acc_die (n : Nat) (x : StackSt) (d' : Nat) : (s.setStack n x).die d' = s.die d' := rfl
@[simp] theorem State.setStack_acc_buf (n : Nat) (x : StackSt) (c' i' : Nat) : (s.setStack n x).buf c' i' = s.buf c' i' := rfl
@[simp] theorem State.setStack_acc_kerbOf (n : Nat) (x : StackSt) (n' : Nat) : (s.setStack n x).kerbOf n' = s.kerbOf n' := rfl
@[simp] theorem State.setStack_acc_qp (n : Nat) (x : StackSt) (n' : Nat) : (s.setStack n x).qp n' = s.qp n' := rfl
@[simp] theorem State.setStack_acc_rxOf (n : Nat) (x : StackSt) (qy' cls' : Nat) : (s.setStack n x).rxOf qy' cls' = s.rxOf qy' cls' := rfl

@[simp] theorem State.setBuf_pending (c i : Nat) (b : MxBuf) : (s.setBuf c i b).pending = s.pending := rfl
@[simp] theorem State.setBuf_mem (c i : Nat) (b : MxBuf) : (s.setBuf c i b).mem = s.mem := rfl
@[simp] theorem State.setBuf_tags (c i : Nat) (b : MxBuf) : (s.setBuf c i b).tags = s.tags := rfl
@[simp] theorem State.setBuf_regs (c i : Nat) (b : MxBuf) : (s.setBuf c i b).regs = s.regs := rfl
@[simp] theorem State.setBuf_queues (c i : Nat) (b : MxBuf) : (s.setBuf c i b).queues = s.queues := rfl
@[simp] theorem State.setBuf_lastLoser (c i : Nat) (b : MxBuf) : (s.setBuf c i b).lastLoser = s.lastLoser := rfl
@[simp] theorem State.setBuf_sigs (c i : Nat) (b : MxBuf) : (s.setBuf c i b).sigs = s.sigs := rfl
@[simp] theorem State.setBuf_msgs (c i : Nat) (b : MxBuf) : (s.setBuf c i b).msgs = s.msgs := rfl
@[simp] theorem State.setBuf_kerb (c i : Nat) (b : MxBuf) : (s.setBuf c i b).kerb = s.kerb := rfl
@[simp] theorem State.setBuf_loads (c i : Nat) (b : MxBuf) : (s.setBuf c i b).loads = s.loads := rfl
@[simp] theorem State.setBuf_rebind (c i : Nat) (b : MxBuf) : (s.setBuf c i b).rebind = s.rebind := rfl
@[simp] theorem State.setBuf_compute (c i : Nat) (b : MxBuf) : (s.setBuf c i b).compute = s.compute := rfl
@[simp] theorem State.setBuf_formed (c i : Nat) (b : MxBuf) : (s.setBuf c i b).formed = s.formed := rfl
@[simp] theorem State.setBuf_computeWait (c i : Nat) (b : MxBuf) : (s.setBuf c i b).computeWait = s.computeWait := rfl
@[simp] theorem State.setBuf_advanceWait (c i : Nat) (b : MxBuf) : (s.setBuf c i b).advanceWait = s.advanceWait := rfl
@[simp] theorem State.setBuf_qps (c i : Nat) (b : MxBuf) : (s.setBuf c i b).qps = s.qps := rfl
@[simp] theorem State.setBuf_paused (c i : Nat) (b : MxBuf) : (s.setBuf c i b).paused = s.paused := rfl
@[simp] theorem State.setBuf_rx (c i : Nat) (b : MxBuf) : (s.setBuf c i b).rx = s.rx := rfl
@[simp] theorem State.setBuf_turns (c i : Nat) (b : MxBuf) : (s.setBuf c i b).turns = s.turns := rfl
@[simp] theorem State.setBuf_ring (c i : Nat) (b : MxBuf) : (s.setBuf c i b).ring = s.ring := rfl
@[simp] theorem State.setBuf_unsent (c i : Nat) (b : MxBuf) : (s.setBuf c i b).unsent = s.unsent := rfl
@[simp] theorem State.setBuf_lostSince (c i : Nat) (b : MxBuf) : (s.setBuf c i b).lostSince = s.lostSince := rfl
@[simp] theorem State.setBuf_violations (c i : Nat) (b : MxBuf) : (s.setBuf c i b).violations = s.violations := rfl
@[simp] theorem State.setBuf_faults (c i : Nat) (b : MxBuf) : (s.setBuf c i b).faults = s.faults := rfl
@[simp] theorem State.setBuf_flashFailed (c i : Nat) (b : MxBuf) : (s.setBuf c i b).flashFailed = s.flashFailed := rfl
@[simp] theorem State.setBuf_enables (c i : Nat) (b : MxBuf) : (s.setBuf c i b).enables = s.enables := rfl
@[simp] theorem State.setBuf_disabling (c i : Nat) (b : MxBuf) : (s.setBuf c i b).disabling = s.disabling := rfl
@[simp] theorem State.setBuf_disabled (c i : Nat) (b : MxBuf) : (s.setBuf c i b).disabled = s.disabled := rfl
@[simp] theorem State.setBuf_dies (c i : Nat) (b : MxBuf) : (s.setBuf c i b).dies = s.dies := rfl
@[simp] theorem State.setBuf_bases (c i : Nat) (b : MxBuf) : (s.setBuf c i b).bases = s.bases := rfl
@[simp] theorem State.setBuf_waking (c i : Nat) (b : MxBuf) : (s.setBuf c i b).waking = s.waking := rfl
@[simp] theorem State.setBuf_boot (c i : Nat) (b : MxBuf) : (s.setBuf c i b).boot = s.boot := rfl
@[simp] theorem State.setBuf_released (c i : Nat) (b : MxBuf) : (s.setBuf c i b).released = s.released := rfl
@[simp] theorem State.setBuf_refStarted (c i : Nat) (b : MxBuf) : (s.setBuf c i b).refStarted = s.refStarted := rfl
@[simp] theorem State.setBuf_rstLast (c i : Nat) (b : MxBuf) : (s.setBuf c i b).rstLast = s.rstLast := rfl
@[simp] theorem State.setBuf_rstSeen (c i : Nat) (b : MxBuf) : (s.setBuf c i b).rstSeen = s.rstSeen := rfl
@[simp] theorem State.setBuf_throtN (c i : Nat) (b : MxBuf) : (s.setBuf c i b).throtN = s.throtN := rfl
@[simp] theorem State.setBuf_cycle (c i : Nat) (b : MxBuf) : (s.setBuf c i b).cycle = s.cycle := rfl
@[simp] theorem State.setBuf_thermtrip (c i : Nat) (b : MxBuf) : (s.setBuf c i b).thermtrip = s.thermtrip := rfl
@[simp] theorem State.setBuf_mgmt (c i : Nat) (b : MxBuf) : (s.setBuf c i b).mgmt = s.mgmt := rfl
@[simp] theorem State.setBuf_fuses (c i : Nat) (b : MxBuf) : (s.setBuf c i b).fuses = s.fuses := rfl
@[simp] theorem State.setBuf_time (c i : Nat) (b : MxBuf) : (s.setBuf c i b).time = s.time := rfl
@[simp] theorem State.setBuf_time1 (c i : Nat) (b : MxBuf) : (s.setBuf c i b).time1 = s.time1 := rfl
@[simp] theorem State.setBuf_ages (c i : Nat) (b : MxBuf) : (s.setBuf c i b).ages = s.ages := rfl
@[simp] theorem State.setBuf_ids (c i : Nat) (b : MxBuf) : (s.setBuf c i b).ids = s.ids := rfl
@[simp] theorem State.setBuf_draws (c i : Nat) (b : MxBuf) : (s.setBuf c i b).draws = s.draws := rfl
@[simp] theorem State.setBuf_tx (c i : Nat) (b : MxBuf) : (s.setBuf c i b).tx = s.tx := rfl
@[simp] theorem State.setBuf_acc_reg (c i : Nat) (b : MxBuf) (j : Nat) : (s.setBuf c i b).reg j = s.reg j := rfl
@[simp] theorem State.setBuf_acc_queue (c i : Nat) (b : MxBuf) (c' : Nat) (q' : Queue) : (s.setBuf c i b).queue c' q' = s.queue c' q' := rfl
@[simp] theorem State.setBuf_acc_die (c i : Nat) (b : MxBuf) (d' : Nat) : (s.setBuf c i b).die d' = s.die d' := rfl
@[simp] theorem State.setBuf_acc_stack (c i : Nat) (b : MxBuf) (d' : Nat) : (s.setBuf c i b).stack d' = s.stack d' := rfl
@[simp] theorem State.setBuf_acc_kerbOf (c i : Nat) (b : MxBuf) (n' : Nat) : (s.setBuf c i b).kerbOf n' = s.kerbOf n' := rfl
@[simp] theorem State.setBuf_acc_qp (c i : Nat) (b : MxBuf) (n' : Nat) : (s.setBuf c i b).qp n' = s.qp n' := rfl
@[simp] theorem State.setBuf_acc_rxOf (c i : Nat) (b : MxBuf) (qy' cls' : Nat) : (s.setBuf c i b).rxOf qy' cls' = s.rxOf qy' cls' := rfl

@[simp] theorem State.setKerb_pending (n : Nat) (x : KerbSt) : (s.setKerb n x).pending = s.pending := rfl
@[simp] theorem State.setKerb_mem (n : Nat) (x : KerbSt) : (s.setKerb n x).mem = s.mem := rfl
@[simp] theorem State.setKerb_tags (n : Nat) (x : KerbSt) : (s.setKerb n x).tags = s.tags := rfl
@[simp] theorem State.setKerb_regs (n : Nat) (x : KerbSt) : (s.setKerb n x).regs = s.regs := rfl
@[simp] theorem State.setKerb_queues (n : Nat) (x : KerbSt) : (s.setKerb n x).queues = s.queues := rfl
@[simp] theorem State.setKerb_bufs (n : Nat) (x : KerbSt) : (s.setKerb n x).bufs = s.bufs := rfl
@[simp] theorem State.setKerb_lastLoser (n : Nat) (x : KerbSt) : (s.setKerb n x).lastLoser = s.lastLoser := rfl
@[simp] theorem State.setKerb_sigs (n : Nat) (x : KerbSt) : (s.setKerb n x).sigs = s.sigs := rfl
@[simp] theorem State.setKerb_msgs (n : Nat) (x : KerbSt) : (s.setKerb n x).msgs = s.msgs := rfl
@[simp] theorem State.setKerb_loads (n : Nat) (x : KerbSt) : (s.setKerb n x).loads = s.loads := rfl
@[simp] theorem State.setKerb_rebind (n : Nat) (x : KerbSt) : (s.setKerb n x).rebind = s.rebind := rfl
@[simp] theorem State.setKerb_compute (n : Nat) (x : KerbSt) : (s.setKerb n x).compute = s.compute := rfl
@[simp] theorem State.setKerb_formed (n : Nat) (x : KerbSt) : (s.setKerb n x).formed = s.formed := rfl
@[simp] theorem State.setKerb_computeWait (n : Nat) (x : KerbSt) : (s.setKerb n x).computeWait = s.computeWait := rfl
@[simp] theorem State.setKerb_advanceWait (n : Nat) (x : KerbSt) : (s.setKerb n x).advanceWait = s.advanceWait := rfl
@[simp] theorem State.setKerb_qps (n : Nat) (x : KerbSt) : (s.setKerb n x).qps = s.qps := rfl
@[simp] theorem State.setKerb_paused (n : Nat) (x : KerbSt) : (s.setKerb n x).paused = s.paused := rfl
@[simp] theorem State.setKerb_rx (n : Nat) (x : KerbSt) : (s.setKerb n x).rx = s.rx := rfl
@[simp] theorem State.setKerb_turns (n : Nat) (x : KerbSt) : (s.setKerb n x).turns = s.turns := rfl
@[simp] theorem State.setKerb_ring (n : Nat) (x : KerbSt) : (s.setKerb n x).ring = s.ring := rfl
@[simp] theorem State.setKerb_unsent (n : Nat) (x : KerbSt) : (s.setKerb n x).unsent = s.unsent := rfl
@[simp] theorem State.setKerb_lostSince (n : Nat) (x : KerbSt) : (s.setKerb n x).lostSince = s.lostSince := rfl
@[simp] theorem State.setKerb_violations (n : Nat) (x : KerbSt) : (s.setKerb n x).violations = s.violations := rfl
@[simp] theorem State.setKerb_faults (n : Nat) (x : KerbSt) : (s.setKerb n x).faults = s.faults := rfl
@[simp] theorem State.setKerb_flashFailed (n : Nat) (x : KerbSt) : (s.setKerb n x).flashFailed = s.flashFailed := rfl
@[simp] theorem State.setKerb_enables (n : Nat) (x : KerbSt) : (s.setKerb n x).enables = s.enables := rfl
@[simp] theorem State.setKerb_disabling (n : Nat) (x : KerbSt) : (s.setKerb n x).disabling = s.disabling := rfl
@[simp] theorem State.setKerb_disabled (n : Nat) (x : KerbSt) : (s.setKerb n x).disabled = s.disabled := rfl
@[simp] theorem State.setKerb_dies (n : Nat) (x : KerbSt) : (s.setKerb n x).dies = s.dies := rfl
@[simp] theorem State.setKerb_bases (n : Nat) (x : KerbSt) : (s.setKerb n x).bases = s.bases := rfl
@[simp] theorem State.setKerb_waking (n : Nat) (x : KerbSt) : (s.setKerb n x).waking = s.waking := rfl
@[simp] theorem State.setKerb_boot (n : Nat) (x : KerbSt) : (s.setKerb n x).boot = s.boot := rfl
@[simp] theorem State.setKerb_released (n : Nat) (x : KerbSt) : (s.setKerb n x).released = s.released := rfl
@[simp] theorem State.setKerb_refStarted (n : Nat) (x : KerbSt) : (s.setKerb n x).refStarted = s.refStarted := rfl
@[simp] theorem State.setKerb_rstLast (n : Nat) (x : KerbSt) : (s.setKerb n x).rstLast = s.rstLast := rfl
@[simp] theorem State.setKerb_rstSeen (n : Nat) (x : KerbSt) : (s.setKerb n x).rstSeen = s.rstSeen := rfl
@[simp] theorem State.setKerb_throtN (n : Nat) (x : KerbSt) : (s.setKerb n x).throtN = s.throtN := rfl
@[simp] theorem State.setKerb_cycle (n : Nat) (x : KerbSt) : (s.setKerb n x).cycle = s.cycle := rfl
@[simp] theorem State.setKerb_thermtrip (n : Nat) (x : KerbSt) : (s.setKerb n x).thermtrip = s.thermtrip := rfl
@[simp] theorem State.setKerb_mgmt (n : Nat) (x : KerbSt) : (s.setKerb n x).mgmt = s.mgmt := rfl
@[simp] theorem State.setKerb_fuses (n : Nat) (x : KerbSt) : (s.setKerb n x).fuses = s.fuses := rfl
@[simp] theorem State.setKerb_time (n : Nat) (x : KerbSt) : (s.setKerb n x).time = s.time := rfl
@[simp] theorem State.setKerb_time1 (n : Nat) (x : KerbSt) : (s.setKerb n x).time1 = s.time1 := rfl
@[simp] theorem State.setKerb_ages (n : Nat) (x : KerbSt) : (s.setKerb n x).ages = s.ages := rfl
@[simp] theorem State.setKerb_ids (n : Nat) (x : KerbSt) : (s.setKerb n x).ids = s.ids := rfl
@[simp] theorem State.setKerb_draws (n : Nat) (x : KerbSt) : (s.setKerb n x).draws = s.draws := rfl
@[simp] theorem State.setKerb_tx (n : Nat) (x : KerbSt) : (s.setKerb n x).tx = s.tx := rfl
@[simp] theorem State.setKerb_acc_reg (n : Nat) (x : KerbSt) (j : Nat) : (s.setKerb n x).reg j = s.reg j := rfl
@[simp] theorem State.setKerb_acc_queue (n : Nat) (x : KerbSt) (c' : Nat) (q' : Queue) : (s.setKerb n x).queue c' q' = s.queue c' q' := rfl
@[simp] theorem State.setKerb_acc_die (n : Nat) (x : KerbSt) (d' : Nat) : (s.setKerb n x).die d' = s.die d' := rfl
@[simp] theorem State.setKerb_acc_stack (n : Nat) (x : KerbSt) (d' : Nat) : (s.setKerb n x).stack d' = s.stack d' := rfl
@[simp] theorem State.setKerb_acc_buf (n : Nat) (x : KerbSt) (c' i' : Nat) : (s.setKerb n x).buf c' i' = s.buf c' i' := rfl
@[simp] theorem State.setKerb_acc_qp (n : Nat) (x : KerbSt) (n' : Nat) : (s.setKerb n x).qp n' = s.qp n' := rfl
@[simp] theorem State.setKerb_acc_rxOf (n : Nat) (x : KerbSt) (qy' cls' : Nat) : (s.setKerb n x).rxOf qy' cls' = s.rxOf qy' cls' := rfl

@[simp] theorem State.setQp_pending (n : Nat) (x : QpSt) : (s.setQp n x).pending = s.pending := rfl
@[simp] theorem State.setQp_mem (n : Nat) (x : QpSt) : (s.setQp n x).mem = s.mem := rfl
@[simp] theorem State.setQp_tags (n : Nat) (x : QpSt) : (s.setQp n x).tags = s.tags := rfl
@[simp] theorem State.setQp_regs (n : Nat) (x : QpSt) : (s.setQp n x).regs = s.regs := rfl
@[simp] theorem State.setQp_queues (n : Nat) (x : QpSt) : (s.setQp n x).queues = s.queues := rfl
@[simp] theorem State.setQp_bufs (n : Nat) (x : QpSt) : (s.setQp n x).bufs = s.bufs := rfl
@[simp] theorem State.setQp_lastLoser (n : Nat) (x : QpSt) : (s.setQp n x).lastLoser = s.lastLoser := rfl
@[simp] theorem State.setQp_sigs (n : Nat) (x : QpSt) : (s.setQp n x).sigs = s.sigs := rfl
@[simp] theorem State.setQp_msgs (n : Nat) (x : QpSt) : (s.setQp n x).msgs = s.msgs := rfl
@[simp] theorem State.setQp_kerb (n : Nat) (x : QpSt) : (s.setQp n x).kerb = s.kerb := rfl
@[simp] theorem State.setQp_loads (n : Nat) (x : QpSt) : (s.setQp n x).loads = s.loads := rfl
@[simp] theorem State.setQp_rebind (n : Nat) (x : QpSt) : (s.setQp n x).rebind = s.rebind := rfl
@[simp] theorem State.setQp_compute (n : Nat) (x : QpSt) : (s.setQp n x).compute = s.compute := rfl
@[simp] theorem State.setQp_formed (n : Nat) (x : QpSt) : (s.setQp n x).formed = s.formed := rfl
@[simp] theorem State.setQp_computeWait (n : Nat) (x : QpSt) : (s.setQp n x).computeWait = s.computeWait := rfl
@[simp] theorem State.setQp_advanceWait (n : Nat) (x : QpSt) : (s.setQp n x).advanceWait = s.advanceWait := rfl
@[simp] theorem State.setQp_paused (n : Nat) (x : QpSt) : (s.setQp n x).paused = s.paused := rfl
@[simp] theorem State.setQp_rx (n : Nat) (x : QpSt) : (s.setQp n x).rx = s.rx := rfl
@[simp] theorem State.setQp_turns (n : Nat) (x : QpSt) : (s.setQp n x).turns = s.turns := rfl
@[simp] theorem State.setQp_ring (n : Nat) (x : QpSt) : (s.setQp n x).ring = s.ring := rfl
@[simp] theorem State.setQp_unsent (n : Nat) (x : QpSt) : (s.setQp n x).unsent = s.unsent := rfl
@[simp] theorem State.setQp_lostSince (n : Nat) (x : QpSt) : (s.setQp n x).lostSince = s.lostSince := rfl
@[simp] theorem State.setQp_violations (n : Nat) (x : QpSt) : (s.setQp n x).violations = s.violations := rfl
@[simp] theorem State.setQp_faults (n : Nat) (x : QpSt) : (s.setQp n x).faults = s.faults := rfl
@[simp] theorem State.setQp_flashFailed (n : Nat) (x : QpSt) : (s.setQp n x).flashFailed = s.flashFailed := rfl
@[simp] theorem State.setQp_enables (n : Nat) (x : QpSt) : (s.setQp n x).enables = s.enables := rfl
@[simp] theorem State.setQp_disabling (n : Nat) (x : QpSt) : (s.setQp n x).disabling = s.disabling := rfl
@[simp] theorem State.setQp_disabled (n : Nat) (x : QpSt) : (s.setQp n x).disabled = s.disabled := rfl
@[simp] theorem State.setQp_dies (n : Nat) (x : QpSt) : (s.setQp n x).dies = s.dies := rfl
@[simp] theorem State.setQp_bases (n : Nat) (x : QpSt) : (s.setQp n x).bases = s.bases := rfl
@[simp] theorem State.setQp_waking (n : Nat) (x : QpSt) : (s.setQp n x).waking = s.waking := rfl
@[simp] theorem State.setQp_boot (n : Nat) (x : QpSt) : (s.setQp n x).boot = s.boot := rfl
@[simp] theorem State.setQp_released (n : Nat) (x : QpSt) : (s.setQp n x).released = s.released := rfl
@[simp] theorem State.setQp_refStarted (n : Nat) (x : QpSt) : (s.setQp n x).refStarted = s.refStarted := rfl
@[simp] theorem State.setQp_rstLast (n : Nat) (x : QpSt) : (s.setQp n x).rstLast = s.rstLast := rfl
@[simp] theorem State.setQp_rstSeen (n : Nat) (x : QpSt) : (s.setQp n x).rstSeen = s.rstSeen := rfl
@[simp] theorem State.setQp_throtN (n : Nat) (x : QpSt) : (s.setQp n x).throtN = s.throtN := rfl
@[simp] theorem State.setQp_cycle (n : Nat) (x : QpSt) : (s.setQp n x).cycle = s.cycle := rfl
@[simp] theorem State.setQp_thermtrip (n : Nat) (x : QpSt) : (s.setQp n x).thermtrip = s.thermtrip := rfl
@[simp] theorem State.setQp_mgmt (n : Nat) (x : QpSt) : (s.setQp n x).mgmt = s.mgmt := rfl
@[simp] theorem State.setQp_fuses (n : Nat) (x : QpSt) : (s.setQp n x).fuses = s.fuses := rfl
@[simp] theorem State.setQp_time (n : Nat) (x : QpSt) : (s.setQp n x).time = s.time := rfl
@[simp] theorem State.setQp_time1 (n : Nat) (x : QpSt) : (s.setQp n x).time1 = s.time1 := rfl
@[simp] theorem State.setQp_ages (n : Nat) (x : QpSt) : (s.setQp n x).ages = s.ages := rfl
@[simp] theorem State.setQp_ids (n : Nat) (x : QpSt) : (s.setQp n x).ids = s.ids := rfl
@[simp] theorem State.setQp_draws (n : Nat) (x : QpSt) : (s.setQp n x).draws = s.draws := rfl
@[simp] theorem State.setQp_tx (n : Nat) (x : QpSt) : (s.setQp n x).tx = s.tx := rfl
@[simp] theorem State.setQp_acc_reg (n : Nat) (x : QpSt) (j : Nat) : (s.setQp n x).reg j = s.reg j := rfl
@[simp] theorem State.setQp_acc_queue (n : Nat) (x : QpSt) (c' : Nat) (q' : Queue) : (s.setQp n x).queue c' q' = s.queue c' q' := rfl
@[simp] theorem State.setQp_acc_die (n : Nat) (x : QpSt) (d' : Nat) : (s.setQp n x).die d' = s.die d' := rfl
@[simp] theorem State.setQp_acc_stack (n : Nat) (x : QpSt) (d' : Nat) : (s.setQp n x).stack d' = s.stack d' := rfl
@[simp] theorem State.setQp_acc_buf (n : Nat) (x : QpSt) (c' i' : Nat) : (s.setQp n x).buf c' i' = s.buf c' i' := rfl
@[simp] theorem State.setQp_acc_kerbOf (n : Nat) (x : QpSt) (n' : Nat) : (s.setQp n x).kerbOf n' = s.kerbOf n' := rfl
@[simp] theorem State.setQp_acc_rxOf (n : Nat) (x : QpSt) (qy' cls' : Nat) : (s.setQp n x).rxOf qy' cls' = s.rxOf qy' cls' := rfl

@[simp] theorem State.setRx_pending (qy cls : Nat) (x : RxClass) : (s.setRx qy cls x).pending = s.pending := rfl
@[simp] theorem State.setRx_mem (qy cls : Nat) (x : RxClass) : (s.setRx qy cls x).mem = s.mem := rfl
@[simp] theorem State.setRx_tags (qy cls : Nat) (x : RxClass) : (s.setRx qy cls x).tags = s.tags := rfl
@[simp] theorem State.setRx_regs (qy cls : Nat) (x : RxClass) : (s.setRx qy cls x).regs = s.regs := rfl
@[simp] theorem State.setRx_queues (qy cls : Nat) (x : RxClass) : (s.setRx qy cls x).queues = s.queues := rfl
@[simp] theorem State.setRx_bufs (qy cls : Nat) (x : RxClass) : (s.setRx qy cls x).bufs = s.bufs := rfl
@[simp] theorem State.setRx_lastLoser (qy cls : Nat) (x : RxClass) : (s.setRx qy cls x).lastLoser = s.lastLoser := rfl
@[simp] theorem State.setRx_sigs (qy cls : Nat) (x : RxClass) : (s.setRx qy cls x).sigs = s.sigs := rfl
@[simp] theorem State.setRx_msgs (qy cls : Nat) (x : RxClass) : (s.setRx qy cls x).msgs = s.msgs := rfl
@[simp] theorem State.setRx_kerb (qy cls : Nat) (x : RxClass) : (s.setRx qy cls x).kerb = s.kerb := rfl
@[simp] theorem State.setRx_loads (qy cls : Nat) (x : RxClass) : (s.setRx qy cls x).loads = s.loads := rfl
@[simp] theorem State.setRx_rebind (qy cls : Nat) (x : RxClass) : (s.setRx qy cls x).rebind = s.rebind := rfl
@[simp] theorem State.setRx_compute (qy cls : Nat) (x : RxClass) : (s.setRx qy cls x).compute = s.compute := rfl
@[simp] theorem State.setRx_formed (qy cls : Nat) (x : RxClass) : (s.setRx qy cls x).formed = s.formed := rfl
@[simp] theorem State.setRx_computeWait (qy cls : Nat) (x : RxClass) : (s.setRx qy cls x).computeWait = s.computeWait := rfl
@[simp] theorem State.setRx_advanceWait (qy cls : Nat) (x : RxClass) : (s.setRx qy cls x).advanceWait = s.advanceWait := rfl
@[simp] theorem State.setRx_qps (qy cls : Nat) (x : RxClass) : (s.setRx qy cls x).qps = s.qps := rfl
@[simp] theorem State.setRx_paused (qy cls : Nat) (x : RxClass) : (s.setRx qy cls x).paused = s.paused := rfl
@[simp] theorem State.setRx_turns (qy cls : Nat) (x : RxClass) : (s.setRx qy cls x).turns = s.turns := rfl
@[simp] theorem State.setRx_ring (qy cls : Nat) (x : RxClass) : (s.setRx qy cls x).ring = s.ring := rfl
@[simp] theorem State.setRx_unsent (qy cls : Nat) (x : RxClass) : (s.setRx qy cls x).unsent = s.unsent := rfl
@[simp] theorem State.setRx_lostSince (qy cls : Nat) (x : RxClass) : (s.setRx qy cls x).lostSince = s.lostSince := rfl
@[simp] theorem State.setRx_violations (qy cls : Nat) (x : RxClass) : (s.setRx qy cls x).violations = s.violations := rfl
@[simp] theorem State.setRx_faults (qy cls : Nat) (x : RxClass) : (s.setRx qy cls x).faults = s.faults := rfl
@[simp] theorem State.setRx_flashFailed (qy cls : Nat) (x : RxClass) : (s.setRx qy cls x).flashFailed = s.flashFailed := rfl
@[simp] theorem State.setRx_enables (qy cls : Nat) (x : RxClass) : (s.setRx qy cls x).enables = s.enables := rfl
@[simp] theorem State.setRx_disabling (qy cls : Nat) (x : RxClass) : (s.setRx qy cls x).disabling = s.disabling := rfl
@[simp] theorem State.setRx_disabled (qy cls : Nat) (x : RxClass) : (s.setRx qy cls x).disabled = s.disabled := rfl
@[simp] theorem State.setRx_dies (qy cls : Nat) (x : RxClass) : (s.setRx qy cls x).dies = s.dies := rfl
@[simp] theorem State.setRx_bases (qy cls : Nat) (x : RxClass) : (s.setRx qy cls x).bases = s.bases := rfl
@[simp] theorem State.setRx_waking (qy cls : Nat) (x : RxClass) : (s.setRx qy cls x).waking = s.waking := rfl
@[simp] theorem State.setRx_boot (qy cls : Nat) (x : RxClass) : (s.setRx qy cls x).boot = s.boot := rfl
@[simp] theorem State.setRx_released (qy cls : Nat) (x : RxClass) : (s.setRx qy cls x).released = s.released := rfl
@[simp] theorem State.setRx_refStarted (qy cls : Nat) (x : RxClass) : (s.setRx qy cls x).refStarted = s.refStarted := rfl
@[simp] theorem State.setRx_rstLast (qy cls : Nat) (x : RxClass) : (s.setRx qy cls x).rstLast = s.rstLast := rfl
@[simp] theorem State.setRx_rstSeen (qy cls : Nat) (x : RxClass) : (s.setRx qy cls x).rstSeen = s.rstSeen := rfl
@[simp] theorem State.setRx_throtN (qy cls : Nat) (x : RxClass) : (s.setRx qy cls x).throtN = s.throtN := rfl
@[simp] theorem State.setRx_cycle (qy cls : Nat) (x : RxClass) : (s.setRx qy cls x).cycle = s.cycle := rfl
@[simp] theorem State.setRx_thermtrip (qy cls : Nat) (x : RxClass) : (s.setRx qy cls x).thermtrip = s.thermtrip := rfl
@[simp] theorem State.setRx_mgmt (qy cls : Nat) (x : RxClass) : (s.setRx qy cls x).mgmt = s.mgmt := rfl
@[simp] theorem State.setRx_fuses (qy cls : Nat) (x : RxClass) : (s.setRx qy cls x).fuses = s.fuses := rfl
@[simp] theorem State.setRx_time (qy cls : Nat) (x : RxClass) : (s.setRx qy cls x).time = s.time := rfl
@[simp] theorem State.setRx_time1 (qy cls : Nat) (x : RxClass) : (s.setRx qy cls x).time1 = s.time1 := rfl
@[simp] theorem State.setRx_ages (qy cls : Nat) (x : RxClass) : (s.setRx qy cls x).ages = s.ages := rfl
@[simp] theorem State.setRx_ids (qy cls : Nat) (x : RxClass) : (s.setRx qy cls x).ids = s.ids := rfl
@[simp] theorem State.setRx_draws (qy cls : Nat) (x : RxClass) : (s.setRx qy cls x).draws = s.draws := rfl
@[simp] theorem State.setRx_tx (qy cls : Nat) (x : RxClass) : (s.setRx qy cls x).tx = s.tx := rfl
@[simp] theorem State.setRx_acc_reg (qy cls : Nat) (x : RxClass) (j : Nat) : (s.setRx qy cls x).reg j = s.reg j := rfl
@[simp] theorem State.setRx_acc_queue (qy cls : Nat) (x : RxClass) (c' : Nat) (q' : Queue) : (s.setRx qy cls x).queue c' q' = s.queue c' q' := rfl
@[simp] theorem State.setRx_acc_die (qy cls : Nat) (x : RxClass) (d' : Nat) : (s.setRx qy cls x).die d' = s.die d' := rfl
@[simp] theorem State.setRx_acc_stack (qy cls : Nat) (x : RxClass) (d' : Nat) : (s.setRx qy cls x).stack d' = s.stack d' := rfl
@[simp] theorem State.setRx_acc_buf (qy cls : Nat) (x : RxClass) (c' i' : Nat) : (s.setRx qy cls x).buf c' i' = s.buf c' i' := rfl
@[simp] theorem State.setRx_acc_kerbOf (qy cls : Nat) (x : RxClass) (n' : Nat) : (s.setRx qy cls x).kerbOf n' = s.kerbOf n' := rfl
@[simp] theorem State.setRx_acc_qp (qy cls : Nat) (x : RxClass) (n' : Nat) : (s.setRx qy cls x).qp n' = s.qp n' := rfl

@[simp] theorem State.send_pending (x : Tx) : (s.send x).pending = s.pending := rfl
@[simp] theorem State.send_mem (x : Tx) : (s.send x).mem = s.mem := rfl
@[simp] theorem State.send_tags (x : Tx) : (s.send x).tags = s.tags := rfl
@[simp] theorem State.send_regs (x : Tx) : (s.send x).regs = s.regs := rfl
@[simp] theorem State.send_queues (x : Tx) : (s.send x).queues = s.queues := rfl
@[simp] theorem State.send_bufs (x : Tx) : (s.send x).bufs = s.bufs := rfl
@[simp] theorem State.send_lastLoser (x : Tx) : (s.send x).lastLoser = s.lastLoser := rfl
@[simp] theorem State.send_sigs (x : Tx) : (s.send x).sigs = s.sigs := rfl
@[simp] theorem State.send_msgs (x : Tx) : (s.send x).msgs = s.msgs := rfl
@[simp] theorem State.send_kerb (x : Tx) : (s.send x).kerb = s.kerb := rfl
@[simp] theorem State.send_loads (x : Tx) : (s.send x).loads = s.loads := rfl
@[simp] theorem State.send_rebind (x : Tx) : (s.send x).rebind = s.rebind := rfl
@[simp] theorem State.send_compute (x : Tx) : (s.send x).compute = s.compute := rfl
@[simp] theorem State.send_formed (x : Tx) : (s.send x).formed = s.formed := rfl
@[simp] theorem State.send_computeWait (x : Tx) : (s.send x).computeWait = s.computeWait := rfl
@[simp] theorem State.send_advanceWait (x : Tx) : (s.send x).advanceWait = s.advanceWait := rfl
@[simp] theorem State.send_qps (x : Tx) : (s.send x).qps = s.qps := rfl
@[simp] theorem State.send_paused (x : Tx) : (s.send x).paused = s.paused := rfl
@[simp] theorem State.send_rx (x : Tx) : (s.send x).rx = s.rx := rfl
@[simp] theorem State.send_turns (x : Tx) : (s.send x).turns = s.turns := rfl
@[simp] theorem State.send_ring (x : Tx) : (s.send x).ring = s.ring := rfl
@[simp] theorem State.send_unsent (x : Tx) : (s.send x).unsent = s.unsent := rfl
@[simp] theorem State.send_lostSince (x : Tx) : (s.send x).lostSince = s.lostSince := rfl
@[simp] theorem State.send_violations (x : Tx) : (s.send x).violations = s.violations := rfl
@[simp] theorem State.send_faults (x : Tx) : (s.send x).faults = s.faults := rfl
@[simp] theorem State.send_flashFailed (x : Tx) : (s.send x).flashFailed = s.flashFailed := rfl
@[simp] theorem State.send_enables (x : Tx) : (s.send x).enables = s.enables := rfl
@[simp] theorem State.send_disabling (x : Tx) : (s.send x).disabling = s.disabling := rfl
@[simp] theorem State.send_disabled (x : Tx) : (s.send x).disabled = s.disabled := rfl
@[simp] theorem State.send_dies (x : Tx) : (s.send x).dies = s.dies := rfl
@[simp] theorem State.send_bases (x : Tx) : (s.send x).bases = s.bases := rfl
@[simp] theorem State.send_waking (x : Tx) : (s.send x).waking = s.waking := rfl
@[simp] theorem State.send_boot (x : Tx) : (s.send x).boot = s.boot := rfl
@[simp] theorem State.send_released (x : Tx) : (s.send x).released = s.released := rfl
@[simp] theorem State.send_refStarted (x : Tx) : (s.send x).refStarted = s.refStarted := rfl
@[simp] theorem State.send_rstLast (x : Tx) : (s.send x).rstLast = s.rstLast := rfl
@[simp] theorem State.send_rstSeen (x : Tx) : (s.send x).rstSeen = s.rstSeen := rfl
@[simp] theorem State.send_throtN (x : Tx) : (s.send x).throtN = s.throtN := rfl
@[simp] theorem State.send_cycle (x : Tx) : (s.send x).cycle = s.cycle := rfl
@[simp] theorem State.send_thermtrip (x : Tx) : (s.send x).thermtrip = s.thermtrip := rfl
@[simp] theorem State.send_mgmt (x : Tx) : (s.send x).mgmt = s.mgmt := rfl
@[simp] theorem State.send_fuses (x : Tx) : (s.send x).fuses = s.fuses := rfl
@[simp] theorem State.send_time (x : Tx) : (s.send x).time = s.time := rfl
@[simp] theorem State.send_time1 (x : Tx) : (s.send x).time1 = s.time1 := rfl
@[simp] theorem State.send_ages (x : Tx) : (s.send x).ages = s.ages := rfl
@[simp] theorem State.send_ids (x : Tx) : (s.send x).ids = s.ids := rfl
@[simp] theorem State.send_draws (x : Tx) : (s.send x).draws = s.draws := rfl
@[simp] theorem State.send_acc_reg (x : Tx) (j : Nat) : (s.send x).reg j = s.reg j := rfl
@[simp] theorem State.send_acc_queue (x : Tx) (c' : Nat) (q' : Queue) : (s.send x).queue c' q' = s.queue c' q' := rfl
@[simp] theorem State.send_acc_die (x : Tx) (d' : Nat) : (s.send x).die d' = s.die d' := rfl
@[simp] theorem State.send_acc_stack (x : Tx) (d' : Nat) : (s.send x).stack d' = s.stack d' := rfl
@[simp] theorem State.send_acc_buf (x : Tx) (c' i' : Nat) : (s.send x).buf c' i' = s.buf c' i' := rfl
@[simp] theorem State.send_acc_kerbOf (x : Tx) (n' : Nat) : (s.send x).kerbOf n' = s.kerbOf n' := rfl
@[simp] theorem State.send_acc_qp (x : Tx) (n' : Nat) : (s.send x).qp n' = s.qp n' := rfl
@[simp] theorem State.send_acc_rxOf (x : Tx) (qy' cls' : Nat) : (s.send x).rxOf qy' cls' = s.rxOf qy' cls' := rfl

@[simp] theorem State.draw_pending  : s.draw.pending = s.pending := rfl
@[simp] theorem State.draw_mem  : s.draw.mem = s.mem := rfl
@[simp] theorem State.draw_tags  : s.draw.tags = s.tags := rfl
@[simp] theorem State.draw_regs  : s.draw.regs = s.regs := rfl
@[simp] theorem State.draw_queues  : s.draw.queues = s.queues := rfl
@[simp] theorem State.draw_bufs  : s.draw.bufs = s.bufs := rfl
@[simp] theorem State.draw_lastLoser  : s.draw.lastLoser = s.lastLoser := rfl
@[simp] theorem State.draw_sigs  : s.draw.sigs = s.sigs := rfl
@[simp] theorem State.draw_msgs  : s.draw.msgs = s.msgs := rfl
@[simp] theorem State.draw_kerb  : s.draw.kerb = s.kerb := rfl
@[simp] theorem State.draw_loads  : s.draw.loads = s.loads := rfl
@[simp] theorem State.draw_rebind  : s.draw.rebind = s.rebind := rfl
@[simp] theorem State.draw_compute  : s.draw.compute = s.compute := rfl
@[simp] theorem State.draw_formed  : s.draw.formed = s.formed := rfl
@[simp] theorem State.draw_computeWait  : s.draw.computeWait = s.computeWait := rfl
@[simp] theorem State.draw_advanceWait  : s.draw.advanceWait = s.advanceWait := rfl
@[simp] theorem State.draw_qps  : s.draw.qps = s.qps := rfl
@[simp] theorem State.draw_paused  : s.draw.paused = s.paused := rfl
@[simp] theorem State.draw_rx  : s.draw.rx = s.rx := rfl
@[simp] theorem State.draw_turns  : s.draw.turns = s.turns := rfl
@[simp] theorem State.draw_ring  : s.draw.ring = s.ring := rfl
@[simp] theorem State.draw_unsent  : s.draw.unsent = s.unsent := rfl
@[simp] theorem State.draw_lostSince  : s.draw.lostSince = s.lostSince := rfl
@[simp] theorem State.draw_violations  : s.draw.violations = s.violations := rfl
@[simp] theorem State.draw_faults  : s.draw.faults = s.faults := rfl
@[simp] theorem State.draw_flashFailed  : s.draw.flashFailed = s.flashFailed := rfl
@[simp] theorem State.draw_enables  : s.draw.enables = s.enables := rfl
@[simp] theorem State.draw_disabling  : s.draw.disabling = s.disabling := rfl
@[simp] theorem State.draw_disabled  : s.draw.disabled = s.disabled := rfl
@[simp] theorem State.draw_dies  : s.draw.dies = s.dies := rfl
@[simp] theorem State.draw_bases  : s.draw.bases = s.bases := rfl
@[simp] theorem State.draw_waking  : s.draw.waking = s.waking := rfl
@[simp] theorem State.draw_boot  : s.draw.boot = s.boot := rfl
@[simp] theorem State.draw_released  : s.draw.released = s.released := rfl
@[simp] theorem State.draw_refStarted  : s.draw.refStarted = s.refStarted := rfl
@[simp] theorem State.draw_rstLast  : s.draw.rstLast = s.rstLast := rfl
@[simp] theorem State.draw_rstSeen  : s.draw.rstSeen = s.rstSeen := rfl
@[simp] theorem State.draw_throtN  : s.draw.throtN = s.throtN := rfl
@[simp] theorem State.draw_cycle  : s.draw.cycle = s.cycle := rfl
@[simp] theorem State.draw_thermtrip  : s.draw.thermtrip = s.thermtrip := rfl
@[simp] theorem State.draw_mgmt  : s.draw.mgmt = s.mgmt := rfl
@[simp] theorem State.draw_fuses  : s.draw.fuses = s.fuses := rfl
@[simp] theorem State.draw_time  : s.draw.time = s.time := rfl
@[simp] theorem State.draw_time1  : s.draw.time1 = s.time1 := rfl
@[simp] theorem State.draw_ages  : s.draw.ages = s.ages := rfl
@[simp] theorem State.draw_ids  : s.draw.ids = s.ids := rfl
@[simp] theorem State.draw_tx  : s.draw.tx = s.tx := rfl
@[simp] theorem State.draw_acc_reg (j : Nat) : s.draw.reg j = s.reg j := rfl
@[simp] theorem State.draw_acc_queue (c' : Nat) (q' : Queue) : s.draw.queue c' q' = s.queue c' q' := rfl
@[simp] theorem State.draw_acc_die (d' : Nat) : s.draw.die d' = s.die d' := rfl
@[simp] theorem State.draw_acc_stack (d' : Nat) : s.draw.stack d' = s.stack d' := rfl
@[simp] theorem State.draw_acc_buf (c' i' : Nat) : s.draw.buf c' i' = s.buf c' i' := rfl
@[simp] theorem State.draw_acc_kerbOf (n' : Nat) : s.draw.kerbOf n' = s.kerbOf n' := rfl
@[simp] theorem State.draw_acc_qp (n' : Nat) : s.draw.qp n' = s.qp n' := rfl
@[simp] theorem State.draw_acc_rxOf (qy' cls' : Nat) : s.draw.rxOf qy' cls' = s.rxOf qy' cls' := rfl

theorem State.reg_setReg (k : Nat) (v : W64) (j : Nat) : (s.setReg k v).reg j = if j = k then v else s.reg j := by
  unfold State.reg State.setReg
  split
  · next h => subst h; simp [tget_tset_self]
  · next h => simp [tget_tset_ne _ _ h]

@[simp] theorem State.reg_setReg_self (k : Nat) (v : W64) : (s.setReg k v).reg k = v := by simp [State.reg_setReg]

@[simp] theorem State.reg_setReg_ne (k : Nat) (v : W64) {j : Nat} (h : j ≠ k) : (s.setReg k v).reg j = s.reg j := by
  simp [State.reg_setReg, h]

theorem State.reg_clearReg (k j : Nat) : (s.clearReg k).reg j = if j = k then regReset k else s.reg j := by
  unfold State.reg State.clearReg
  split
  · next h => subst h; simp [tget_tdel_self]
  · next h => simp [tget_tdel_ne _ h]

/-- The key of a queue names its core and its queue. -/
theorem queueKey_inj {c c' : Nat} {q q' : Queue} : 6 * c + qnum q = 6 * c' + qnum q' ↔ c = c' ∧ q = q' := by
  cases q <;> cases q' <;> simp [qnum] <;> omega

theorem State.queue_setQueue (c : Nat) (q : Queue) (x : QState) (c' : Nat) (q' : Queue) :
    (s.setQueue c q x).queue c' q' = if c' = c ∧ q' = q then x else s.queue c' q' := by
  unfold State.queue State.setQueue
  split
  · next h => obtain ⟨rfl, rfl⟩ := h; simp [tgetD_tset_self]
  · next h => exact tgetD_tset_ne _ _ _ (fun e => h (queueKey_inj.mp e))

@[simp] theorem State.queue_setQueue_self (c : Nat) (q : Queue) (x : QState) : (s.setQueue c q x).queue c q = x := by
  simp [State.queue_setQueue]

theorem State.die_setDie (d : Nat) (x : DieSt) (d' : Nat) : (s.setDie d x).die d' = if d' = d then x else s.die d' := by
  unfold State.die State.setDie
  split
  · next h => subst h; simp [tgetD_tset_self]
  · next h => exact tgetD_tset_ne _ _ _ h

theorem State.stack_setStack (n : Nat) (x : StackSt) (m : Nat) :
    (s.setStack n x).stack m = if m = n then x else s.stack m := by
  unfold State.stack State.setStack
  split
  · next h => subst h; simp [tgetD_tset_self]
  · next h => exact tgetD_tset_ne _ _ _ h

theorem State.kerbOf_setKerb (n : Nat) (x : KerbSt) (m : Nat) : (s.setKerb n x).kerbOf m = if m = n then x else s.kerbOf m := by
  unfold State.kerbOf State.setKerb
  split
  · next h => subst h; simp [tgetD_tset_self]
  · next h => exact tgetD_tset_ne _ _ _ h

theorem State.qp_setQp (n : Nat) (x : QpSt) (m : Nat) : (s.setQp n x).qp m = if m = n then x else s.qp m := by
  unfold State.qp State.setQp
  split
  · next h => subst h; simp [tgetD_tset_self]
  · next h => exact tgetD_tset_ne _ _ _ h

theorem State.buf_setBuf (c i : Nat) (b : MxBuf) (c' i' : Nat) :
    (s.setBuf c i b).buf c' i' = if 4 * c' + i' = 4 * c + i then b else s.buf c' i' := by
  unfold State.buf State.setBuf
  split
  · next h => rw [h, tgetD_tset_self]
  · next h => exact tgetD_tset_ne _ _ _ h

theorem State.rxOf_setRx (qy cls : Nat) (x : RxClass) (qy' cls' : Nat) :
    (s.setRx qy cls x).rxOf qy' cls' = if 4 * qy' + cls' = 4 * qy + cls then x else s.rxOf qy' cls' := by
  unfold State.rxOf State.setRx
  split
  · next h => rw [h, tgetD_tset_self]
  · next h => exact tgetD_tset_ne _ _ _ h

end Sys2Proof.Machine
end

