-- ==== Sys2Proof/Laws/Regs.lean ====
section
/-! SUPPORT. The register operations change registers only, and only the ones they name; what they leave in fields and bits. -/

namespace Sys2Proof.Machine

variable (s : State)

theorem State.OnlyRegs.refl (ks : List Nat) : s.OnlyRegs s ks := ⟨rfl, fun _ _ => rfl⟩

theorem State.OnlyRegs.mono {s t : State} {ks js : List Nat} (h : s.OnlyRegs t ks) (hs : ∀ k ∈ ks, k ∈ js) : s.OnlyRegs t js :=
  ⟨h.1, fun k hk => h.2 k fun h' => hk (hs k h')⟩

theorem State.OnlyRegs.trans {s t u : State} {ks js : List Nat} (h : s.OnlyRegs t ks) (h' : t.OnlyRegs u js) :
    s.OnlyRegs u (ks ++ js) := by
  refine ⟨?_, fun k hk => ?_⟩
  · have h1 := h.1
    have h2 := h'.1
    rw [h1] at h2
    exact h2
  · simp only [List.mem_append, not_or] at hk
    exact (h'.2 k hk.2).trans (h.2 k hk.1)

theorem State.setReg_only (k : Nat) (v : W64) : s.OnlyRegs (s.setReg k v) [k] :=
  ⟨rfl, fun j hj => by simp at hj; simp [hj]⟩

theorem State.clearReg_only (k : Nat) : s.OnlyRegs (s.clearReg k) [k] :=
  ⟨rfl, fun j hj => by simp at hj; simp [State.reg_clearReg, hj]⟩

theorem State.setFld_only (k lo len x : Nat) : s.OnlyRegs (s.setFld k lo len x) [k] := s.setReg_only k _

theorem State.setBit_only (k n : Nat) (b : Bool) : s.OnlyRegs (s.setBit k n b) [k] := s.setReg_only k _

theorem State.count_only (k n : Nat) : s.OnlyRegs (s.count k n) [k] := by
  unfold State.count; split
  · exact .refl s _
  · exact s.setReg_only k _

theorem State.countSat_only (k lo len n : Nat) : s.OnlyRegs (s.countSat k lo len n) [k] := s.setFld_only k lo len _

theorem State.first_only (k : Nat) (v : W64) : s.OnlyRegs (s.first k v) [k] := by
  unfold State.first; split
  · exact .refl s _
  · exact s.setReg_only k _

theorem State.reg_setFld (k lo len x j : Nat) :
    (s.setFld k lo len x).reg j = if j = k then putFld (s.reg k) lo len x else s.reg j := s.reg_setReg k _ j

theorem State.reg_setBit (k n : Nat) (b : Bool) (j : Nat) :
    (s.setBit k n b).reg j = if j = k then putBit (s.reg k) n b else s.reg j := s.reg_setReg k _ j

theorem State.reg_count (k n j : Nat) :
    (s.count k n).reg j = if j = k then s.reg k + BitVec.ofNat 64 n else s.reg j := by
  unfold State.count
  split
  · next h => subst h; split
              · next h => subst h; simp
              · rfl
  · exact s.reg_setReg k _ j

theorem State.reg_countSat (k lo len n j : Nat) :
    (s.countSat k lo len n).reg j =
      if j = k then putFld (s.reg k) lo len (min (s.regFld k lo len + n) (2 ^ len - 1)) else s.reg j := s.reg_setFld k lo len _ j

theorem State.reg_first (k : Nat) (v : W64) (j : Nat) :
    (s.first k v).reg j = if j = k ∧ s.regBit k 63 = false then putBit v 63 true else s.reg j := by
  unfold State.first
  split
  · next h => simp [h]
  · next h => rw [State.reg_setReg]; simp at h; simp [h]

/-- A field just written reads as written; the others of its register, and every other register, as before. -/
theorem State.regFld_setFld_self (k lo len x : Nat) (h : lo + len ≤ 64) : (s.setFld k lo len x).regFld k lo len = x % 2 ^ len := by
  simp [State.regFld, State.reg_setFld, fld_putFld_self _ _ _ _ h]

theorem State.regFld_setFld_ne (k lo len x j lo' len' : Nat) (h : lo + len ≤ 64)
    (d : j ≠ k ∨ lo' + len' ≤ lo ∨ lo + len ≤ lo') : (s.setFld k lo len x).regFld j lo' len' = s.regFld j lo' len' := by
  unfold State.regFld
  rw [State.reg_setFld]
  split
  · next e => subst e; exact fld_putFld_ne _ _ _ _ _ _ h (by omega)
  · rfl

theorem State.regBit_setBit_self (k n : Nat) (b : Bool) (h : n < 64) : (s.setBit k n b).regBit k n = b := by
  simp [State.regBit, State.reg_setBit, bitAt_putBit_self _ _ _ h]

theorem State.regBit_setBit_ne (k n : Nat) (b : Bool) (j m : Nat) (h : n < 64) (d : j ≠ k ∨ m ≠ n) :
    (s.setBit k n b).regBit j m = s.regBit j m := by
  unfold State.regBit
  rw [State.reg_setBit]
  split
  · next e => subst e; exact bitAt_putBit_ne _ _ _ _ h (by omega)
  · rfl

theorem State.regFld_setBit_ne (k n : Nat) (b : Bool) (j lo len : Nat) (h : n < 64) (d : j ≠ k ∨ n < lo ∨ lo + len ≤ n) :
    (s.setBit k n b).regFld j lo len = s.regFld j lo len := by
  unfold State.regFld
  rw [State.reg_setBit]
  split
  · next e => subst e; exact fld_putBit_ne _ _ _ _ _ h (by omega)
  · rfl

theorem State.regBit_setFld_ne (k lo len x j m : Nat) (h : lo + len ≤ 64) (d : j ≠ k ∨ m < lo ∨ lo + len ≤ m) :
    (s.setFld k lo len x).regBit j m = s.regBit j m := by
  unfold State.regBit
  rw [State.reg_setFld]
  split
  · next e => subst e; exact bitAt_putFld_ne _ _ _ _ _ h (by omega)
  · rfl

/-- What changes registers only leaves every other field as it is. -/
theorem State.OnlyRegs.mem {s t : State} {ks : List Nat} (h : s.OnlyRegs t ks) : t.mem = s.mem := by rw [h.1]
theorem State.OnlyRegs.queues {s t : State} {ks : List Nat} (h : s.OnlyRegs t ks) : t.queues = s.queues := by rw [h.1]
theorem State.OnlyRegs.fuses {s t : State} {ks : List Nat} (h : s.OnlyRegs t ks) : t.fuses = s.fuses := by rw [h.1]
theorem State.OnlyRegs.pending {s t : State} {ks : List Nat} (h : s.OnlyRegs t ks) : t.pending = s.pending := by rw [h.1]

end Sys2Proof.Machine
end

