-- ==== Sys2Proof/Laws/Issue.lean ====
section
/-! SUPPORT. The head of a queue: what considering it, taking its wait and issuing it can do. -/

namespace Sys2Proof.Machine

variable (s : State)

/-- A head that is ready reaches its chapter, whose verdict settles it. -/
theorem State.runHead_ready {c : Nat} {q : Queue} {o : Op} {w : InstrWord} (body : State → Verdict) (h : s.ready c q o w) :
    s.runHead c q o w body = s.settle c q o w (body (s.takeWait c q w)) := by
  obtain ⟨h1, h2, h3, h4, h5⟩ := h
  simp [State.runHead, h1, h2, h3, h4, h5]

/-- A head that is ready and that the early checks of its chapter pass reaches its chapter. -/
theorem State.runHead_ready_early {c : Nat} {q : Queue} {o : Op} {w : InstrWord} (body : State → Verdict)
    (f : State → Option Ref) (h : s.ready c q o w) (hf : f s = none) :
    s.runHead c q o w body (some f) = s.settle c q o w (body (s.takeWait c q w)) := by
  obtain ⟨h1, h2, h3, h4, h5⟩ := h
  cases hi : (s.queue c q).interlocked <;> simp [State.runHead, h1, h2, h3, h4, h5, hf, hi, Option.filter]

/-- A queue whose head is another instruction, or that considers none, is left as it is. -/
theorem State.runHead_other {c : Nat} {q : Queue} {o : Op} {w : InstrWord} (body : State → Verdict)
    (early : Option (State → Option Ref)) (h : (s.queue c q).headIs o w = false) : s.runHead c q o w body early = s := by
  simp [State.runHead, h]

/-- Taking a wait changes the semaphore waited on only. -/
theorem State.takeWait_only (c : Nat) (q : Queue) (w : InstrWord) : s.OnlyRegs (s.takeWait c q w) (s.waitKeys c w) := by
  unfold State.takeWait State.waitKeys
  split
  · exact .refl s _
  · next k h =>
    simp only [h, Option.toList]
    split
    · exact .refl s _
    · exact s.setFld_only k _ _ _

@[simp] theorem State.takeWait_queue (c : Nat) (q : Queue) (w : InstrWord) (c' : Nat) (q' : Queue) :
    (s.takeWait c q w).queue c' q' = s.queue c' q' := by
  rw [(s.takeWait_only c q w).1]; rfl

@[simp] theorem State.takeWait_mem (c : Nat) (q : Queue) (w : InstrWord) : (s.takeWait c q w).mem = s.mem :=
  (s.takeWait_only c q w).mem

end Sys2Proof.Machine
end

