-- ==== Sys2Proof/Laws/Memory.lean ====
section
/-! SUPPORT. The memories as byte lists: every write keeps the canonical form, a written byte reads back, every other byte reads as
before. -/

namespace Sys2Proof.Machine

theorem Memory.wfFrom_mono {lo lo' : Nat} {m : List Host.Cell} (h : Memory.wfFrom lo m = true) (hl : lo' ≤ lo) :
    Memory.wfFrom lo' m = true := by
  cases m with
  | nil => rfl
  | cons p r => obtain ⟨a, b⟩ := p; simp [Memory.wfFrom] at h ⊢; exact ⟨⟨by omega, h.1.2⟩, h.2⟩

theorem Memory.wfFrom_filter {lo : Nat} {m : List Host.Cell} (f : Host.Cell → Bool) (h : Memory.wfFrom lo m = true) :
    Memory.wfFrom lo (m.filter f) = true := by
  induction m generalizing lo with
  | nil => rfl
  | cons p r ih =>
    obtain ⟨a, b⟩ := p
    simp only [Memory.wfFrom, Bool.and_eq_true, decide_eq_true_eq] at h
    rw [List.filter_cons]
    split
    · simp only [Memory.wfFrom, Bool.and_eq_true, decide_eq_true_eq]; exact ⟨h.1, ih h.2⟩
    · exact Memory.wfFrom_mono (ih h.2) (by omega)

/-- Every key of a memory in canonical form lies at or above its bound. -/
theorem Memory.wfFrom_ge {lo : Nat} {m : List Host.Cell} (h : Memory.wfFrom lo m = true) : ∀ p ∈ m, lo ≤ p.1 := by
  induction m generalizing lo with
  | nil => simp
  | cons p r ih =>
    obtain ⟨a, b⟩ := p
    simp only [Memory.wfFrom, Bool.and_eq_true, decide_eq_true_eq] at h
    intro x hx
    rcases List.mem_cons.mp hx with rfl | hx
    · exact h.1.1
    · have := ih h.2 x hx; omega

theorem Memory.wfFrom_append {lo mid : Nat} {m n : List Host.Cell} (hm : Memory.wfFrom lo m = true) (hb : ∀ p ∈ m, p.1 < mid)
    (hn : Memory.wfFrom mid n = true) (hl : lo ≤ mid) : Memory.wfFrom lo (m ++ n) = true := by
  induction m generalizing lo with
  | nil => exact Memory.wfFrom_mono hn hl
  | cons p r ih =>
    obtain ⟨a, b⟩ := p
    simp only [Memory.wfFrom, Bool.and_eq_true, decide_eq_true_eq, List.cons_append] at hm ⊢
    have ha : a < mid := hb (a, b) (by simp)
    exact ⟨hm.1, ih hm.2 (fun p hp => hb p (by simp [hp])) (by omega)⟩

theorem cellsOf_wf (a : Nat) (bs : List Byte) : Memory.wfFrom a (cellsOf a bs) = true := by
  induction bs generalizing a with
  | nil => rfl
  | cons b r ih =>
    simp only [cellsOf]
    split
    · exact Memory.wfFrom_mono (ih (a + 1)) (by omega)
    · next h => simpa [Memory.wfFrom, ih] using h

theorem cellsOf_bound (a : Nat) (bs : List Byte) : ∀ p ∈ cellsOf a bs, p.1 < a + bs.length := by
  induction bs generalizing a with
  | nil => simp [cellsOf]
  | cons b r ih =>
    intro p hp
    simp only [cellsOf] at hp
    have hr : p ∈ cellsOf (a + 1) r → p.1 < a + (b :: r).length := by
      intro h; have := ih (a + 1) p h; simp; omega
    split at hp
    · exact hr hp
    · rcases List.mem_cons.mp hp with rfl | hp
      · simp
      · exact hr hp

/-- A write keeps the canonical form. -/
theorem memWrite_wf {m : List Host.Cell} (a : Nat) (bs : List Byte) (h : Memory.wf m = true) : Memory.wf (memWrite m a bs) = true := by
  unfold Memory.wf memWrite at *
  refine Memory.wfFrom_append (mid := a) (Memory.wfFrom_filter _ h) (fun p hp => ?_) ?_ (Nat.zero_le _)
  · simpa using (List.mem_filter.mp hp).2
  · refine Memory.wfFrom_append (mid := a + bs.length) (cellsOf_wf a bs) (cellsOf_bound a bs) ?_ (Nat.le_add_right _ _)
    have : ∀ {lo hi : Nat} {l : List Host.Cell}, Memory.wfFrom lo l = true →
        Memory.wfFrom hi (l.filter fun p => hi ≤ p.1) = true := by
      intro lo hi l
      induction l generalizing lo with
      | nil => intro _; rfl
      | cons p r ih =>
        obtain ⟨x, b⟩ := p
        intro hl
        simp only [Memory.wfFrom, Bool.and_eq_true, decide_eq_true_eq] at hl
        rw [List.filter_cons]
        split
        · next hx => simp only [Memory.wfFrom, Bool.and_eq_true, decide_eq_true_eq] at hx ⊢; exact ⟨⟨hx, hl.1.2⟩, Memory.wfFrom_filter _ hl.2⟩
        · exact ih hl.2
    exact this h

theorem filter_wf {m : List Host.Cell} (f : Host.Cell → Bool) (h : Memory.wf m = true) : Memory.wf (m.filter f) = true :=
  Memory.wfFrom_filter f h

theorem tget_append {α : Type} (t u : Tbl α) (k : Nat) : tget (t ++ u) k = (tget t k).or (tget u k) := by
  induction t with
  | nil => simp [tget]
  | cons p r ih =>
    obtain ⟨j, v⟩ := p
    simp only [List.cons_append, tget]
    split <;> simp [ih]

theorem tget_cellsOf_out (a x : Nat) (bs : List Byte) (h : x < a) : tget (cellsOf a bs) x = none := by
  induction bs generalizing a with
  | nil => rfl
  | cons b r ih =>
    simp only [cellsOf]
    split
    · exact ih (a + 1) (by omega)
    · have : a ≠ x := by omega
      simp only [tget, this, if_false]
      exact ih (a + 1) (by omega)

theorem tget_cellsOf_over (a x : Nat) (bs : List Byte) (h : a + bs.length ≤ x) : tget (cellsOf a bs) x = none := by
  induction bs generalizing a with
  | nil => rfl
  | cons b r ih =>
    simp only [List.length_cons] at h
    simp only [cellsOf]
    split
    · exact ih (a + 1) (by omega)
    · have : a ≠ x := by omega
      simp only [tget, this, if_false]
      exact ih (a + 1) (by omega)

theorem tgetD_cellsOf (a i : Nat) (bs : List Byte) (h : i < bs.length) : (tget (cellsOf a bs) (a + i)).getD 0 = bs[i] := by
  induction bs generalizing a i with
  | nil => simp at h
  | cons b r ih =>
    cases i with
    | zero =>
      simp only [cellsOf]
      split
      · next hb => subst hb; simp [tget_cellsOf_out (a + 1) a r (by omega)]
      · simp [tget]
    | succ i =>
      have hi : i < r.length := by simpa using h
      have e : a + (i + 1) = (a + 1) + i := by omega
      simp only [cellsOf, e]
      split
      · simpa using ih (a + 1) i hi
      · have : a ≠ a + 1 + i := by omega
        simp only [tget, this, if_false]
        simpa using ih (a + 1) i hi

/-- A byte that a write does not cover reads as before. -/
theorem memByte_memWrite_out (m : List Host.Cell) (a x : Nat) (bs : List Byte) (h : x < a ∨ a + bs.length ≤ x) :
    memByte (memWrite m a bs) x = memByte m x := by
  have f1 := tget_filter (fun i => decide (i < a)) m x
  have f2 := tget_filter (fun i => decide (a + bs.length ≤ i)) m x
  unfold memByte tgetD memWrite
  rw [tget_append, tget_append, f1, f2]
  rcases h with h | h
  · have h2 : ¬ a + bs.length ≤ x := by omega
    simp [h, h2, tget_cellsOf_out a x bs h]
  · have h2 : ¬ x < a := by omega
    simp [h, h2, tget_cellsOf_over a x bs h]

/-- A byte that a write covers reads as written. -/
theorem memByte_memWrite_in (m : List Host.Cell) (a i : Nat) (bs : List Byte) (h : i < bs.length) :
    memByte (memWrite m a bs) (a + i) = bs[i] := by
  have f1 := tget_filter (fun i => decide (i < a)) m (a + i)
  have f2 := tget_filter (fun i => decide (a + bs.length ≤ i)) m (a + i)
  unfold memByte tgetD memWrite
  rw [tget_append, tget_append, f1, f2]
  have h1 : ¬ a + i < a := by omega
  have h2 : ¬ a + bs.length ≤ a + i := by omega
  simpa [h1, h2] using tgetD_cellsOf a i bs h

/-- A read of a range delivers the bytes of the range. -/
theorem memRead_eq (m : List Host.Cell) (a n : Nat) : memRead m a n = (List.range n).map fun i => memByte m (a + i) := by
  unfold memRead
  apply List.map_congr_left
  intro i hi
  have hi : i < n := List.mem_range.mp hi
  have f := tget_filter (fun k => decide (a ≤ k) && decide (k < a + n)) m (a + i)
  have h1 : a ≤ a + i := by omega
  have h2 : a + i < a + n := by omega
  simp only [memByte, tgetD]
  rw [f]
  simp [h1, h2]

end Sys2Proof.Machine
end

