-- ==== Sys2Proof/WellFormed.lean ====
section
/-! DEFINITION. Which commands can occur: the operands that the types of Instr do not already bound. -/

namespace Sys2Proof

/-- Rows and columns of a tile are below 256 (R122). -/
def ResidueFinding.wf (f : ResidueFinding) : Bool :=
  f.rows.all (· < 256) && f.cols.all (· < 256) && f.shadow.all fun p => p.1 < 256 && p.2 < 256

/-- Stages are numbered 0 to 7 and lanes 0 to 511 (R222, R223). -/
def ShadowDiff.wf (d : ShadowDiff) : Bool := d.stage < 8 && d.lane < 512

/-- An operation code as a command names it; a request may also carry a reserved code, which its target refuses (R354). -/
def opMayBe (op x : BitVec 8) : Bool :=
  x == op || (op.toNat < 0x40 && (x == 0 || (7 ≤ x.toNat && x.toNat ≤ 0x40)))

/-- A packet of a queue pair that a 24-bit QP number of this device can name, with the code of its command, and no more units than the
largest path MTU carries (R350, R354, R355). -/
def Packet.wf (p : Packet) (op : BitVec 8) : Bool := p.qp < 16384 && opMayBe op p.op && p.units.length ≤ 61

/-- The address of a unit of physical memory. -/
def unitPa (pa : Nat) : Bool := pa % 64 == 0 && pa < 0x30001800000

/-- Widths of accesses that the core units make (R35). -/
def accessWidth (n : Nat) : Bool := n == 1 || n == 2 || n == 4 || n == 8

/-- A command that can occur. -/
def Instr.wf : Instr → Bool
  | .nop _ _ _ => true
  | .end_ _ _ _ => true
  | .loop _ _ _ => true
  | .seed _ _ _ => true
  | .smov _ _ _ => true
  | .smovh _ _ _ => true
  | .sadd _ _ _ => true
  | .ssub _ _ _ => true
  | .smul _ _ _ => true
  | .sand _ _ _ => true
  | .sor _ _ _ => true
  | .sxor _ _ _ => true
  | .sshl _ _ _ => true
  | .sshr _ _ _ => true
  | .sld _ _ _ => true
  | .sst _ _ _ => true
  | .dadd _ _ _ => true
  | .semset _ _ _ => true
  | .xarr _ _ _ => true
  | .mbsend _ _ _ => true
  | .mbDelivery _ _ => true
  | .mbTimeout _ _ => true
  | .mbrecv _ _ _ => true
  | .mma _ _ _ => true
  | .mmaComplete _ _ => true
  | .mdrn _ _ _ f => f.wf
  | .mdrnComplete _ _ => true
  | .vop _ _ _ f => f.all ShadowDiff.wf
  | .vxadd _ _ _ => true
  | .ldq _ _ _ => true
  | .ldmCopy _ _ _ => true
  | .stmCopy _ _ _ => true
  | .stq _ _ _ => true
  | .atom _ _ _ => true
  | .upd _ _ _ => true
  | .updComplete _ n => n < 16
  | .commit _ _ _ => true
  | .commitFlip _ failAt => failAt.all fun g => g < 4096
  | .kstep _ _ _ => true
  | .snap _ _ _ => true
  | .instructionComplete _ _ => true
  | .instructionFetch _ _ _ => true
  | .signal _ => true
  | .kerbCloseMerge _ => true
  | .kerbRecordArrival _ _ => true
  | .kerbDecide _ => true
  | .kerbReduceTimeout _ => true
  | .queueStart _ _ _ => true
  | .wakeEnd _ => true
  | .queueStop _ _ _ => true
  | .clusterStart _ _ _ => true
  | .clusterStop _ _ _ => true
  | .imageLoad _ _ => true
  | .imageLoadEnd _ => true
  | .pcWrite _ _ _ _ => true
  | .scalarRegisterWrite _ _ _ _ _ => true
  | .coreSeedWrite _ _ _ _ => true
  | .dtbaseWrite _ _ _ => true
  | .pickWrite _ _ _ => true
  | .windowWrite _ _ bytes => !bytes.isEmpty
  | .kerbStatusStepWrite _ _ _ => true
  | .pipeSnapArm _ _ _ _ => true
  | .pipeSnapDone _ _ _ _ => true
  | .semValueWrite _ addr _ => addr.toNat % 8 == 0
  | .xrdMaskWrite _ _ _ _ => true
  | .xrdForce _ _ => true
  | .mbCfgWrite _ _ _ _ => true
  | .dbmaskWrite _ _ _ => true
  | .offlineWrite _ _ _ => true
  | .echoGo _ _ _ _ => true
  | .echoRunEnd _ _ _ => true
  | .quayModeWrite _ _ _ => true
  | .quayEnWrite _ _ _ => true
  | .quayLinkUp _ => true
  | .quayLinkDown _ => true
  | .qpReady _ _ => true
  | .qpReset _ _ => true
  | .qpError _ _ => true
  | .rebind _ _ => true
  | .rebindDrainTimeout => true
  | .rebindDrainEnd => true
  | .rebindScrubEnd failed => failed.all unitPa
  | .compute _ => true
  | .computeEnd => true
  | .advance _ => true
  | .computeThenAdvance _ => true
  | .epochWrite _ _ => true
  | .discardKstat _ _ => true
  | .kresend _ _ => true
  | .errDisableGo _ _ _ => true
  | .errDisableEnable _ _ _ => true
  | .unitDisableMark _ => true
  | .pkgRstWarm _ _ => true
  | .wdogKick _ _ => true
  | .wdogExpiry => true
  | .clockSwitch _ _ _ => true
  | .clockUngate _ => true
  | .gateRequest _ _ _ => true
  | .gateEnter _ => true
  | .svnRaise _ _ => true
  | .registerWrite _ _ width _ => accessWidth width
  | .regRead _ _ => true
  | .regWrite _ _ _ => true
  | .reset _ => true
  | .rptFetch _ _ _ => true
  | .rptAck _ _ => true
  | .stageChunk _ _ bytes => bytes.length ≤ 1016
  | .recovBoot _ => true
  | .flashCommit _ => true
  | .mgmtCmdReserved _ cmd payload => (cmd == 0 || (9 ≤ cmd.toNat && cmd.toNat < 0x80)) && payload.length ≤ 1024
  | .setMgmtKey _ _ => true
  | .getMeasurements _ => true
  | .pldmSensorRead _ => true
  | .signatureRequest _ => true
  | .journalEntryProgrammed => true
  | .bottomTreeBuilt => true
  | .flashWriteEnd _ => true
  | .resetRelease => true
  | .powerOnReset => true
  | .supplyReset => true
  | .pinReset => true
  | .referenceLost => true
  | .referenceStarted => true
  | .refcountRestart => true
  | .pllLock _ => true
  | .pllUnlock _ => true
  | .bootImageVerify => true
  | .firmwareInitEnd => true
  | .bootScrubEnd failed => failed.all unitPa
  | .droopWarning _ _ => true
  | .droopHoldExpiry _ _ => true
  | .droopPersistExpiry _ => true
  | .dipThrottleEnd _ => true
  | .thermalReading _ _ => true
  | .dramTempReading _ _ => true
  | .throtNAssert => true
  | .throtNRelease => true
  | .avsStep _ _ => true
  | .stackRead pa _ _ => unitPa pa && pa < 0xC000000000
  | .correctedWriteback pa => unitPa pa && pa < 0xC000000000
  | .maskedWrite pa _ _ _ => unitPa pa
  | .patrolScrub pa _ _ => unitPa pa && pa < 0xC000000000
  | .sramPatrol addr _ _ => unitPa addr && 0x10000000000 ≤ addr
  | .refresh _ => true
  | .flitReplay _ => true
  | .dieLinkRetrainEnd _ _ => true
  | .dramParityFail _ _ => true
  | .channelRetrainEnd _ _ _ => true
  | .selfTestStart _ => true
  | .selfTestEnd _ _ => true
  | .rowRepairEnd _ => true
  | .read _ p => p.wf 0x01
  | .write _ p => p.wf 0x02
  | .writeMasked _ p => p.wf 0x03
  | .fadd _ p => p.wf 0x04
  | .cas _ p => p.wf 0x05
  | .ctrlWrite _ p => p.wf 0x06
  | .readResp _ p => p.wf 0x41
  | .ack _ p => p.wf 0x42
  | .atomicResp _ p => p.wf 0x44
  | .rnr _ p => p.wf 0x4D
  | .rnrDelayExpiry _ => true
  | .nakSeq _ p => p.wf 0x4E
  | .refuse _ p => p.wf 0x4F
  | .epochRetry _ => true
  | .retransmitTimeout _ => true
  | .congestionNotification _ qp => qp < 16384
  | .ccTick _ => true
  | .pauseFrame _ _ _ => true
  | .pfcWatchdogExpiry _ _ => true
  | .pfcStormEnd _ _ => true
  | .managementFrame _ _ => true
  | .droppedFrame _ _ => true
  | .registerRead _ _ width => accessWidth width
  | .updStepCstepWrite _ _ _ => true
  | .vddCoreRecovery _ _ => true
  | .pldmSensorUpdate _ => true
  | .keyExchange => true

end Sys2Proof
end

