-- ==== Sys2Proof/Laws/PerInstr.lean ====
section
/-! SUPPORT. No family of statements is made per instruction: the commands have no encoding whose laws would be split by constructor. -/

namespace Sys2Proof.Laws
end Sys2Proof.Laws
end

