-- ==== Sys2Proof/Laws/Reset.lean ====
section
/-! SUPPORT. What a reset leaves, so that no proof unfolds it (R409, R430, R458). -/

namespace Sys2Proof.Machine

variable (s : State)

@[simp] theorem State.resetKind_queues (k : RstKind) : (s.resetKind k).queues = [] := rfl
@[simp] theorem State.resetKind_ring (k : RstKind) : (s.resetKind k).ring = [] := rfl
@[simp] theorem State.resetKind_fuses (k : RstKind) : (s.resetKind k).fuses = s.fuses := rfl
@[simp] theorem State.resetKind_pending (k : RstKind) : (s.resetKind k).pending = s.pending := rfl
@[simp] theorem State.resetKind_rstLast (k : RstKind) : (s.resetKind k).rstLast = k.code := rfl
@[simp] theorem State.resetKind_thermtrip (k : RstKind) : (s.resetKind k).thermtrip = s.thermtrip := rfl
@[simp] theorem State.resetFor_queues (c : RstCause) : (s.resetFor c).queues = [] := rfl
@[simp] theorem State.resetFor_ring (c : RstCause) : (s.resetFor c).ring = [] := rfl
@[simp] theorem State.resetFor_fuses (c : RstCause) : (s.resetFor c).fuses = s.fuses := rfl
@[simp] theorem State.resetFor_pending (c : RstCause) : (s.resetFor c).pending = s.pending := rfl
@[simp] theorem State.resetFor_thermtrip (c : RstCause) : (s.resetFor c).thermtrip = s.thermtrip := rfl

/-- The kind that a cause leaves in PKG_RSTCAUSE.LAST: the first of those that have met in its cycle (R458). -/
theorem State.resetFor_rstLast (c : RstCause) : (s.resetFor c).rstLast = (firstKind (c :: s.cycleNow.causes)).code := rfl

/-- With no other cause in its cycle, a cause records its own kind. -/
theorem State.resetFor_alone (c : RstCause) (h : s.cycle = none) : (s.resetFor c).rstLast = (kindOf c).code := by
  rw [State.resetFor_rstLast, State.cycleNow, h]
  cases c <;> rfl

/-- No cause of a reset is warm: the reference starts anew and the timestamp counters begin at 0 (R412, R430). -/
theorem firstKind_not_warm (cs : List RstCause) : (firstKind cs).isWarm = false := by
  unfold firstKind
  cases h : List.find? cs.contains [RstCause.powerOn, .supply, .reference, .thermal, .pin] with
  | none => rfl
  | some c => cases c <;> rfl

end Sys2Proof.Machine
end

