-- ==== Sys2Proof/Laws/Wake.lean ====
section
/-! SUPPORT. Accesses while no cluster is gated: they wake nothing, and a table that leads to memory everywhere is read without a trace. -/

namespace Sys2Proof.Machine

variable {s : State}

theorem State.Awake.all (h : s.Awake) : ((List.range 16).all fun g => s.gate g == 0) = true := by
  rw [List.all_eq_true]
  exact fun g hg => by simpa using h ⟨g, List.mem_range.mp hg⟩

/-- No access wakes a cluster when none is gated. -/
@[simp] theorem State.Awake.wakeAll (h : s.Awake) (ctx : Nat) (as : List Nat) : s.wakeAll ctx as = s := by
  rw [State.wakeAll, if_pos h.all]

/-- Accesses that wake nothing let what they lead to happen. -/
theorem State.Awake.unlessGated (h : s.Awake) (t : State) : s.unlessGated t = t := by
  have : s.woken t = [] := by
    rw [State.woken, List.filter_eq_nil_iff]
    intro g hg
    simp [show s.gate g = 0 from h ⟨g, List.mem_range.mp hg⟩]
  rw [State.unlessGated, if_pos this]

/-- Reading ranges of tables that are open leaves no trace. -/
theorem State.TablesOpen.touchedAll {ctx : Nat} {rs : List (Nat × Nat)} (h : s.TablesOpen ctx rs) : s.touchedAll ctx rs = s := by
  simp only [State.touchedAll, State.touchedAt, h.1.wakeAll, h.2]

theorem State.TablesOpen.unlessGated {ctx : Nat} {rs : List (Nat × Nat)} (h : s.TablesOpen ctx rs) (t : State) : s.unlessGated t = t :=
  h.1.unlessGated t

/-- A write through a window that is shut is discarded and counted; any other is performed (R26, R236). -/
theorem State.through_shut {own : Option Nat} {pa c : Nat} (f : State → State) (h : s.shutCore own pa = some c) :
    s.through own pa f = s.count (coreK c 0x28) 1 := by simp [State.through, h]
theorem State.through_open {own : Option Nat} {pa : Nat} (f : State → State) (h : s.shutCore own pa = none) : s.through own pa f = f s := by
  simp [State.through, h]

end Sys2Proof.Machine
end

