-- ==== Sys2Proof/Tests/Slice0.lean ====
section
/-! SUPPORT. Tests of the model: for every statement with hypotheses a concrete state and operands that meet them, clause by clause; terms
that WellFormed refuses; instruction words written out from the encoding of R242; small effects with values from the manual. -/

namespace Sys2Proof.Tests
open Sys2Proof Sys2Proof.Machine
set_option Elab.async false

/-- A device that has booted. -/
def up : State := { State.reset with boot := .ready, released := true, refStarted := true }

/-- `s` with an instruction at the head of a running queue. -/
def headed (s : State) (c : Nat) (q : Queue) (o : Op) (w : InstrWord) : State :=
  s.setQueue c q { s.queue c q with mode := .running, fetched := some (encode o w) }

/-- The state that an outcome answers. -/
def after (o : Host.Outcome State Fault Refusal) : State :=
  match o with
  | .next t => t
  | _ => State.reset

/-- An entry in flight. -/
def flying (o : Op) (work : Work) : InFlight :=
  { id := 5, op := o, pc := 3, optag := 0x77, sinc := 0, home := 0, work := work, events := [], error := none, post := none, hold := .none,
    step := 1, errAt := 0 }

/-- `s` with the core domain of die 0 without a clock (R416). -/
def hungCores (s : State) : State := s.setReg (dieK 0 0x360000) 0x4000000000000001

/-! Witnesses: steps, reset, encoding, memory -/

theorem witness_StepRunsFront :
    (up.pending = [] ∧ up.refStarted = true) ∧ State.reset.pending = [] ∧ State.reset.refStarted = false := by decide

theorem witness_DecodeOfEncode : decode 0 = some (.nop, {}) ∧ decode (0xFF <<< 120) = none := by decide +kernel

theorem witness_StepKeepsMemOk : State.reset.MemOk ∧ step State.reset = .next State.reset := ⟨rfl, rfl⟩

theorem witness_MemoryCanonical :
    Memory.wf [(3, 1), (7, 0xFF)] = true ∧ (0 : Nat) < [(1 : Byte)].length ∧ ((2 : Nat) < 3 ∨ 3 + [(1 : Byte)].length ≤ 2) := by decide

theorem witness_StepKeepsFuses : State.reset.fuses.svn ≤ 64 ∧ step State.reset = .next State.reset := ⟨by decide, rfl⟩

/-! Witnesses: heads that do not issue -/

/-- An instruction whose wait on the core's own semaphore 0 is unmet at the value 0. -/
def waits : InstrWord := { wcond := 1, wsem := 0x1C0 }

theorem witness_HeadsThatDoNotIssue :
    (up.queue 0 .mqf).headIs .nop {} = false ∧
    (let s := headed up 0 .mqf .nop waits
     (s.queue 0 .mqf).headIs .nop waits = true ∧ (s.queue 0 .mqf).lineWait = none ∧ s.waitMet 0 .mqf waits = false) ∧
    (let w : InstrWord := { qclass := 1 }
     let s := headed up 95 .upq .nop w
     (s.queue 95 .upq).headIs .nop w = true ∧ (s.queue 95 .upq).lineWait = none ∧ s.waitMet 95 .upq w = true ∧
       s.frameCheck 95 .upq .nop w = some Code.QCLASS_MISMATCH ∧ (s.queue 95 .upq).inflight = []) ∧
    (({ qclass := 1 } : InstrWord).qclass ≠ opClass .nop ∧ opAllows .seed .upq = false) ∧
    (let w : InstrWord := { f3 := true }
     w.qclass = opClass .nop ∧ opAllows .nop .vec = true ∧ fieldsOk .nop w = false) ∧
    (let w : InstrWord := { ops := 4 }
     w.qclass = opClass .sld ∧ opAllows .sld .mqf = true ∧ fieldsOk .sld w = true ∧ up.chamOk 0 .mqf .sld w = false) ∧
    (let w : InstrWord := { wcond := 14 }
     w.qclass = opClass .nop ∧ opAllows .nop .mqf = true ∧ fieldsOk .nop w = true ∧ up.chamOk 0 .mqf .nop w = true ∧
       0xE ≤ w.wcond.toNat) ∧
    (let w : InstrWord := {}
     w.qclass = opClass .nop ∧ opAllows .nop .mqf = true ∧ fieldsOk .nop w = true ∧ up.chamOk 0 .mqf .nop w = true ∧
       w.wcond = 0 ∧ w.sinc = 0) := by decide +kernel

/-! Witnesses: general instructions -/

/-- `up` with the first semaphore of core 0 at 8, and the low bits of s13 of MQF at 8. -/
def sem8 : State := (up.setReg (coreK 0 0x1000) 8).setSreg 0 .mqf 13 8

/-- A wait on the core's own semaphore 0. -/
def waitOn (cond : BitVec 4) : InstrWord := { wcond := cond, wsem := 0x1C0 }

theorem witness_IssuingTakesTheWait :
    (headed up 0 .mqf .nop {}).ready 0 .mqf .nop {} ∧ (headed up 95 .upq .end_ {}).ready 95 .upq .end_ {} ∧
    (∀ i ∈ [(1 : BitVec 4), 8, 9, 0xB, 0xC, 0xD],
      let s := headed sem8 0 .mqf .nop (waitOn i)
      s.ready 0 .mqf .nop (waitOn i) ∧ s.waitHome 0 (waitOn i) = some (coreK 0 0x1000)) ∧
    (let s := headed up 0 .mqf .nop (waitOn 0xA)
     s.ready 0 .mqf .nop (waitOn 0xA) ∧ s.waitHome 0 (waitOn 0xA) = some (coreK 0 0x1000)) := by
  unfold State.ready; decide +kernel

/-- A LOOP from address 4 to `e`, `n` times. -/
def loopTo (e n : Nat) : InstrWord := { ops := BitVec.ofNat 64 (e * 2 ^ 50 + n) }

/-- A queue at address 4 with `n` open loops to address 20. -/
def inLoops (n : Nat) (w : InstrWord) : State :=
  up.setQueue 0 .vec { mode := .running, pc := 4, loops := List.replicate n { start := 2, end_ := 20, left := 3 },
                       fetched := some (encode .loop w) }

theorem witness_LoopSteps :
    (∀ w ∈ [loopTo 4 1, loopTo 12288 1],
      (inLoops 0 w).ready 0 .vec .loop w ∧ ((inLoops 0 w).queue 0 .vec).inflight = []) ∧
    ((inLoops 1 (loopTo 21 1)).ready 0 .vec .loop (loopTo 21 1)) ∧
    ((inLoops 4 (loopTo 20 0)).ready 0 .vec .loop (loopTo 20 0) ∧ (inLoops 0 (loopTo 5 0)).ready 0 .vec .loop (loopTo 5 0)) ∧
    ((inLoops 4 (loopTo 20 1)).ready 0 .vec .loop (loopTo 20 1) ∧ ((inLoops 4 (loopTo 20 1)).queue 0 .vec).loops.length = 4) ∧
    ((inLoops 3 (loopTo 5 1)).ready 0 .vec .loop (loopTo 5 1) ∧ ((inLoops 3 (loopTo 5 1)).queue 0 .vec).loops.length = 3) := by
  unfold State.ready; decide +kernel

/-- Scalar words: s15 from s14 and s13, and with an immediate of all ones. -/
def regForm : InstrWord := { ops := 0xFED0000000000000 }
def immForm : InstrWord := { f0 := true, ops := 0xFE00FFFFFFFFFFFF }

theorem witness_ScalarResults :
    (∀ o ∈ [Op.sadd, .ssub, .smul, .sand, .sor, .sxor, .sshl, .sshr], ∀ w ∈ [regForm, immForm],
      (headed up 5 .ldm o w).ready 5 .ldm o w) ∧
    (let w : InstrWord := { f0 := true, ops := 0xF000800000000000 }
     (headed up 5 .ldm .smov w).ready 5 .ldm .smov w) ∧
    (let w : InstrWord := { f0 := true, ops := 0xF00000000000FFFF }
     (headed up 5 .ldm .smovh w).ready 5 .ldm .smovh w) ∧
    (let w : InstrWord := { ops := 0xFFFFFFFFFFFFFFFF }
     (headed up 5 .stm .seed w).ready 5 .stm .seed w) := by
  unfold State.ready; decide +kernel

/-- A chamber access at the last 8 bytes of the window. -/
def chamLast : InstrWord := { ops := 0xF0000000003FFFF8 }
/-- A DADD on descriptor 255. -/
def dadd255 : InstrWord := { ops := 0xF0000000000000FF }
/-- `up` with the units that hold the last chamber word of core 7 and descriptor 255 poisoned. -/
def chamBad : State := { up with tags := [(chamPa 7 0x3FFFC0 / 64, 0xFFFF)] }

theorem witness_ChamberWords :
    up.coreUp 7 = true ∧
    (let s := headed up 7 .stm .sld chamLast
     s.ready 7 .stm .sld chamLast ∧ (s.readBytes (chamPa 7 0x3FFFF8) 8).tag = .good) ∧
    (let s := headed chamBad 7 .stm .sld chamLast
     s.coreUp 7 = true ∧ s.ready 7 .stm .sld chamLast ∧ (s.readBytes (chamPa 7 0x3FFFF8) 8).tag ≠ .good) ∧
    ((headed up 7 .stm .sst chamLast).ready 7 .stm .sst chamLast) ∧
    (let s := headed up 7 .upq .dadd dadd255
     s.ready 7 .upq .dadd dadd255 ∧ s.regFld (coreK 7 0xC00) 14 8 * 0x4000 + 64 * 255 = 0x3FFFC0 ∧
       (s.readBytes (chamPa 7 0x3FFFC0) 8).tag = .good) ∧
    (let s := headed chamBad 7 .upq .dadd dadd255
     s.ready 7 .upq .dadd dadd255 ∧ (s.readBytes (chamPa 7 0x3FFFC0) 8).tag ≠ .good) := by
  unfold State.ready; decide +kernel

/-! Witnesses: synchronisation and mailboxes -/

/-- A SEMSET of cluster semaphore 0 to all ones. -/
def setClu : InstrWord := { ops := 0x00000400FFFFFFFF }
/-- `up` with a signal on its way to the last semaphore of core 95. -/
def signalled (inc : Nat) : State := { up with sigs := [{ src := .queue 3 .vec, home := coreK 95 0x11F8, inc := inc, optag := 0, pc := 0 }] }

theorem witness_SemaphoreSetsAndSignals :
    ((headed up 6 .mqb .semset setClu).ready 6 .mqb .semset setClu ∧
      (headed up 6 .mqb .semset setClu).semHome 6 (BitVec.ofNat 12 (opnd setClu 43 32)) false = .home (cluK 1 0x1000)) ∧
    (up.access 0 0x8000000020001000 8 = .at_ (.core 0) 0x1000 ∧ isSem (.core 0) 0x1000 = true) ∧
    (∀ b ∈ [(0x8000000010F017F8, Blk.clu 15, 0x17F8), (0x8000000009200FF8, Blk.die 1, 0x200FF8)],
      up.access 0 b.1 8 = .at_ b.2.1 b.2.2 ∧ isSem b.2.1 b.2.2 = true) ∧
    ((signalled 15).sigs.find? (fun y => y.src == .queue 3 .vec) =
        some { src := .queue 3 .vec, home := coreK 95 0x11F8, inc := 15, optag := 0, pc := 0 } ∧
      homeCore (coreK 95 0x11F8) = some 95 ∧ (signalled 15).coreUp 95 = true ∧ (signalled 15).sem (coreK 95 0x11F8) + 15 < 2 ^ 32) ∧
    2 ^ 32 ≤ ((signalled 15).setReg (coreK 95 0x11F8) 0xFFFFFFF1).sem (coreK 95 0x11F8) + 15 := by
  unfold State.ready; decide +kernel

theorem witness_SemaphoreSetsAndSignals_home : isSemKey (coreK 95 0x11F8) := Or.inl ⟨95, 63, rfl⟩

/-- An arrival at line `l`, that waits or not. -/
def arriveAt (l : Nat) (wait : Bool) : InstrWord := { f0 := wait, ops := BitVec.ofNat 64 l }
/-- Line 31 with the cores of the bits of `m` as members, and core `c` about to arrive. -/
def onLine (m : W64) (c : Nat) (w : InstrWord) : State := headed (up.setReg (xrdK 31 0) m) c .mqf .xarr w

theorem witness_CrossroadsLines :
    (let w := arriveAt 31 true
     let s := onLine 2 0 w
     s.ready 0 .mqf .xarr w ∧ (s.queue 0 .mqf).lineWait = none ∧ opnd w 7 0 < 32 ∧ s.lineOf (s.ctxOf 0) (opnd w 7 0) = some 31 ∧
       (s.lineMask 31).testBit 0 = false) ∧
    (let w := arriveAt 31 true
     let s := onLine 1 0 w
     s.ready 0 .mqf .xarr w ∧ (s.queue 0 .mqf).lineWait = none ∧ s.lineOf (s.ctxOf 0) (opnd w 7 0) = some 31 ∧
       (s.lineMask 31).testBit 0 = true ∧ (s.arrive 0 31).lineComplete 31 = true) ∧
    (∀ f ∈ [true, false],
     let w := arriveAt 31 f
     let s := onLine 3 0 w
     s.ready 0 .mqf .xarr w ∧ (s.queue 0 .mqf).lineWait = none ∧ s.lineOf (s.ctxOf 0) (opnd w 7 0) = some 31 ∧
       (s.lineMask 31).testBit 0 = true ∧ (s.arrive 0 31).lineComplete 31 = false ∧ w.f0 = f) ∧
    ((up.writeMask 0 0 false 1).lineComplete 0 = false ∧ (up.writeMask 0 31 true 0x80000000).lineComplete 31 = false) ∧
    ((up.setReg (xrdK 0 0x18) 1).writeMask 0 0 false 1).lineComplete 0 = true ∧
    (1 : Fin 16).val ≠ 0 := by
  unfold State.ready; decide +kernel

/-- Context 2 owns cluster 15 as its cluster 0 and line 31 as its line 0; `arr` tells that core 95 has arrived there. -/
def lineOfTwo (arr : Bool) : State :=
  ((up.setReg (bindK 2 0) 0x800000000000000F).setReg (bindK 2 0x300) 0x800000000000001F).setReg (xrdK 31 0x20)
    (if arr then 0x80000000 else 0)

theorem witness_CrossroadsLines_masks :
    up.lineOf 2 31 = none ∧
    (∀ arr ∈ [true, false],
     let s := lineOfTwo arr
     s.lineOf 2 0 = some 31 ∧ s.coreOf 2 5 = some 95 ∧ (∀ i < 64, s.coreOf 2 i = some 95 → i = 5) ∧
       (s.writeMask 2 31 false 0x20).lineComplete 31 = arr) := by decide +kernel

/-- Core 0 sends channel 63 of its cluster a message of `len` bytes with doorbell 31. -/
def sends (len : Nat) : InstrWord := { ops := BitVec.ofNat 64 (63 * 2 ^ 48 + len * 2 ^ 32 + 31 * 2 ^ 24) }
/-- Channel 63 of cluster 0 configured for core 0, and full or not. -/
def channel (full : Bool) : State :=
  (up.setReg (cluK 0 0x41F8) 0x4000000000000000).setReg (cluK 0 0x43F8) (if full then 0xC000000000000000 else 0)
/-- Core 0 receives from channel 63. -/
def receives : InstrWord := { ops := BitVec.ofNat 64 (63 * 2 ^ 48 + 0x3FFFC0) }
/-- A message that a full channel holds back, in flight. -/
def heldBack : InFlight := flying .mbsend (.mbsend 0 63 31 64 5)

theorem witness_Mailboxes_send :
    (∀ len ∈ [0, 1, 64],
     let w := sends len
     let s := headed (channel false) 0 .vec .mbsend w
     s.ready 0 .vec .mbsend w ∧ opnd w 59 54 = 0 ∧ s.cluOf (s.ctxOf 0) (opnd w 63 60) = some 0 ∧ s.cluUp 0 = true ∧
       s.mbMine 0 0 (opnd w 53 48) = true ∧ (s.readBytes (chamPa 0 (s.offs 0 .vec w (opnd w 21 6 * 64))) len).tag = .good ∧
       opnd w 38 32 = len ∧ s.mbFull 0 (opnd w 53 48) = false) ∧
    (let w := sends 64
     let s := headed (channel true) 0 .vec .mbsend w
     s.ready 0 .vec .mbsend w ∧ opnd w 59 54 = 0 ∧ s.cluOf (s.ctxOf 0) (opnd w 63 60) = some 0 ∧ s.cluUp 0 = true ∧
       s.mbMine 0 0 (opnd w 53 48) = true ∧ (s.readBytes (chamPa 0 (s.offs 0 .vec w (opnd w 21 6 * 64))) 64).tag = .good ∧
       s.mbFull 0 (opnd w 53 48) = true) := by
  unfold State.ready; decide +kernel

theorem witness_Mailboxes_held :
    (let s := (channel false).setQueue 0 .vec { inflight := [heldBack] }
     heldMessage (s.queue 0 .vec) = some (heldBack, 0, 63, 31, 64, 5) ∧ s.cluUp 0 = true ∧ s.mbFull 0 63 = false ∧ s.mbMine 0 0 63 = true ∧
       s.regFld (coreK 0 0x1400) 0 32 ≠ 0) := by decide +kernel

theorem witness_Mailboxes_kept :
    (let s := (channel true).setQueue 0 .vec { inflight := [heldBack] }
     heldMessage (s.queue 0 .vec) = some (heldBack, 0, 63, 31, 64, 5) ∧ s.cluUp 0 = true ∧ s.mbFull 0 63 = true) := by decide +kernel

theorem witness_Mailboxes_taken :
    (let s := (up.setReg (cluK 0 0x41F8) 0x4000000000000005).setQueue 0 .vec { inflight := [heldBack] }
     heldMessage (s.queue 0 .vec) = some (heldBack, 0, 63, 31, 64, 5) ∧ s.cluUp 0 = true ∧ s.mbMine 0 0 63 = false) := by decide +kernel

theorem witness_Mailboxes_receive :
    (let w := receives
     let s := headed (channel true) 0 .stm .mbrecv w
     s.ready 0 .stm .mbrecv w ∧ opnd w 59 54 = 0 ∧ s.vcluOf (s.ctxOf 0) 0 = some (opnd w 63 60) ∧ s.coreUp 0 = true ∧
       s.mbFull 0 (opnd w 53 48) = true ∧ s.olderRecv 0 .stm w = false) ∧
    (up.cluOf 0 15 = some 15 ∧ up.cluUp 15 = true) := by
  unfold State.ready; decide +kernel

/-! Witnesses: matrix engines, vector engine, movers -/

/-- The bytes of a tile of one line of 32 BF16 elements at chamber offset 0: rung 3, form 4 (R94, R467), each element 1.0. -/
def tileBytes : List Byte :=
  (leBytes 2 0 ++ [3, 4, 4, 0, 0, 0] ++ leBytes 2 1 ++ leBytes 2 0 ++ leBytes 4 32 ++ leBytes 8 0 ++ leBytes 8 0 ++ leBytes 4 0 ++
    leBytes 4 0x40 ++ leBytes 4 2048 ++ leBytes 4 0 ++ leBytes 4 4096 ++ zeros 12) ++ zeros 1984 ++
  (List.replicate 32 [(0x80 : Byte), 0x3F]).flatten
/-- `up` with that tile in the chamber of core 0. -/
def withTile : State := { up with mem := memWrite [] (chamPa 0 0) tileBytes }
/-- An MMA of 32 products per cell with that tile as both operands: into F0, continuing, and as a weight gradient. -/
def mmaFresh : InstrWord := { qclass := 1, ops := 0x80 }
def mmaCont : InstrWord := { mmaFresh with f0 := true }
def mmaWgrad : InstrWord := { qclass := 1, ops := 0xC0 }
/-- An open buffer of one cell. -/
def openBuf1 : MxBuf := { mode := .open_, rows := 1, cols := 1, used := 32, aTable := [0x3F800000], bTable := [0x3F800000], cells := [{}] }
/-- `withTile` with layer 0 frozen for weight gradients (R137, R166). -/
def frozenLayer : State := { withTile with mem := memWrite withTile.mem 0 (leBytes 8 0x0001000000000000) }

theorem witness_MatrixAccumulates :
    (let s := headed withTile 0 .mqf .mma mmaFresh
     s.ready 0 .mqf .mma mmaFresh ∧ s.Awake ∧ s.mmaCheck 0 .mqf mmaFresh = none ∧
       (s.takeWait 0 .mqf mmaFresh).pick 0 .mqf mmaFresh = .take (some false) false) ∧
    (let s := headed (withTile.setBuf 0 0 openBuf1) 0 .mqf .mma mmaCont
     s.ready 0 .mqf .mma mmaCont ∧ s.Awake ∧ s.mmaCheck 0 .mqf mmaCont = none ∧
       (s.takeWait 0 .mqf mmaCont).pick 0 .mqf mmaCont = .take (some false) false) ∧
    (let s := headed frozenLayer 0 .mqb .mma mmaWgrad
     s.ready 0 .mqb .mma mmaWgrad ∧ s.Awake ∧ s.mmaCheck 0 .mqb mmaWgrad = none ∧
       (s.takeWait 0 .mqb mmaWgrad).pick 0 .mqb mmaWgrad = .take none false) ∧
    (∀ h ∈ [true, false],
     let s := (if h then hungCores up else up).setQueue 0 .mqf { inflight := [flying .mma (.mma 0 true 512)] }
     s.coreHung 0 = h ∧ (s.queue 0 .mqf).oldest Work.isMma = some (flying .mma (.mma 0 true 512))) := by
  unfold State.ready State.Awake; decide +kernel

/-- An MDRN of F0 as FP32 to the last unit of the chamber. -/
def mdrnLast : InstrWord := { qclass := 1, ops := 0x500000000000FFFF }

theorem witness_MatrixDrains :
    (∀ b ∈ [openBuf1, { openBuf1 with null := true, cells := [] }],
     let s := headed (up.setBuf 0 0 b) 0 .mqf .mdrn mdrnLast
     s.ready 0 .mqf .mdrn mdrnLast ∧ (s.queue 0 .mqf).mmaRuns 0 = false ∧ s.mdrnCheck 0 .mqf mdrnLast = none ∧
       (b.null = true ∨ s.underTest (engineUnit 0 b.engine) = false)) ∧
    (let s := up.setQueue 0 .mqf { inflight := [flying .mdrn (.mdrn 0)] }
     (s.queue 0 .mqf).oldest Work.isMdrn = some (flying .mdrn (.mdrn 0)) ∧ s.coreHung 0 = false ∧ s.Awake ∧
       s.regBit (pipeK (s.ctxOf 0) 0) 0 = false) ∧
    (let s := (up.setQueue 0 .mqf { inflight := [flying .mdrn (.mdrn 0)] }).setReg (pipeK 0 0) 0x1001
     s.coreHung 0 = false ∧ s.Awake ∧ s.regBit (pipeK (s.ctxOf 0) 0) 0 = true ∧
       s.localPlace (s.ctxOf 0) (tableAddr (s.reg (pipeK (s.ctxOf 0) 0)) + 32 * (s.buf 0 0).slot.toNat + 16) = .mem 0x1010) := by
  unfold State.ready State.Awake; decide +kernel

/-- A descriptor (R273): base, format, extents and strides, innermost first. -/
def descBytes (base fmt : Nat) (dims : List (Nat × Nat)) : List Byte :=
  let z := List.replicate (5 - dims.length) 0
  leBytes 8 base ++ ((dims.map (·.1) ++ z).map (leBytes 4)).flatten ++ ((dims.map (·.2) ++ z).map (leBytes 6)).flatten ++
    leBytes 6 (fmt * 2 ^ 44 + dims.length * 2 ^ 41)
/-- `s` with descriptor `i` of core 0. -/
def withDesc (s : State) (i : Nat) (d : List Byte) : State := { s with mem := memWrite s.mem (chamPa 0 (0x3FC000 + 64 * i)) d }
/-- `up` with descriptors of two FP32 vectors of four elements of core 0's chamber, of an empty one, and a chain record of one MOV at
offset 0x3000. -/
def vecState : State :=
  let s := withDesc (withDesc (withDesc up 1 (descBytes (chamPa 0 0x1000) 5 [(4, 1)])) 2 (descBytes (chamPa 0 0x2000) 5 [(4, 1)])) 3
    (descBytes (chamPa 0 0x2000) 5 [(0, 1)])
  { s with mem := memWrite (memWrite s.mem (chamPa 0 0x3000) (leBytes 8 0x1520000000000000)) (chamPa 0 0x2000) (leBytes 4 0x3F800000) }
/-- A VOP with output descriptor `o` and input X descriptor `x`. -/
def vopWord (o x : Nat) : InstrWord := { qclass := 2, ops := BitVec.ofNat 64 (o * 2 ^ 56 + x * 2 ^ 48 + 0xFFFFFF0000C0) }
/-- A VXADD of `n` partials that ends at the last unit of the chamber. -/
def vxaddWord (n : Nat) : InstrWord := { qclass := 2, ops := BitVec.ofNat 64 ((0x10000 - n) * 2 ^ 48 + 0xFFFF * 2 ^ 32 + n * 2 ^ 16) }

theorem witness_VectorResults :
    (∀ w ∈ [vopWord 1 2, vopWord 3 3],
     let s := headed vecState 0 .vec .vop w
     s.ready 0 .vec .vop w ∧ (s.takeWait 0 .vec w).vecBusy 0 = false ∧ (s.takeWait 0 .vec w).vopCheck 0 .vec w = none) ∧
    (let s := headed vecState 0 .vec .vop (vopWord 3 3)
     ((s.takeWait 0 .vec (vopWord 3 3)).vopOps 0 .vec (vopWord 3 3)).worked.any (·.empty) = true) ∧
    (∀ n ∈ [0, 2],
     let s := headed up 0 .vec .vxadd (vxaddWord n)
     s.ready 0 .vec .vxadd (vxaddWord n) ∧ (s.takeWait 0 .vec (vxaddWord n)).vecBusy 0 = false ∧
       (s.takeWait 0 .vec (vxaddWord n)).vxaddOk 0 .vec (vxaddWord n) = true ∧ s.coreUp 0 = true ∧
       opnd (vxaddWord n) 31 16 = n) := by
  unfold State.ready; decide +kernel

/-- `vecState` with layer 0 on rung 3, a quantisation record at offset 0x4000, slots of one tile at 0x8000, and one of none. -/
def ldqState : State :=
  let s := withDesc (withDesc vecState 4 (descBytes (chamPa 0 0x8000) 5 [(1, 1024)])) 5 (descBytes (chamPa 0 0x8000) 5 [(0, 1024)])
  { s.setReg (kerbK 0 0) 0x1 with mem := memWrite s.mem 0 (leBytes 8 0x00C0000000000000) }
/-- An LDQ from descriptor 2 into the slots of descriptor `d`. -/
def ldqWord (d : Nat) : InstrWord := { qclass := 3, ops := BitVec.ofNat 64 (2 * 2 ^ 56 + d * 2 ^ 48 + 0x200 * 2 ^ 15) }

theorem witness_MoversStore_ldq :
    ∀ d ∈ [4, 5],
      let w := ldqWord d
      let s := headed ldqState 0 .ldm .ldq w
      let u := s.takeWait 0 .ldm w
      let j := u.latchOset (u.ldqJob 0 .ldm w)
      let v := u.countOverlap 0 (u.overlapCase false (jobTensor j 0 6) [jobTensor j 1 6])
      s.ready 0 .ldm .ldq w ∧ s.Awake ∧ State.ldqEarly 0 .ldm w s = none ∧ u.ladderBusy (u.ctxOf 0) = false ∧
        (u.layerWord (u.ctxOf 0) (qrecOf (u.ldqJob 0 .ldm w).record).layer).tag = .good ∧ u.ldqCheck 0 w (u.ldqJob 0 .ldm w) = none ∧
        ldqEmpty j = decide (d = 5) ∧ (d = 4 → v.ldqNeeds j = []) := by
  unfold State.ready State.Awake; decide +kernel

/-- A COPY from descriptor 2 to descriptor 1. -/
def copyWord (cls : BitVec 4) : InstrWord := { qclass := cls, ops := 0x0201000000000000 }
/-- `vecState` with an E4M3 vector and its E8M3 scale for an STQ. -/
def stqState : State :=
  withDesc (withDesc vecState 6 (descBytes (chamPa 0 0x5000) 2 [(4, 1)])) 7 (descBytes (chamPa 0 0x6000) 7 [(1, 1)])
def stqWord : InstrWord := { qclass := 4, ops := 0x0206070000000000 }

theorem witness_MoversStore_copy :
    ∀ p ∈ [(Op.ldmCopy, Queue.ldm, (3 : BitVec 4)), (.stmCopy, .stm, 4)],
      let w := copyWord p.2.2
      let s := headed vecState 0 p.2.1 p.1 w
      let u := s.takeWait 0 p.2.1 w
      let a := u.tensorAt 0 (opnd w 63 56)
      let b := u.tensorAt 0 (opnd w 55 48)
      let us := groupWrites ((u.countOverlap 0 (u.overlapCase true a [b])).copyElems (u.ctxOf 0) w (u.reg (seedK 0 p.2.1)) a b
        []).writes.reverse
      s.ready 0 p.2.1 p.1 w ∧ s.Awake ∧ u.copyCheck 0 w = none ∧ u.isRemote a.d = false ∧ us.length = 1 ∧
        ∀ y ∈ us, u.place (u.ctxOf 0) y.addr = .mem (chamPa 0 0x1000) := by
  unfold State.ready State.Awake; decide +kernel

theorem witness_MoversStore_stq :
    let w := stqWord
    let s := headed stqState 0 .stm .stq w
    let u := s.takeWait 0 .stm w
    let a := u.tensorAt 0 (opnd w 63 56)
    let b := u.tensorAt 0 (opnd w 55 48)
    let k := u.tensorAt 0 (opnd w 47 40)
    let r := (u.countOverlap 0 (u.overlapCase false a [b, k])).stqElems (u.ctxOf 0) w (u.reg (seedK 0 .stm)) a b k []
    s.ready 0 .stm .stq w ∧ s.Awake ∧ u.stqCheck 0 w = none ∧ u.isRemote a.d = false ∧
      ∀ y ∈ groupWrites r.1.writes.reverse ++ groupWrites r.2.reverse,
        u.place (u.ctxOf 0) y.addr = .mem (chamPa 0 0x5000) ∨ u.place (u.ctxOf 0) y.addr = .mem (chamPa 0 0x6000) := by
  unfold State.ready State.Awake; decide +kernel

/-- `up` with s3 of STM at the last word of granule 0 of stack 11, and that word 7. -/
def atomState : State :=
  { (up.setSreg 0 .stm 3 0xB03FFFFFF8).setSreg 0 .stm 4 9 with mem := memWrite [] 0xB03FFFFFF8 (leBytes 8 7) }
/-- ATOM at s3 with s4, result at chamber offset 8: a sum, and a swap. -/
def atomWord (cas : Bool) : InstrWord := { qclass := 4, f0 := cas, ops := if cas then 0x3450000000000008 else 0x3400000000000008 }

theorem witness_AtomicOnLocalWord :
    (∀ cas ∈ [true, false], ∀ x ∈ [atomState, { atomState with tags := [(0xB03FFFFFF8 / 64, 1)] }],
      let w := atomWord cas
      let s := headed x 0 .stm .atom w
      let u := s.takeWait 0 .stm w
      let a := (s.sreg 0 .stm (opnd w 63 60)).toNat
      s.ready 0 .stm .atom w ∧ s.Awake ∧ s.coreUp 0 = true ∧ u.shutCore (some 0) 0xB03FFFFFF8 = none ∧ a % 8 = 0 ∧ a / 0x4000000000000000 < 2 ∧ regionOf (a % 0x400000000000) ≠ none ∧
        regionOf (a % 0x400000000000) ≠ some 3 ∧ u.place (u.ctxOf 0) a = .mem 0xB03FFFFFF8 ∧ u.deadAt 0xB03FFFFFF8 = none ∧
        decide ((u.readBytes 0xB03FFFFFF8 8).tag = .good) = decide (x.tags = [])) ∧
    (let w := atomWord false
     let pa := chamPa 1 0x3FFFF8
     let s := headed (headed (atomState.setSreg 0 .stm 3 (BitVec.ofNat 64 pa)) 1 .mqf .nop {}) 0 .stm .atom w
     let u := s.takeWait 0 .stm w
     s.ready 0 .stm .atom w ∧ s.Awake ∧ s.coreUp 0 = true ∧ pa % 8 = 0 ∧ pa < 0x400000000000 ∧ regionOf pa ≠ none ∧
       regionOf pa ≠ some 3 ∧ u.place (u.ctxOf 0) pa = .mem pa ∧ u.deadAt pa = none ∧ (u.readBytes pa 8).tag = .good ∧
       u.shutCore (some 0) pa = some 1) := by
  unfold State.ready State.Awake; decide +kernel

/-! Witnesses: update units, commits, snapshots -/

/-- A group of one element under rule 1, frozen or not, whose words 12 and 13 are given: parameters in halves at 0x20000 and 0x30000. -/
def groupBytes (froz : Bool) (w12 w13 w14 : Nat) : List Byte :=
  leBytes 8 (1 * 2 ^ 60 + (if froz then 2 ^ 47 else 0)) ++ leBytes 8 1 ++ zeros 8 ++ leBytes 8 0x20000 ++ leBytes 8 0x30000 ++ zeros 56 ++
    leBytes 8 w12 ++ leBytes 8 w13 ++ leBytes 8 w14 ++ zeros 8
/-- An update descriptor of `count` elements of group 0 at step 1, gradients at 0x40000 (R181). -/
def updBytes (count : Nat) : List Byte := leBytes 8 0x40000 ++ leBytes 8 (2 ^ 32) ++ zeros 8 ++ leBytes 8 (count * 2 ^ 24) ++ zeros 32
/-- `up` with that group at 0x10000 in stack 0, its gradient 1.0, and the descriptor in the chamber of core 0. -/
def updState (froz : Bool) (count w12 w13 w14 : Nat) : State :=
  { up.setReg (updK 0 0) 0x10000 with
    mem := memWrite (memWrite (memWrite [] 0x10000 (groupBytes froz w12 w13 w14)) 0x40000 (leBytes 4 0x3F800000)) (chamPa 0 0)
      (updBytes count) }
def updWord : InstrWord := { qclass := 5 }

theorem witness_UpdateIssues :
    ∀ p ∈ [(false, 1, 0), (false, 1, 1), (false, 0, 0), (true, 1, 0)],
      let s := headed (updState p.1 p.2.1 0 (p.2.2 * 2 ^ 32) 5) 0 .upq .upd updWord
      let u := s.takeWait 0 .upq updWord
      s.ready 0 .upq .upd updWord ∧ s.Awake ∧ State.updEarly 0 .upq updWord s = none ∧
        (u.updDesc 0 .upq updWord).step = BitVec.ofNat 32 (u.cstep 0) + 1 ∧
        u.updPlace 0 (u.updGroup 0 .upq updWord) (u.updDesc 0 .upq updWord) = none ∧ u.GroupTakes 0 0 0x10040 ∧
        (u.updGroup 0 .upq updWord).froz = p.1 ∧ (u.updDesc 0 .upq updWord).count = p.2.1 ∧
        ((u.updGroup 0 .upq updWord).wstep = 1 ↔ p.2.2 = 1) := by
  unfold State.ready State.Awake State.GroupTakes; decide +kernel

/-- The UPD of that state in flight. -/
def updJob1 : UpdJob := (updState false 1 0 (2 ^ 32) 0xFFFFFFFFFF).updJob 0 .upq updWord
def updFlying : InFlight := flying .upd (.upd updJob1)
def updRuns : State := (updState false 1 0 (2 ^ 32) 0xFFFFFFFFFF).setQueue 0 .upq { inflight := [updFlying] }

theorem witness_UpdateCompletes :
    let j := updJob1
    updFlying.work = .upd j ∧ (updRuns.queue 0 .upq).inflight[0]? = some updFlying ∧ j.ctx < 16 ∧ updRuns.Awake ∧
        updRuns.updStack j.ctx (groupOf j.entry) (updDescOf j.desc) = some 0 ∧ updRuns.regBit (stkK 0 0) 0 = false ∧
        updRuns.regBit (stkK 0 8) 1 = false ∧ updRuns.isDisabled 0x9000 = false ∧ updRuns.localPlace j.ctx (j.gaddr + 112) = .mem 0x10070 ∧
        updRuns.deadAt 0x10070 = none ∧ updRuns.shutCore none 0x10070 = none ∧
        0x10070 / 64 * 64 ∉ updRuns.unitsLanded j.ctx (groupWrites (updWrites j (updRuns.updRun j (updRuns.updElems j)))) ∧
        (updRuns.updRun j (updRuns.updElems j)).wfb = false := by
  unfold State.Awake; decide +kernel

/-- COMMIT of step `n`, with ABORT or not. -/
def commitWord (abort : Bool) (n : Nat) : InstrWord := { qclass := 5, f0 := abort, ops := BitVec.ofNat 64 n }

theorem witness_CommitIssues :
    (∀ p ∈ [(false, 0), (false, 1), (false, 2), (true, 1)],
      let w := commitWord p.1 p.2
      let s := headed (updState false 1 0 (2 ^ 32) 1) 0 .upq .commit w
      let u := s.takeWait 0 .upq w
      s.ready 0 .upq .commit w ∧ u.stepField 0 .upq w = BitVec.ofNat 32 p.2 ∧ u.cstep (u.ctxOf 0) = 0 ∧ (s.queue 0 .upq).inflight = [] ∧
        s.Awake ∧ (p.1 = true → u.abortRefused (u.ctxOf 0) (u.stepField 0 .upq w) = false)) := by
  unfold State.ready State.Awake; decide +kernel

/-- The COMMIT of step 1 in flight, over that group with WCOUNT `w14`. -/
def committing (w14 : Nat) : State :=
  (updState false 1 0 (2 ^ 32) w14).setQueue 0 .upq { inflight := [flying .commit (.commit 0 true false)] }

theorem witness_CommitFlips :
    (∀ s ∈ [committing 0, committing 1, (committing 1).setReg (errK 0 0) 0xC000000000000000,
        (committing 1).setReg (snapK 0 3) 0x8000000000000000],
      (s.inflightOf 0).find? (fun p => isOwnCommit p.2.2) = some (0, .upq, flying .commit (.commit 0 true false)) ∧ s.updating 0 1 = false ∧
        s.flips 0 1 = [0] ∧ s.TablesOpen 0 (s.groupTable 0) ∧ s.GroupTakes 0 0 0x10040 ∧ s.GroupAlone 0 0 0x10040 [0]) ∧
    (committing 1).gateClosed 0 = false ∧ ((committing 1).setReg (errK 0 0) 0xC000000000000000).gateClosed 0 = true ∧
    [0].find? (fun i => decide (((committing 0).groupAt 0 i).wcount ≠ ((committing 0).groupAt 0 i).nelem)) = some 0 ∧
    [0].find? (fun i => decide (((committing 1).groupAt 0 i).wcount ≠ ((committing 1).groupAt 0 i).nelem)) = none ∧
    (List.range 4).any ((committing 1).holds 0 1 [0]) = false ∧
    (List.range 4).any (((committing 1).setReg (snapK 0 3) 0x8000000000000000).holds 0 1 [0]) = true := by
  unfold State.TablesOpen State.Awake State.GroupTakes State.GroupAlone; decide +kernel

/-- SNAP of snapshot 3 over groups 7 to 7, arming and ending. -/
def snapWord (arm done : Bool) : InstrWord := { qclass := 5, f0 := arm, f1 := done, ops := 0xC000700700000000 }

theorem witness_SnapshotsAndStep :
    bankFor 0 15 = some 15 ∧ bankFor 15 0 = some 15 ∧
    (let v : W64 := 0x2000700700000000
     bitAt v 60 = false ∧ bitAt v 61 = true ∧ up.regBit (snapK 15 3) 63 = false ∧ fld v 32 12 ≤ fld v 44 12) ∧
    bitAt (0x1000000000000000 : W64) 60 = true ∧
    (∀ p ∈ [(true, false), (false, true)],
      let w := snapWord p.1 p.2
      let s := headed up 0 .upq .snap w
      s.ready 0 .upq .snap w ∧ s.regBit (snapK ((s.takeWait 0 .upq w).ctxOf 0) 3) 63 = false ∧ opnd w 43 32 ≤ opnd w 55 44) ∧
    ((up.inflightOf 15).any fun p => p.2.2.op == .upd || p.2.2.op == .commit) = false ∧
    (((committing 1).inflightOf 0).any fun p => p.2.2.op == .upd || p.2.2.op == .commit) = true := by
  unfold State.ready; decide +kernel

/-! Witnesses: the kerb monitor -/

/-- KSTEP of step `n`. -/
def kstepWord (n : Nat) : InstrWord := { qclass := 5, ops := BitVec.ofNat 64 n }
/-- A kerb sample of one layer with statistics at 0x4000000, this replica `self` of `g`, LTBASE at 0x1000. -/
def sampleOf (g self : Nat) : KerbSample :=
  { policy := 1, ltbase := 0x1000, stbase := 0x4000000, repl := BitVec.ofNat 64 (self * 2 ^ 48 + (g - 1) * 2 ^ 32) }
/-- `up` with one closing of step 1. -/
def closing (k : Closing) : State := up.setKerb 0 { closings := [k], sample := some k.sample }
def fresh (g self : Nat) : Closing := { step := 1, sample := sampleOf g self, stage := .waitWork }

theorem witness_KerbStepsClose :
    (∀ n ∈ [0, 1, 2],
      let s := headed up 0 .upq .kstep (kstepWord n)
      let u := s.takeWait 0 .upq (kstepWord n)
      s.ready 0 .upq .kstep (kstepWord n) ∧ u.stepField 0 .upq (kstepWord n) = BitVec.ofNat 32 n ∧ u.kstepNow (u.ctxOf 0) = 0 ∧
        (s.queue 0 .upq).inflight = []) ∧
    ((closing (fresh 1 0)).quantising 0 1 = false ∧ (closing (fresh 1 0)).Awake ∧ (sampleOf 1 0).g = 1 ∧ (sampleOf 1 0).self = 0) ∧
    ((closing (fresh 65536 0)).quantising 0 1 = false ∧ (closing (fresh 65536 0)).Awake ∧
      redNext (sampleOf 65536 0).g (sampleOf 65536 0).self (rounds (sampleOf 65536 0).g) 0 = .wait 0) ∧
    ((fresh 2 0).stage ≠ .ready ∧ (fresh 2 0).timeout = false ∧ ((closing (fresh 2 0)).setReg (kerbK 0 0x40) 1).regFld (kerbK 0 0x40) 0 32 ≠ 0) ∧
    ((closing (fresh 1 0)).localPlace 0 ((sampleOf 1 0).at_ localOff) = .mem 0x4800000 ∧
      (closing (fresh 1 0)).localPlace 0 ((sampleOf 1 0).at_ (slotOff 16)) = .mem 0x5000000) := by
  unfold State.ready State.Awake; decide +kernel

/-- A closing whose slot `slot` holds a record of step `n` that has arrived once. -/
def arrivedIn (k : Closing) (slot n : Nat) : State :=
  { closing k with mem := memWrite [] (k.sample.at_ (slotOff slot)) (leBytes 4 n ++ zeros 20 ++ leBytes 8 1) }

theorem witness_KerbTakesRecords :
    (∀ p ∈ [(fresh 2 0, 0, 7), (fresh 2 0, 0, 1), ({ fresh 4 0 with stage := .reduce 0 }, 0, 1), ({ fresh 2 1 with stage := .awaitReduced }, 16, 1)],
      let s := arrivedIn p.1 p.2.1 p.2.2
      let a := (s.reduceRegs 0).at_ (slotOff p.2.1)
      s.Awake ∧ (tgetD (s.kerbOf 0).seen p.2.1 0).toNat < (s.arriveAt 0 a).toNat ∧ (khdrOf (s.getRecord 0 a 0)).step = p.2.2) ∧
    (arrivedIn (fresh 2 0) 0 7).arrival 0 0 7 = .refuse ∧ (arrivedIn (fresh 2 0) 0 1).arrival 0 0 1 = .early ∧
    (let k : Closing := { fresh 4 0 with stage := .reduce 0 }
     (arrivedIn k 0 1).arrival 0 0 1 = .merge k ∧ redNext k.sample.g k.sample.self (rounds k.sample.g - 1) 1 = .wait 1) ∧
    (let k : Closing := { fresh 2 1 with stage := .awaitReduced }
     (arrivedIn k 16 1).arrival 0 16 1 = .reduced k ∧ bcastRounds k.sample.g k.sample.self = []) := by
  unfold State.Awake; decide +kernel

/-- A closing that is ready, whose reduced record has `mode` and CRCs 5 and `crc`, and 10 saturated elements of layer 0. -/
def decides (mode crc : Nat) : Closing :=
  { fresh 1 0 with
    stage := .ready
    own := ([1, 1, 5, crc, 0].map (leBytes 4)).flatten ++ leBytes 1 mode ++ zeros 43 ++ leBytes 8 10 ++ leBytes 4 10 ++ zeros 52 }

theorem witness_KerbDecides :
    (∀ p ∈ [(2, 6), (0, 5), (1, 5), (2, 5), (3, 5)],
      (((closing (decides p.1 p.2)).kerbOf 0).closings = [decides p.1 p.2]) ∧ (decides p.1 p.2).stage = .ready ∧ (closing (decides p.1 p.2)).Awake ∧
        (khdrOf (decides p.1 p.2).own).mode = p.1 ∧ (khdrOf (decides p.1 p.2).own).crcMin = 5 ∧ (khdrOf (decides p.1 p.2).own).crcMax = p.2 ∧
        (khdrOf (decides p.1 p.2).own).nrep = (decides p.1 p.2).sample.g) ∧
    ((closing (decides 2 5)).decision 0 (decides 2 5)).stormed = false ∧
    (let s := { closing (decides 2 5) with mem := memWrite [] 0x1000 (leBytes 8 (3 * 2 ^ 50)) }
     (s.decision 0 (decides 2 5)).stormed = true) := by
  unfold State.Awake; decide +kernel

/-- A ladder layer of cost 2 at rung `r` that wants `x`. -/
def layWant (r : Nat) (x : Int) : Lay := { w0 := 2, w1 := 0, rung := r, hold := 3, quiet := 4, want := x }

theorem witness_LadderKeepsToItsBudget :
    (decideMoves { sampleOf 1 0 with budget := 8 } true [layWant 1 1]).frozen = true ∧
    [layWant 0 0, layWant 1 1][0]? = some (layWant 0 0) ∧
    ((decideMoves { sampleOf 1 0 with budget := 8, storm := 0xFFFF000 } false [layWant 0 0, layWant 1 1]).layers[0]?) = some (layWant 0 0) := by
  decide +kernel

/-- One record kept for this device's slot 16. -/
def keptRecord : KerbSent := { device := 0, slot := 16, bytes := leBytes 64 1 }

theorem witness_KerbReplayAndStatus :
    (∀ p ∈ [((0 : Nat), (15 : Nat)), (15, 0)], bankFor p.1 p.2 = some 15) ∧ up.ladderBusy 15 = false ∧
    ((up.inflightOf 15).any fun p => p.2.2.op == .kstep) = false ∧ (closing (fresh 1 0)).ladderBusy 0 = true ∧
    up.discardRefused 15 = false ∧ (closing (fresh 1 0)).discardRefused 0 = true ∧ (up.kerbOf 15).sent = [] ∧
    (let s := up.setKerb 0 { sent := [keptRecord] }
     (s.kerbOf 0).sent = [keptRecord] ∧ keptRecord.device = s.fuses.device ∧
       s.localPlace 0 ((s.reduceRegs 0).at_ (slotOff keptRecord.slot)) = .mem 0x1000000 ∧ s.deadAt 0x1000000 = none ∧ s.shutCore none 0x1000000 = none ∧
       unitsOf 0x1000000 keptRecord.bytes.length = [0x1000000]) := by decide +kernel

/-! Witnesses: queues, images, gates -/

/-- Queue STM of core 95 running at address `pc`, with a word fetched or not. -/
def running (pc : BitVec 14) : State := up.setQueue 95 .stm { mode := .running, pc := pc }
/-- `up` whose instruction memory of core 95 holds `b` at address 12287. -/
def imemLast (b : Byte) : State := { running 12287 with mem := memWrite [] (imemPa 95 (16 * 12287 + 15)) [b] }

theorem witness_FetchReadsTheHead :
    (∀ n ∈ [12287, 12288], let x := (running (BitVec.ofNat 14 n)).queue 95 .stm
      x.mode = .running ∧ x.refusal = none ∧ x.inflight.any (·.op == .end_) = false ∧ x.fetched = none ∧ x.inflight = []) ∧
    (12287 : BitVec 14).toNat < 12288 ∧ 12288 ≤ (12288 : BitVec 14).toNat ∧
    opOf (opField ((imemLast 0x63).imemWord 95 12287)) = some .snap ∧ opOf (opField ((imemLast 0x64).imemWord 95 12287)) = none ∧
    (frameOf ((imemLast 0x64).imemWord 95 12287)).wcond = 0 ∧
    (up.setQueue 95 .stm { mode := .waiting }).queue 95 .stm = { mode := .waiting } ∧ (running 12287).coreHung 95 = false ∧
    (hungCores up).coreHung 0 = true ∧ (running 12287).mbRange 95 .stm .snap {} = none ∧
    (let s := (up.setQueue 0 .mqf { mode := .running }).setReg (pipeK 0 0) 0x1001
     s.coreHung 0 = false ∧ s.mbRange 0 .mqf .mma mmaFresh = some (0x1004, 4)) := by decide +kernel

/-- Queue VEC of core 3 with an entry of an operation in flight. -/
def inFlight (f : InFlight) : State := up.setQueue 3 .vec { mode := .running, inflight := [f] }

theorem witness_CompletionRetiresTheOldest :
    (flying .mma (.mma 0 true 512)).work.ended = false ∧
    (let s := (hungCores up).setQueue 0 .vec { inflight := [flying .sld .done] }
     s.coreHung 0 = true ∧ (s.queue 0 .vec).inflight = [flying .sld .done]) ∧ (inFlight (flying .sld .done)).coreHung 3 = false ∧
    (∀ f ∈ [flying .sld .done, flying .mma (.null 0), flying .end_ .done, { flying .sld .done with post := some (15, 7), sinc := 15 }],
      ((inFlight f).queue 3 .vec).inflight = [f] ∧ f.work.ended = true ∧ f.error = none ∧ f.events = [] ∧ f.hold = .none ∧
        ((inFlight f).queue 3 .vec).refusal = none ∧ f.op ≠ .vop ∧ f.op ≠ .vxadd) ∧
    ({ flying .sld .done with error := some Code.MEM_POISON_READ } : InFlight).error = some Code.MEM_POISON_READ ∧
    up.regBit (qK 3 .vec 8) 63 = false := by decide +kernel

theorem witness_QueuesStartAndStop :
    up.coreOf 0 95 = some 95 ∧ up.cluUp 15 = true ∧ up.gate 15 = 0 ∧ up.coreUp 95 = true ∧ up.cluOf 0 15 = some 15 ∧
    ((List.range 6).all fun k => up.coreUp (90 + k)) = true ∧
    (∀ m ∈ [QMode.ready, .stopped, .held, .faulted], (m = .ready ∨ m = .stopped ∨ m = .held ∨ m = .faulted)) ∧
    ¬(QMode.idle = .ready ∨ QMode.idle = .stopped ∨ QMode.idle = .held ∨ QMode.idle = .faulted) ∧
    up.engineOff 95 = false ∧ ({ up with disabled := [srcOf 3 95] } : State).engineOff 95 = true ∧
    (QMode.waiting = .running ∨ QMode.waiting = .waiting ∨ QMode.waiting = .held) := by decide +kernel

theorem witness_CoreRegistersAndWindows :
    up.coreOf 0 95 = some 95 ∧ up.cluUp 15 = true ∧ (up.queue 95 .stm).stopped = true ∧ ((running 0).queue 95 .stm).stopped = false ∧
    (up.queue 95 (seedQueue 4)).stopped = true ∧ ((running 0).queue 95 (seedQueue 4)).stopped = false ∧
    up.coreStopped 95 = true ∧ (running 0).coreStopped 95 = false ∧
    (∀ s ∈ [up, running 0],
      s.place 0 (BitVec.ofNat 64 (chamPa 95 0x3FFFFF)).toNat = .mem (chamPa 95 0x3FFFFF) ∧ oneWindow (chamPa 95 0x3FFFFF) 1 = true ∧
        windowCore (chamPa 95 0x3FFFFF) = 95 ∧ s.coreUp 95 = true ∧ s.gate 15 = 0) ∧
    windowCore (imemPa 95 0) = 95 ∧ oneWindow (imemPa 95 0) 0x30000 = true ∧ oneWindow (imemPa 95 0) 0x30001 = false := by decide +kernel

/-- An image header for core 0 of a cluster: MQF enters at 12287; one section that fills 64 chamber bytes with zeros (R235). -/
def imageHead (flags : Nat) : List Byte :=
  leBytes 4 0x46495A45 ++ leBytes 2 1 ++ leBytes 2 1 ++ [1, BitVec.ofNat 8 flags] ++ zeros 6 ++ leBytes 8 0x200 ++ zeros 40 ++
    ([0, 1, 0, 0] ++ leBytes 2 12287 ++ zeros 26) ++ zeros 160 ++ ([2, 0] ++ zeros 6 ++ leBytes 4 0x40 ++ leBytes 4 64 ++ zeros 16)
/-- `up` with an image of cluster 15 at local address 0x40. -/
def imaged (flags : Nat) : State :=
  { up.setReg (cluK 15 0) 0x40 with mem := memWrite [] 0x40 (imageHead flags) }
def loadOf (flags : Nat) : Load := { ctx := 0, base := 0x40, head := imageHead flags }

theorem witness_ImagesLoad :
    (∀ f ∈ [1, 2],
      (imaged f).cluOf 0 15 = some 15 ∧ (imaged f).cluUp 15 = true ∧ (imaged f).gate 15 = 0 ∧ tget (imaged f).loads 15 = none ∧
        (imaged f).TablesOpen 0 ((imaged f).imgRanges 0 ((imaged f).regFld (cluK 15 0) 6 40 * 64)) ∧
        (imaged f).imgHead 0 ((imaged f).regFld (cluK 15 0) 6 40 * 64) = some (imageHead f) ∧
        ∀ c ∈ maskCores 15 (imgMask (imageHead f)), (imaged f).coreStopped c = true) ∧
    imgChecks (imageHead 1) = none ∧ (imaged 1).imgTargets 15 (imageHead 1) = none ∧
    imgChecks (imageHead 2) = some (Code.IMAGE_INVALID, 0xFFFF, 0x03) ∧
    (let s := { imaged 1 with loads := [(15, loadOf 1)] }
     (tget s.loads 15).isSome = true ∧ tget s.loads 15 = some (loadOf 1) ∧
       s.Awake ∧ (({ s with loads := tdel s.loads 15 } : State).imgSections 15 (loadOf 1) 0 (imgNsec (imageHead 1))).2.1 = none) ∧
    (let s := up.setReg (cluK 15 0) 0x10080000000
     tget s.loads 15 = none ∧ s.Awake ∧ (s.touchedAll 0 (s.imgRanges 0 0x10080000000)).imgHead 0 0x10080000000 = none) ∧
    (let l := { loadOf 1 with head := patch (imageHead 1) 0x100 [1] ++ zeros 0x200 }
     let l := { l with head := patch l.head 0x118 [1] }
     (({ imaged 1 with loads := [] } : State).imgSections 15 l 0 (imgNsec l.head)).2.1 = some (Code.IMAGE_CRC, 0, 0x08)) := by
  unfold State.TablesOpen State.Awake; decide +kernel

/-- `up` with cluster 15 asked to enter clock-gated, and asleep with an action waiting. -/
def asked : State := up.setReg (gateK 15) 0x4000
def asleep : State := { up.setReg (gateK 15) 0x80008000 with waking := [(15, [.queueStart 0 95 0x10])] }

/-- An ATOM of core 0 on the last chamber word of core 95, whose cluster is gated. -/
def atomAsleep : State :=
  headed ((atomState.setReg (gateK 15) 0x80008000).setSreg 0 .stm 3 (BitVec.ofNat 64 (chamPa 95 0x3FFFF8))) 0 .stm .atom (atomWord false)

theorem witness_ClustersGateAndWake_atom :
    atomAsleep.ready 0 .stm .atom (atomWord false) ∧ chamPa 95 0x3FFFF8 % 8 = 0 ∧ chamPa 95 0x3FFFF8 < 0x400000000000 ∧
      atomAsleep.sreg 0 .stm 3 = BitVec.ofNat 64 (chamPa 95 0x3FFFF8) ∧ regionOf (chamPa 95 0x3FFFF8) = some 2 ∧
      (atomAsleep.takeWait 0 .stm (atomWord false)).place 0 (chamPa 95 0x3FFFF8) = .mem (chamPa 95 0x3FFFF8) ∧
      atomAsleep.gate (windowCore (chamPa 95 0x3FFFF8) / 6) ≠ 0 := by
  unfold State.ready; decide +kernel

theorem witness_ClustersGateAndWake :
    (asked.regFld (gateK 15) (gatePos 15) 2 = 1 ∧ tget asked.waking 15 = none ∧
      ((List.range 6).all fun k => asked.coreStopped (90 + k)) = true) ∧
    (fld (0 : W64) 14 2 = 0 ∧ (up.setReg (gateK 15) 0x80008000).gate 15 ≠ 0) ∧
    tget asleep.waking 15 = some [.queueStart 0 95 0x10] := by decide +kernel

/-! Witnesses: the fabric -/

/-- `up` with the queue pair table at local address 0x10000, quay 7 up in a 4-lane mode, and queue pair 16383 on quay 7 with STATE `st`,
partner queue pair 0x123, P_Key 0xABCD, 3 retries, EPSN 5 and next PSN 9, current rate 100 and target rate 90 (R350). -/
def paired (st : Nat) : State :=
  let s := ((up.setReg (fabK 0 8) 0x10000).setReg (quayK 7 8) 0x8000000000000000).setReg (quayK 7 0) 9
  let s := s.setQpWord 16383 0 (BitVec.ofNat 64 (st * 2 ^ 61 + 7 * 2 ^ 58 + 3 * 2 ^ 50 + 0xABCD * 2 ^ 29 + 0x123))
  (s.setQpWord 16383 5 0x9000005).setQpWord 16383 6 0x640000005A
/-- A packet of that queue pair with the expected PSN, for local address 0x40 of this device. -/
def packetOf (op : BitVec 8) (n : BitVec 8) (us : List SoxUnit) : Packet :=
  { qp := 16383, psn := 5, pkey := 0xABCD, op := op, epoch := (paired 1).epoch, tdev := BitVec.ofNat 16 (paired 1).fuses.device,
    nunits := n, addr := fabAddr (paired 1).fuses.device 0x40, units := us }
/-- The packet is served at once, next in order, of an accepted epoch, passes the checks of every request, and its answer may leave. -/
def taken (s : State) (p : Packet) (op : BitVec 8) : Prop :=
  let u := (s.atPort 7 p).notify p
  s.TakesPacket 7 p ∧ s.SendsAtOnce p.qp ∧ u.order p = .next ∧ u.epochOk p = true ∧ u.headReason p op = none
/-- A channel 63 of cluster 15 configured for queue pair 16383, in context 0. -/
def channeled : State := (paired 1).setReg (cluK 15 (0x4000 + 8 * 63)) (BitVec.ofNat 64 (2 ^ 63 + 16383 * 2 ^ 16))
def ctrlPacket : Packet :=
  { packetOf 6 1 [soxUnit (zeros 64) true] with addr := 0x800000000000F03F, opa := 64 }

theorem witness_TargetPerformsRequests :
    taken (paired 1) (packetOf 1 14 []) 1 ∧ (paired 1).targetReason (packetOf 1 14 []) 14 64 true = none ∧
    (let p := packetOf 2 1 [soxUnit (zeros 64) true]
     taken (paired 1) p 2 ∧ lengthBad p = false ∧ (paired 1).targetReason p 1 64 true = none ∧
       p.units = [soxUnit (zeros 64) true] ∧ (paired 1).place 0 0x40 = .mem 0x40 ∧ (paired 1).deadAt 0x40 = none ∧
       (paired 1).shutCore none 0x40 = none ∧ (paired 1).unitsLanded 0 (p.units.zipIdx.map fun x => wrOf p x.2 fullMask x.1) = [0x40] ∧
       0x40 ∉ (paired 1).qpEntry 16383) ∧
    (let p := { packetOf 3 1 [soxUnit (zeros 64) true] with opa := 1 }
     taken (paired 1) p 3 ∧ lengthBad p = false ∧ p.nunits = 1 ∧ (paired 1).targetReason p 1 64 true = none ∧
       (paired 1).unitsLanded 0 (p.units.zipIdx.map fun x => wrOf p x.2 (nibbleMask p.opa p.opb) x.1) = [0x40]) := by
  unfold taken State.TakesPacket State.SendsAtOnce State.Awake; decide +kernel

theorem witness_TargetPerformsRequests_atomics :
    ∀ cas : Bool, let p := packetOf (if cas then 5 else 4) 0 []
      taken (paired 1) p (if cas then 5 else 4) ∧ (paired 1).targetReason p 0 8 false = none ∧
        (paired 1).localPlace 0 (offOf p.addr.toNat) = .mem 0x40 ∧ ((paired 1).readBytes 0x40 8).tag = .good ∧
        (paired 1).deadAt 0x40 = none ∧ (paired 1).shutCore none 0x40 = none ∧ 0x40 ∉ (paired 1).qpEntry 16383 := by
  unfold taken State.TakesPacket State.SendsAtOnce State.Awake; decide +kernel

theorem witness_TargetPerformsRequests_messages :
    taken channeled ctrlPacket 6 ∧ lengthBad ctrlPacket = false ∧ ctrlFormOk ctrlPacket = true ∧
    channeled.ctrlChan ctrlPacket = some 15 ∧ fld ctrlPacket.opa 0 7 ≠ 0 ∧ channeled.mbFull 15 (fld ctrlPacket.addr 0 6) = false := by
  unfold taken State.TakesPacket State.SendsAtOnce State.Awake; decide +kernel

/-- Queue LDM of core 95 as the owner of requests, for its entry in flight. -/
def ldmOwner : Owner := .instr 95 .ldm 5
/-- A request of `o` outstanding with PSN 7, for one unit of device 1. -/
def asking (o : Owner) (op : BitVec 8) : Req := { newReq o op (fabAddr 1 0x40) with psn := 7, nunits := 1 }
/-- `paired 1` with that request and `more` outstanding, and an entry of queue LDM of core 95 in flight with the work given. -/
def waitingFor (o : Owner) (op : BitVec 8) (more : List Req) (wk : Work) : State :=
  let s := (paired 1).setQp 16383 { outstanding := asking o op :: more }
  s.setQueue 95 .ldm { mode := .running, inflight := [flying .ldq wk] }
/-- An answer with PSN 7. -/
def answerOf (op st n : BitVec 8) (us : List SoxUnit) : Packet := { packetOf op n us with psn := 7, status := st }
/-- A job that fetches units. -/
def someJob : Job :=
  { op := .ldq, w := frameOf 0, ctx := 0, descs := [], idx := [], record := 0, rung := 0, seed := 0, oset := [], step := 0, units := [] }
def answersFound (s : State) (p : Packet) (r : Req) : Prop :=
  s.TakesPacket 7 p ∧ s.SendsAtOnce p.qp ∧ s.NoneQueued ∧ (s.qp p.qp).outstanding.find? (·.psn == p.psn) = some r

theorem witness_RequesterTakesAnswers_gather :
    let s := waitingFor ldmOwner 1 [{ asking ldmOwner 1 with psn := 8 }] (.gather someJob)
    let p := answerOf 0x41 0 1 [soxUnit (zeros 64) true]
    let u := (s.atPort 7 p).notify p
    answersFound s p (asking ldmOwner 1) ∧ p.op = 0x41 ∧ lengthBad p = false ∧ p.status = 0 ∧
      p.nunits.toNat = (asking ldmOwner 1).nunits ∧ (u.retired 16383 7).owes ldmOwner = true ∧
      s.flight 95 .ldm 5 = some (flying .ldq (.gather someJob)) := by
  unfold answersFound State.TakesPacket State.SendsAtOnce State.NoneQueued State.Awake; decide +kernel

theorem witness_RequesterTakesAnswers_write :
    (let s := waitingFor ldmOwner 2 [] .acks
     answersFound s (answerOf 0x42 0 0 []) (asking ldmOwner 2) ∧ (s.qp 16383).outstanding = [asking ldmOwner 2] ∧
       ackable (asking ldmOwner 2) = true ∧ s.flight 95 .ldm 5 = some (flying .ldq .acks)) ∧
    (let s := waitingFor ldmOwner 4 [] (.atomic 0x3FFFF8)
     answersFound s (answerOf 0x44 0 0 []) (asking ldmOwner 4) ∧ 0x3FFFF8 % 8 = 0 ∧
       s.flight 95 .ldm 5 = some (flying .ldq (.atomic 0x3FFFF8)) ∧ s.deadAt (chamPa 95 0x3FFFF8) = none) := by
  unfold answersFound State.TakesPacket State.SendsAtOnce State.NoneQueued State.Awake; decide +kernel

theorem witness_RequesterTakesAnswers_refusals :
    (∀ n ∈ [0x4D, 0x4E], answersFound (waitingFor ldmOwner 2 [] .acks) (answerOf (BitVec.ofNat 8 n) 0 0 []) (asking ldmOwner 2)) ∧
    (asking ldmOwner 2).tries < (waitingFor ldmOwner 2 [] .acks).qpFld 16383 0 50 3 ∧
    (let s := waitingFor (.kerb 0) 2 [] .acks
     answersFound s (answerOf 0x4F 2 0 []) (asking (.kerb 0) 2) ∧ refusalCode 2 = some Code.FAB_REFUSED) ∧
    (let s := (waitingFor ldmOwner 2 [] .acks).setReg (quayK 7 0x48) 0x200000000
     answersFound s (answerOf 0x4F 1 0 []) (asking ldmOwner 2) ∧ (asking ldmOwner 2).refusals + 1 < s.epochTries (s.qpQuay 16383)) := by
  unfold answersFound State.TakesPacket State.SendsAtOnce State.NoneQueued State.Awake; decide +kernel

/-- `paired st` with one request of the kerb monitor outstanding after `tries` tries, and the queue pair waiting from it or not. -/
def holding (st tries : Nat) (h : Bool) : State :=
  (paired st).setQp 16383 { outstanding := [{ asking (.kerb 0) 2 with tries := tries }], holdOff := h, resume := some 7 }

theorem witness_QueuePairsMove :
    (((holding 1 0 true).qp 16383).holdOff = true ∧ (holding 1 0 true).qpState 16383 = 1 ∧ ((holding 1 0 true).qp 16383).resume = some 7 ∧
      ((holding 1 0 true).qp 16383).outstanding = [] ++ [asking (.kerb 0) 2] ∧ (holding 1 0 true).NoneQueued) ∧
    (∀ n ∈ [2, 3], ((holding 1 n false).qp 16383).outstanding = [{ asking (.kerb 0) 2 with tries := n }] ∧
      (holding 1 n false).qpState 16383 = 1 ∧ ((holding 1 n false).qp 16383).holdOff = false ∧ (holding 1 n false).qpFld 16383 0 50 3 = 3 ∧
      (holding 1 n false).NoneQueued ∧ (holding 1 n false).canSend 16383 = true ∧
      (((holding 1 n false).setReg (quayK 7 0x30) 0xF000).setPause 7 0 true).canSend 16383 = false) ∧
    ((paired 0).qpState 16383 = 0 ∧ (paired 0).qpFld 16383 0 54 2 ≠ 3 ∧ (paired 2).qpState 16383 = 2) ∧
    (paired 0).qpPlace 16383 0 = .mem 0x10FFC0 ∧ (paired 0).deadAt 0x10FFC0 = none ∧
    (paired 1).qpState 16383 ≠ 0 ∧ (paired 1).qpState 16383 ≠ 2 := by
  unfold State.NoneQueued; decide +kernel

/-- `up` with PFC enabled for every class of quay 7, a watchdog, and class `c` paused or not. -/
def pausing (c : Nat) (x : Bool) : State :=
  let s := (paired 1).setReg (quayK 7 0x30) 0x000100000000F000
  if x then s.setPause 7 c true else s

theorem witness_QuaysPaceAndPause :
    (∀ x : Bool, (pausing 3 x).NoneQueued ∧ (pausing 3 x).linkUp 7 = true ∧ (pausing 3 x).qpState 16383 = 1 ∧
      (pausing 3 x).regBit (quayK 7 0x30) 15 = true ∧ (pausing 3 x).storm 7 3 = false) ∧
    (pausing 3 true).classPaused 7 3 = true ∧ (pausing 3 true).regFld (quayK 7 0x30) 48 16 ≠ 0 := by
  unfold State.NoneQueued; decide +kernel

/-- A WRITE that the queue pair has taken before (R361), and a packet of its class that waits already. -/
def writtenBefore : Packet := { packetOf 2 1 [soxUnit (zeros 64) true] with psn := 4 }
def crowded : State := (paired 1).setRx 7 0 { waiting := [{ kind := 2, pkt := writtenBefore, spill := none }] }

theorem witness_QuaysPaceAndPause_waiting :
    (let s := pausing 0 true
     let u := (s.atPort 7 writtenBefore).notify writtenBefore
     s.NoneQueued ∧ s.TakesPacket 7 writtenBefore ∧ lengthBad writtenBefore = false ∧ u.order writtenBefore = .duplicate ∧
       u.headReason writtenBefore 2 = none ∧ u.canSend 16383 = false) ∧
    (let u := crowded.atPort 7 writtenBefore
     crowded.NoneQueued ∧ crowded.linkUp 7 = true ∧ u.rxClassOf 7 writtenBefore = 0 ∧ (u.rxOf 7 0).waiting ≠ [] ∧
       u.rxFull 7 0 (rxBytes writtenBefore) = false ∧ u.spillsNow 7 0 = false ∧ u.pfcOn 7 0 = false) := by
  unfold State.NoneQueued State.TakesPacket State.Awake; decide +kernel

theorem witness_QuayLinksComeAndGo :
    up.regBit (quayK 7 0) 3 = false ∧ (paired 1).regBit (quayK 7 0) 3 = true ∧ fld (4 : W64) 0 3 < 5 ∧ 5 ≤ fld (5 : W64) 0 3 ∧
    bitAt (1 : W64) 3 = false ∧ (up.setReg (quayK 7 0) 9).NoneQueued ∧ (up.setReg (quayK 7 0) 9).regBit (quayK 7 0) 3 = true ∧
    (up.setReg (quayK 7 0) 9).regFld (quayK 7 0) 0 3 ≠ 0 ∧ (up.setReg (quayK 7 0) 9).linkUp 7 = false ∧ (paired 1).linkUp 7 = true := by
  unfold State.NoneQueued; decide +kernel

/-! Witnesses: contexts, epochs, reports, units -/

/-- `up` with context 15's staged copy naming cluster 15 as its virtual cluster 0, and its active copy naming granule 5 (R380). -/
def binding : State :=
  (up.setReg (stageK 15 0) 0x800000000000000F).setReg (bindK 15 0x800) 0x8000000000000005
/-- The re-bind of context 15 that `binding` stages: it releases granule 5, and `binding` has byte 0x140000000 set. -/
def releasing (p : RbPhase) : State :=
  { binding with rebind := some { binding.rebindPlan 0x8000 with phase := p }, mem := [(0x140000000, 7)] }
/-- A re-bind that releases cluster 15 from context 15, with an instruction of its core 95 in flight or none. -/
def unbinding (p : RbPhase) (fl : List InFlight) : State :=
  let s := up.setReg (bindK 15 0) 0x800000000000000F
  let s := s.setQueue 95 .vec { mode := .running, inflight := fl }
  { s with rebind := some { s.rebindPlan 0x8000 with phase := p } }

theorem witness_RebindStarts :
    { binding with rebind := some (binding.rebindPlan 0) }.rebindCheck 0x8000 = some Code.BIND_BUSY ∧
    binding.rebindCheck 0x8000 = none ∧ (binding.rebindPlan 0x8000).qps = [] ∧ (binding.rebindPlan 0x8000).grans = [5] ∧
    (let s := up.setReg (bindK 15 0) 0x800000000000000F
     s.rebindCheck 0x8000 = none ∧ (s.rebindPlan 0x8000).qps = [] ∧ (s.rebindPlan 0x8000).lost = [15] ∧
       (s.rebindPlan 0x8000).clusters = [15]) := by decide +kernel

theorem witness_RebindEnds :
    (∃ r, (unbinding .drain [flying .sld .done]).rebind = some r ∧ r.phase = .drain ∧
      (unbinding .drain [flying .sld .done]).inflightOn (clusterCores r.clusters) ≠ 0) ∧
    (∃ r, (unbinding .drain []).rebind = some r ∧ r.phase = .drain ∧ (unbinding .drain []).drained r = true ∧
      (unbinding .drain []).inflightOn (clusterCores r.clusters) = 0 ∧ (unbinding .drain []).compute = none ∧
      ((unbinding .drain []).scrubbed r).clusters = [15] ∧ r.mask.getLsbD 15 = true ∧ r.clusters = [15] ∧ (unbinding .drain []).cluOf 15 0 = some 15 ∧
      ((unbinding .drain []).setReg (gateK 15) 0x80008000).gate 15 ≠ 0) ∧
    (∃ r, (releasing .scrub).rebind = some r ∧ r.phase = .scrub ∧ (releasing .scrub).testOwed r = false ∧
      (releasing .scrub).compute = none ∧ (∀ g ∈ ((releasing .scrub).scrubbed r).clusters, (releasing .scrub).gate g = 0) ∧
      ((releasing .scrub).scrubbed r).grans = [5] ∧ (releasing .scrub).scrubFails 5 = none ∧
      (releasing .scrub).regBit (stkK (5 / 64) 0) 0 = false ∧ memByte (releasing .scrub).mem (5 * 0x40000000) = 7) ∧
    ({ releasing .scrub with compute := some (2, 0) } : State).compute.isSome = true := by
  refine ⟨⟨_, rfl, ?_⟩, ⟨_, rfl, ?_⟩, ⟨_, rfl, ?_⟩, rfl⟩ <;> decide +kernel

theorem witness_EpochsAdvance :
    sectOk ((up.setReg (cfgK 0) 0xFFFF00FE).regFld (cfgK 0) 0 16) = true ∧ sectOk ((up.setReg (cfgK 0) 0x100).regFld (cfgK 0) 0 16) = false ∧
    up.compute = none ∧ up.computeWait = false ∧ up.rebind = none ∧ up.advanceWait = 0 ∧ up.Awake ∧ up.formed = none ∧
    ({ up with compute := some (2, 0) } : State).compute = some (2, 0) ∧ ({ up with advanceWait := 2 } : State).advanceWait = 2 ∧
    (releasing .drain).rebind.isSome = true ∧
    (releasing .drain).compute = none ∧ (releasing .drain).computeWait = false ∧
    (∀ qy : Fin 8, up.regBit (quayK qy 0) 3 = false) ∧ (up.setReg (quayK 7 0) 8).regBit (quayK 7 0) 3 = true := by
  unfold State.Awake; decide +kernel

/-- A record of the pin throttle in the ring. -/
def pinRecord (q : BitVec 32) : Record :=
  { seq := q, code := Code.PWR_PIN_THROTTLE, kind := 0x0A, verdict := 0, time := 0, source := srcOf 0xC 0, context := 0xFF, queue := 0xFF,
    pc := 0, optag := 0, count := 1, step := 0, addr := 0, detail := 0, epoch := 0 }
/-- A device in reset with `n` records in the ring, none to be sent, and `lost` lost since. -/
def ringed (n lost : Nat) : State := { State.reset with throtN := true, ring := List.replicate n (pinRecord 1), lostSince := lost }

theorem witness_ReportsMergeOrFollow :
    ({ ringed 1 0 with unsent := [1] } : State).mergeWith 0x0A Code.PWR_PIN_THROTTLE (srcOf 0xC 0) = some (pinRecord 1) ∧
    (∀ p ∈ [(4096, 0), (4095, 3), (4095, 0), (4094, 3)],
      (ringed p.1 p.2).mergeWith 0x0A Code.PWR_PIN_THROTTLE (srcOf 0xC 0) = none ∧ (ringed p.1 p.2).throtN = true ∧
        (ringed p.1 p.2).ring.length = p.1 ∧ (ringed p.1 p.2).lostSince = p.2 ∧ (ringed p.1 p.2).portUp = false) := by decide +kernel

/-- `up` with a test of a unit queued on die 1, or running there; AUTODIS on. -/
def testing (u : W16) (run : Bool) : State :=
  let x : Test := { source := u, code := Code.MEM_POISON_READ, addr := 0x40 }
  (up.setReg (dieK 1 0x350000) 0x4000000000000000).setDie 1
    { up.die 1 with tests := if run then [] else [x], running := if run then some x else none }

theorem witness_SelfTestsRun :
    (((testing 0x605F false).die 1).running = none ∧ ((testing 0x605F false).die 1).tests.length = 1 ∧
      (testing 0x605F false).unitOff 0x605F = false ∧ (testing 0x605F false).asleep 0x605F = none ∧
      ((testing 0x605F false).setReg (gateK 15) 0x80008000).asleep 0x605F = some 15 ∧ ({ testing 0x605F false with disabled := [0x605F] } : State).unitOff 0x605F = true) ∧
    (((testing 0x605F true).die 1).running.isSome = true ∧ srcType 0x605F ≠ 8 ∧ (testing 0x605F true).autoDis 0x605F = true) ∧
    ((testing 0x82FF true).die 1).running.isSome = true ∧ srcType 0x82FF = 8 ∧
    ((up.setStack 11 { up.stack 11 with repair := [(63, 0xB000000040)] }).stack 11).repair = [(63, 0xB000000040)] := by decide +kernel

theorem witness_UnitsAreDisabled :
    canDisable 0x605F = true ∧ up.unitOff 0x605F = false ∧ up.disabling.contains 0x605F = false ∧ canDisable 0x6060 = false ∧
    canDisable 0x900B = true ∧ canDisable 0x900C = false ∧ coresOf 0x605F = [95] ∧
    ({ up with disabling := [0x605F] } : State).disabling.contains 0x605F = true ∧
    (∀ q ∈ allQueues, ({ up with disabling := [0x605F] } : State).queue 95 q = {}) ∧ (({} : QState).lineWait = none) := by decide +kernel

/-! Witnesses: resets, clocks, supply, temperatures, boot -/

theorem witness_ResetsRecordTheirKind :
    (fld (0xA5C3000000000001 : W64) 48 16 = 0xA5C3 ∧ fld (0xA5C3000000000001 : W64) 0 2 = 1) ∧
    (fld (0xA5C2000000000001 : W64) 48 16 ≠ 0xA5C3 ∧ fld (0xA5C3000000000003 : W64) 0 2 ≠ 1) ∧
    up.domHung 0 2 = false ∧ (up.setReg (dieK 0 0x360000) 0x4000000000000004).domHung 0 2 = true ∧ up.released = true ∧
    (up.setReg (pkgK 0x118) 1).regFld (pkgK 0x118) 0 16 ≠ 0 ∧ up.regFld (pkgK 0x118) 0 16 = 0 ∧ up.refStarted = true ∧
    State.reset.refStarted = false ∧ State.reset.released = false ∧ State.reset.boot = .refWait ∧ State.reset.thermtrip = [] ∧
    up.boot ≠ .refWait ∧ up.cycleNow.released = true ∧ State.reset.cycleNow.released = false ∧ up.cycleNow.started = true ∧
    State.reset.cycleNow.started = false := by decide +kernel

/-- `up` with CLK_STAT of die 1 at `v`: LOCK bit 63, SRC bits 2 to 0 (R433). -/
def clocked (v : W64) : State := up.setReg (clkK 1 0) v

theorem witness_ClocksSwitch :
    (bitAt 0xC000000000000000 63 = true ∧ fld 0xC000000000000000 0 3 ≠ (clocked 0x8000000000000007).srcSel 1 ∧ (clocked 0x8000000000000007).regBit (clkK 1 0) 62 = false ∧
        ((clocked 0x8000000000000007).die 1).switch = none ∧ (clocked 0x8000000000000007).locked 1 = true) ∧
    (bitAt 0x8000000000000000 63 = true ∧ fld 0x8000000000000000 0 3 ≠ (clocked 0x8000000000000007).srcSel 1 ∧ (clocked 0x8000000000000007).regBit (clkK 1 0) 62 = false ∧
        ((clocked 0x8000000000000007).die 1).switch = none ∧ (clocked 0x8000000000000007).locked 1 = true) ∧
    ((clocked 7).locked 1 = false ∧ 0 &&& (7 - (clocked 7).srcSel 1) = 0 ∧ 0 ≠ (clocked 7).srcSel 1) ∧
    ((clocked 0).locked 1 = false ∧ fld (0x8000000000000007 : W64) 0 3 &&& (7 - (clocked 0).srcSel 1) ≠ 0) ∧
    ((up.startSwitch 1 7).die 1).switch = some 7 ∧ up.boot ≠ .pll ∧ up.refStarted = true ∧
    ({ clocked 0 with boot := .pll } : State).boot = .pll ∧
    (clocked 0x8000000000000007).srcSel 1 ≠ 0 ∧ (clocked 0x8000000000000007).regBit (clkK 1 8) 62 = false ∧
    (((clocked 0x8000000000000007).setDie 1 { dip := some 600 }).die 1).dip.isSome = true := by decide +kernel

/-- `up` with die 1 in the clock and supply state `k`, and the voltage loop on. -/
def supplied (k : DieSt) : State := (up.setReg (clkK 1 0x10) 0x800002BC00000000).setDie 1 k

theorem witness_SupplyDips :
    up.released = true ∧ State.reset.released = false ∧ State.reset.cycle = none ∧ up.cycle = none ∧ 500 < 501 ∧ 501 ≤ up.warnLevel 1 ∧ (∃ mv, 500 < mv ∧ up.warnLevel 1 < mv) ∧
    (let s := supplied { dip := some 600, clear := true }
     (s.die 1).dip = some 600 ∧ (s.die 1).clear = true) ∧
    (let s := supplied { dip := some 600, above := false }
     (s.die 1).dip.isSome = true ∧ (s.die 1).above = false ∧ (s.die 1).dipReq = false) ∧
    (let s := supplied { dipReq := true }
     (s.die 1).dipReq = true ∧ (s.die 1).above = true) ∧
    (∀ n ∈ [1, 2], (supplied { avsFails := n }).regBit (clkK 1 0x10) 63 = true ∧ ((supplied { avsFails := n }).die 1).avsFails = n) := by
  refine ⟨by decide, by decide, by decide, by decide, by decide, by decide +kernel, ⟨2000, by decide +kernel⟩, by decide +kernel, by decide +kernel, by decide +kernel, by decide +kernel⟩

theorem witness_TemperaturesThrottle :
    (0x68 : BitVec 8).toNat < up.trip 1 ∧ up.trip 1 ≤ (0x7D : BitVec 8).toNat ∧ up.thermtrip.contains 1 = false ∧
    ({ up with thermtrip := [1] } : State).thermtrip.contains 1 = true ∧ ({ up with throtN := false } : State).throtN = false ∧ up.cycle = none := by
  decide +kernel

theorem witness_BootVerifiesAndScrubs :
    ({ up with boot := .rom } : State).boot = .rom ∧ ({ up with boot := .rom, mgmt := { slotBroken := true } } : State).mgmt.slotBroken = true ∧
    up.mgmt.slotBroken = false ∧ ({ up with boot := .firmware } : State).boot = .firmware ∧ up.domHung 0 2 = false ∧ up.disabled = [] ∧
    ({ up with boot := .scrub } : State).boot = .scrub ∧ (0x3FFFFFC0 < stackEnd ∧ 0x3FFFFFC0 % 0x1000000000 < 0x40000000) ∧
    ¬(0x40000000 < stackEnd ∧ 0x40000000 % 0x1000000000 < 0x40000000) ∧ (∀ a ∈ [0x40000000], a / 64 ≠ 0x3FFFFFC0 / 64) := by decide +kernel

/-- The firmware stage with `f` in the flash. -/
def firmware (f : Tbl Byte) : State := { up with boot := .firmware, mgmt := { flash := f } }

theorem witness_BootVerifiesAndScrubs_flash :
    newestTab (firmware (tabWrite [] { hours := 5, disabled := [0x605F] })).mgmt.flash =
        some (0, 1, { hours := 5, disabled := [0x605F] }) ∧
      newestEntry (firmware (flashPut [] journalBase (entryBytes 0 1024))).mgmt.flash = some (0, 1024) :=
  ⟨by decide +kernel, newestEntry_first 0 1024 (by decide) (by decide)⟩

/-! Witnesses: memories, links, echo units -/

/-- A unit of ones. -/
def ones : UnitData := BitVec.ofNat 512 (2 ^ 512 - 1)
/-- `up` with patrols of stack 11 on, and byte `pa` set to 0x5A. -/
def patrolled (pa : Nat) : State := { up.setReg (stkK 11 0x18) 1 with mem := [(pa, 0x5A)] }

theorem witness_MemoriesAnswer :
    (let s := patrolled 0xBFFFFFFFFF
     s.stackAnswers 0xBFFFFFFFFF = true ∧ s.scrubbing 0xBFFFFFFFFF = false ∧ s.regFld (stkK 11 0x18) 0 16 ≠ 0 ∧
       s.tagAt 0xBFFFFFFFFF ≠ .mismatch ∧ dataPa 0xBFFFFFFFFF = true ∧ s.deadAt 0xBFFFFFFFFF = none) ∧
    (tget (up.setStack 11 { writebacks := [0xBFFFFFFFC0] }).bases (0xBFFFFFFFFF / 0x1000000000)).isSome = true ∧
    (let pa := chamPa 95 0x3FFFFF
     dataPa pa = true ∧ stackEnd ≤ pa ∧ up.deadAt pa = none ∧ up.tagAt pa ≠ .mismatch) := by decide +kernel

/-- `up` with stack 11 as `k` says. -/
def stacked (k : StackSt) : State := up.setStack 11 k

theorem witness_LinksRetrainAndFail :
    up.linkFailed 11 = false ∧
    (∀ n ∈ [6, 7], tgetD ((stacked { flits := [(5, n)] }).stack 11).flits 5 0 = n ∧
      ((stacked { flits := [(5, n)] }).stack 11).linkTraining = false) ∧
    ((stacked { linkTraining := true }).stack 11).linkTraining = true ∧
    up.chFailed 11 31 = false ∧ up.chTraining 11 31 = false ∧ up.retries 11 = 4 ∧
    (tgetD ((stacked { chTries := [(31, 3)] }).stack 11).chTries 31 0 = 3 ∧
      tgetD ((stacked { chTries := [(31, 4)] }).stack 11).chTries 31 0 = 4 ∧
      ((stacked { chTries := [(31, 4)] }).stack 11).chSecond.contains 31 = false ∧
      ((stacked { chTries := [(31, 4)], chSecond := [31] }).stack 11).chSecond.contains 31 = true) ∧
    (up.setReg (chK 11 31) 0x4000000000000000).chTraining 11 31 = true ∧ ({ up with boot := .firmware } : State).boot = .firmware := by decide +kernel

/-- An echo run of stack 11, channel 31, in its first pseudo-channel: `m` the mode, GO. -/
def echoCmd (m : Nat) : W64 := BitVec.ofNat 64 (2 ^ 63 + m * 2 ^ 35 + 2 ^ 33 + 2 ^ 31)
/-- `up` with stack 11 offline or not, and an echo run of one unit under way or none. -/
def echoing (off : Bool) (run : Option Nat) : State :=
  let s := if off then up.setReg (stkK 11 0) 0x41 else up
  match run with
  | some m => (s.setReg (echoK 11 31 0) 0x4000000000000000).setStack 11 { echo := [(31, (echoCmd m, 0x400000000))] }
  | none => s

theorem witness_StacksEchoAndGoOffline :
    bitAt (0x50 : W64) 0 = false ∧ bitAt (0x51 : W64) 0 = true ∧ up.offlineRefused 11 = false ∧
    ((up.setReg (bindK 15 0x800) 0x80000000000002C0).offlineRefused 11 = true ∧
      (up.setReg (bindK 15 0x800) 0x80000000000002C0).regBit (stkK 11 0) 0 = false) ∧
    (∀ p ∈ [(false, 1), (true, 2), (true, 3)], bitAt (echoCmd p.2) 63 = true ∧ (echoing p.1 none).regBit (echoK 11 31 0) 62 = false ∧
      1 ≤ fld (echoCmd p.2) 35 3 ∧ fld (echoCmd p.2) 35 3 ≤ 3 ∧
      (fld (echoCmd p.2) 35 3 = 1 ∨ (echoing p.1 none).regBit (stkK 11 0) 0 = true)) ∧
    (4 ≤ fld (echoCmd 4) 35 3 ∧ 2 ≤ fld (echoCmd 2) 35 3 ∧ (echoing false none).regBit (stkK 11 0) 0 = false) ∧
    (∀ m ∈ [1, 2], tget ((echoing true (some m)).stack 11).echo 31 = some (echoCmd m, 0x400000000)) ∧ fld (echoCmd 1) 35 3 ≠ 2 := by
  decide +kernel

/-! Witnesses: control space, management, signing -/

/-- The header of an image of security version 64. -/
def runs64 : Config.ImageHeader :=
  { magic := 0, length := 0, keyslot := 0, key := [], svn := 64, version := 0, signature := [], head := [], payload := [] }

theorem witness_RegistersReadAndWrite :
    up.access 0 (BitVec.ofNat 64 (0x8000000000000000 + pipeK 0 8)) 8 = .at_ (.die 0) (pipeK 0 8 - dieK 0 0) ∧
    (pipeK 0 8 - dieK 0 0) / 0x10000 = 0x31 ∧ (rowOf (.die 0) (pipeK 0 8 - dieK 0 0)).isSome = true ∧
    up.access 0 0x8000000000000004 8 = .invalid ∧ up.access 15 (BitVec.ofNat 64 (0x8000000000000000 + quayK 7 8)) 8 = .outside ∧
    ({ up with disabled := [0x700F] } : State).access 0 (BitVec.ofNat 64 (0x8000000000000000 + cluK 15 0x2000)) 8 = .quiet ∧
    (∀ p ∈ [(stkK 11 0x18, Blk.stk 11, 0x18), (quayK 7 8, Blk.quay 7, 8)],
      up.access 0 (BitVec.ofNat 64 (0x8000000000000000 + p.1)) 8 = .at_ p.2.1 p.2.2 ∧ p.2.1.key p.2.2 = p.1 ∧
        ∃ r, rowOf p.2.1 p.2.2 = some r ∧ (r.rw ≠ 0 ∨ r.w1c ≠ 0)) ∧
    bitAt (0x8000000000000000 : W64) 63 = true ∧
    ({ up with mgmt := { image := some runs64 } } : State).mgmt.image = some runs64 ∧ up.fuses.svn ≤ 64 ∧ runs64.svn ≤ 64 := by
  refine ⟨by decide +kernel, by decide +kernel, by decide +kernel, by decide +kernel, by decide +kernel, by decide +kernel, ?_,
    by decide +kernel, by decide +kernel, by decide +kernel, by decide +kernel⟩
  simp only [List.forall_mem_cons]
  exact ⟨⟨by decide +kernel, by decide +kernel, _, rfl, by decide +kernel⟩,
    ⟨by decide +kernel, by decide +kernel, _, rfl, by decide +kernel⟩, by simp⟩

/-- `up` under management key 7 with SEQ 1 taken, at address 9, and a datagram with SEQ 2 from address 8 whose MAC is right for a command
and payload. -/
def keyed : State := { up.setReg (mgtK 0x60) 9 with mgmt := { up.mgmt with key := some 7, lastSeq := some 1 } }
def plain : Datagram := { src := { addr := 8, port := 5 }, dst := { addr := keyed.addrAt (mgtK 0x58), port := 0x12B9 }, seq := 2, mac := 0 }
def sealed (cmd : BitVec 8) (pay : List Byte) : Datagram := { plain with mac := macOf 7 cmd 2 pay }
/-- The datagram is accepted under the key, whatever its command and payload; one whose SEQ has been taken is not. -/
theorem sealed_accepted (cmd : BitVec 8) (pay : List Byte) (need : Bool) : keyed.accepts (sealed cmd pay) cmd pay need = true := by
  simp [State.accepts, keyed, sealed, plain, macOf, macBytes]
theorem stale_refused (mac : BitVec 128) (cmd : BitVec 8) (pay : List Byte) (need : Bool) :
    keyed.accepts { plain with seq := 1, mac := mac } cmd pay need = false := by
  simp [State.accepts, keyed]

/-- A register address of quay 7. -/
def quayAddr (o : Nat) : W64 := BitVec.ofNat 64 (0x8000000000000000 + quayK 7 o)

theorem witness_DatagramsAct :
    (∀ pay ∈ [beBytes 8 (quayAddr 0x30).toNat ++ beBytes 8 1, beBytes 8 4 ++ beBytes 8 1, beBytes 8 (quayAddr 0x30).toNat, [],
      beBytes 4 1 ++ beBytes 2 15, beBytes 4 1], ∀ n ∈ [1, 2, 3, 4, 5], keyed.heard (sealed (BitVec.ofNat 8 n) pay) pay = true) ∧
    keyed.access 0 (quayAddr 0x30) 8 = .at_ (.quay 7) 0x30 ∧ ((rowOf (.quay 7) 0x30).map fun r => decide (r.rw ≠ 0)) = some true ∧
    keyed.access 0 4 8 = .invalid ∧ keyed.mgmtBusy = false ∧ keyed.access 0 (quayAddr 0x30) 8 ≠ .outside ∧ 1 ≤ (15 : BitVec 16).toNat ∧ (15 : BitVec 16).toNat ≤ 15 ∧
    (let s := { keyed with mgmt := { keyed.mgmt with writing := some (plain, []) } }
     s.mgmtBusy = true ∧ s.mgmt.writing.isSome = true ∧ s.heard (sealed 3 []) [] = true) := by decide +kernel

theorem witness_ImagesAreStagedAndCommitted :
    (let pay := beBytes 4 (imageBytes - 2) ++ [1, 2]
     keyed.heard (sealed 6 pay) pay = true ∧ (keyed.boot != .recovery) = true ∧ (BitVec.ofNat 32 (imageBytes - 2)).toNat + 2 ≤ imageBytes) ∧
    (let s := { up.setReg (mgtK 0x60) 9 with boot := .recovery }
     s.mgmtBusy = false ∧ s.heard plain [] = true ∧ s.accepts plain 0x07 [] false = true ∧ s.boot = .recovery) ∧
    keyed.heard (sealed 8 []) [] = true ∧ keyed.mgmtBusy = false ∧ reservedCmd 0x7F = true ∧ keyed.heard (sealed 0x7F []) [] = true := by
  decide +kernel

theorem witness_AttestationAnswers :
    up.i3cUp = true ∧ up.mgmtBusy = false ∧ ({ up with mgmt := { session := true } } : State).mgmt.session = true ∧ up.mgmt.session = false ∧
    1 ≤ (6 : BitVec 8).toNat ∧ (6 : BitVec 8).toNat ≤ 6 ∧ 6 < (7 : BitVec 8).toNat ∧ (7 : BitVec 8).toNat < 0xFF ∧
    1 ≤ (20 : BitVec 16).toNat ∧ (20 : BitVec 16).toNat ≤ 20 := by decide +kernel

/-- `up` with a management state. -/
def managed (m : Mgmt) : State := { up with mgmt := m }

theorem witness_SigningMovesOn :
    (managed {}).tableLoaded = true ∧ (managed {}).mgmtBusy = false ∧ (managed {}).domHung 0 2 = false ∧
    (managed {}).mgmt.exhausted = false ∧
    (managed { next := 1023, limit := 1024 }).mgmt.next / 2 ^ 20 < (managed { next := 1023, limit := 1024 }).mgmt.trees ∧
    (managed { next := 1023, limit := 1024 }).mgmt.next < (managed { next := 1023, limit := 1024 }).mgmt.limit ∧
    (managed { next := 1024, limit := 1024 }).mgmt.limit ≤ (managed { next := 1024, limit := 1024 }).mgmt.next ∧
    (let m : Mgmt := { next := 1024, limit := 1024, waiting := some 5 }
     (managed m).mgmt.waiting = some 5 ∧ (managed m).tableLoaded = true ∧ (managed m).mgmt.requests = [] ∧
       (managed m).mgmt.next / 2 ^ 20 < (managed m).mgmt.trees) ∧ (managed {}).mgmt.busy = true ∧
    (let m : Mgmt := { writing := some (plain, [(0, 1)]) }
     (managed m).mgmt.writing = some (plain, [(0, 1)]) ∧ (managed m).mgmt.resetWaits = false ∧ (managed m).mgmt.requests = []) ∧
    (managed {}).mgmt.writing = none := by decide +kernel

/-! Terms that no command is: WellFormed refuses each (by check of WellFormed.lean) -/

theorem test_ill_formed_refused :
    (([ .mdrn 0 .mqf {} { rows := [256] }, .mdrn 0 .mqf {} { cols := [256] }, .mdrn 0 .mqf {} { shadow := [(0, 256)] },
       .vop 0 .vec {} [{ vector := 0, stage := 8, lane := 0 }], .vop 0 .vec {} [{ vector := 0, stage := 0, lane := 512 }],
       .updComplete 0 16, .commitFlip 0 (some 4096), .windowWrite 0 0 [], .semValueWrite 0 4 0, .rebindScrubEnd [63], .bootScrubEnd [1],
       .registerWrite 0 0 3 0, .registerRead 0 0 16, .stageChunk plain 0 (zeros 1017),
       .mgmtCmdReserved plain 8 [], .mgmtCmdReserved plain 9 (zeros 1025), .stackRead 0xC000000000 .clean 0,
       .correctedWriteback 1, .maskedWrite 0x30001800000 0 0 0, .patrolScrub 0xC000000000 .clean 0, .sramPatrol 0xBFFFFFFFC0 ⟨.clean, true⟩ 0,
       .read 0 { qp := 16384, psn := 0, pkey := 0, op := 1 }, .ack 0 { qp := 0, psn := 0, pkey := 0, op := 1 },
       .write 0 { qp := 0, psn := 0, pkey := 0, op := 2, units := List.replicate 62 { data := 0, tag := 0 } },
       .congestionNotification 0 16384 ] : List Instr).all fun i => !i.wf) = true := by decide +kernel

/-! Instruction words written out from R242 and the program of chapter 10 -/

theorem test_words :
    decode 0x0401000000000000E000000000000000 = some (.smov, { f0 := true, ops := 0xE000000000000000 }) ∧
    decode 0x20100B00000000000400840000000000 = some (.mma, { qclass := 1, optag := 0x0B00, ops := 0x0400840000000000 }) ∧
    decode 0x02000000000000000414000000000010 = some (.loop, { ops := 0x0414000000000010 }) ∧
    decode 0x20190B01000000000400840000000400 =
      some (.mma, { qclass := 1, f3 := true, f0 := true, optag := 0x0B01, ops := 0x0400840000000400 }) ∧
    decode 0x0601000000000000EE00000000000100 = some (.sadd, { f0 := true, ops := 0xEE00000000000100 }) ∧
    decode 0x21100B0200001006400000000000C000 = some (.mdrn, { qclass := 1, optag := 0x0B02, sinc := 1, ssem := 6, ops := 0x400000000000C000 }) ∧
    decode 0x01000000000000000000000000000000 = some (.end_, {}) := by decide +kernel

/-- One word of each other class, and a wait: WCOND 9, WSEM 0x0AB, SINC 2, SSEM 0x801; the codes between the map's rows are reserved. -/
theorem test_classes_and_reserved :
    decode 0x3034123490AB28010000000000000001 =
      some (.vop, { qclass := 3, f2 := true, optag := 0x1234, wcond := 9, wsem := 0x0AB, sinc := 2, ssem := 0x801, ops := 1 }) ∧
    (decode 0x40320000000000000000000000000000).map (·.1) = some .ldq ∧ (decode 0x52400000000000000000000000000000).map (·.1) = some .atom ∧
    (decode 0x60500000000000000000000000000000).map (·.1) = some .upd ∧ (decode 0x63500000000000000000000000000000).map (·.1) = some .snap ∧
    ([0x0E, 0x0F, 0x13, 0x17, 0x1C, 0x1F, 0x22, 0x2F, 0x32, 0x3F, 0x42, 0x4F, 0x53, 0x5F, 0x64, 0xFF].all fun n =>
      (opOf (BitVec.ofNat 8 n)).isNone) = true := by decide +kernel

/-- The bytes of the MDRN of that program in instruction memory. -/
theorem test_word_bytes :
    leBytes 16 0x21100B0200001006400000000000C000 =
      [0x00, 0xC0, 0x00, 0x00, 0x00, 0x00, 0x00, 0x40, 0x06, 0x10, 0x00, 0x00, 0x02, 0x0B, 0x10, 0x21] := by decide +kernel

/-! Worked examples of the manual -/

/-- Chapter 1: virtual granule 149 of context 3 on physical granule 419; a peer's name of the same bytes; an unbound granule. -/
theorem test_worked_decode :
    let s := up.setReg (bindK 3 (0x800 + 8 * 149)) 0x80000000000001A3
    s.place 3 0x0000002540001280 = .mem 0x0068C0001280 ∧ s.place 3 0x0000002580000000 = .miss ∧ s.place 3 0x000000C000000000 = .bad ∧
      coreK 70 0x1000 = 0x20460000 + 0x1000 := by decide +kernel

/-- Chapter 13: the pseudo-channel and the place in it of that address. -/
theorem test_pseudo_channel : pchOf 0x0068C0001280 = 42 ∧ yOf 0x0068C0001280 = 0x23000080 := by decide +kernel

/-- Chapter 2: FP32 to E4M3 and E5M2 under RNE, six inputs; BF16 under RNE, RTZ and SR; a tie that round to odd keeps from being one. -/
theorem test_conversions :
    ([0x43800000, 0x43E80000, 0x3B400000, 0x3A800000, 0x7F800000, 0x80000000].map fun x =>
      ((Fmt.e4m3.conv .rne 0 (v32 x)).bits, (Fmt.e5m2.conv .rne 0 (v32 x)).bits)) =
      [(0x78, 0x5C), (0x7E, 0x5F), (0x02, 0x1A), (0x00, 0x14), (0x7F, 0x7C), (0x00, 0x00)] ∧
    (Fmt.bf16.conv .rne 0 (v32 0x3F808000)).bits = 0x3F80 ∧ (Fmt.bf16.conv .rne 0 (v32 0x3F818000)).bits = 0x3F82 ∧
    (Fmt.bf16.conv .rtz 0 (v32 0x3F808000)).bits = 0x3F80 ∧ (Fmt.bf16.conv .sr 0x7FFF (v32 0x3F808000)).bits = 0x3F80 ∧
    (Fmt.bf16.conv .sr 0x8000 (v32 0x3F808000)).bits = 0x3F81 ∧
    (Fmt.e4m3.conv .rne 0 (wide (.fin (2 ^ 45 + 2 ^ 41 + 1) (-45)))).bits = 0x39 := by decide +kernel

/-- Chapter 3: 6.5/6 and 14/6 upward to E8M3, and 14/6 upward to E8M0. -/
theorem test_scales :
    (Fmt.e8m3.conv .rne 0 (finDiv 13 (-1) 6 0)).bits = 0x3F9 ∧ (Fmt.e8m3.conv .rne 0 (finDiv 14 0 6 0)).bits = 0x402 ∧
    (Fmt.e8m0.conv .rne 0 (finDiv 14 0 6 0)).bits = 0x81 := by decide +kernel

/-- Chapter 7: curve 5 at its five steps. -/
theorem test_curve :
    [250, 999, 1000, 3000, 6000].map (fun t => f32 (curveAt t [(0, 0), (1000, 0x3F800000), (1000, 0x3F000000), (5000, 0x3DCCCCCD)])) =
      [0x3E800000, 0x3F7FBE77, 0x3F000000, 0x3E99999A, 0x3DCCCCCD] := by decide +kernel

/-- Chapter 18: signing resumes in the fused window, or past it where the flash was rolled back. Chapter 17: 68 mV below Vset is bucket 6. -/
theorem test_signing_and_dips :
    lmsBoot 3 (some 0x212345800) = ⟨0x212345800, 3, false, false⟩ ∧ lmsBoot 3 (some 0x1FFFFFC00) = ⟨0x300000000, 4, true, false⟩ ∧
    vminBucket 680 612 = 6 := by decide +kernel

/-- FIPS 180-4: the digest of "abc". -/
theorem test_sha256 :
    beNat (sha256 [0x61, 0x62, 0x63]) = 0xBA7816BF8F01CFEA414140DE5DAE2223B00361A396177A9CB410FF61F20015AD := by decide +kernel

/-! Effects with values worked out by hand -/

/-- The value that an instruction on s14 and s13 leaves in s15 of queue MQF of core 0. -/
def scalarOf (o : Op) (i : Instr) (a b : W64) (w : InstrWord) : W64 :=
  (after (exec i (headed ((up.setSreg 0 .mqf 14 a).setSreg 0 .mqf 13 b) 0 .mqf o w))).sreg 0 .mqf 15

/-- R253: sums and products wrap at 2^64, a difference borrows, shifts take their count modulo 64, immediates extend their sign. -/
theorem test_scalars :
    scalarOf .sadd (.sadd 0 .mqf regForm) 0xFFFFFFFFFFFFFFFF 2 regForm = 1 ∧
    scalarOf .ssub (.ssub 0 .mqf regForm) 1 2 regForm = 0xFFFFFFFFFFFFFFFF ∧
    scalarOf .smul (.smul 0 .mqf regForm) 0x8000000000000001 3 regForm = 0x8000000000000003 ∧
    scalarOf .sshl (.sshl 0 .mqf regForm) 3 65 regForm = 6 ∧ scalarOf .sshr (.sshr 0 .mqf regForm) 0x8000000000000000 64 regForm = 0x8000000000000000 ∧
    scalarOf .sadd (.sadd 0 .mqf immForm) 5 0 immForm = 4 := by decide +kernel

/-- Chapter 3's worked row: the rotation of block 0 under seed 0x2C59, in FP32 patterns, and the codes under the scale 1.125. -/
theorem test_worked_row :
    let xs := [0x3F80, 0x4000, 0xBF80, 0, 0x4040, 0x3F80, 0, 0x4000, 0x4160, 0xC000, 0x3F80, 0x3F80, 0, 0xBF80, 0x4000, 0x3F80].map Fmt.bf16.value
    let ys := rotBlock 0x2C59 4 0 xs
    ys.map f32 = [0x40600000, 0x3FC00000, 0x40200000, 0x40200000, 0x3FC00000, 0x40900000, 0x40B00000, 0x40900000,
      0xC0600000, 0xC0D00000, 0xC0600000, 0xC0900000, 0xBFC00000, 0xC0600000, 0xC0200000, 0xC0900000] ∧
    ys.map (fun y => match y with
      | .fin m e => (Fmt.e2m1.conv .rne 0 (wide (finDiv m e 9 (-3)))).bits
      | _ => 16) = [5, 3, 4, 4, 3, 6, 6, 6, 0xD, 0xF, 0xD, 0xE, 0xB, 0xD, 0xC, 0xE] ∧
    packNat 4 [5, 3, 4, 4, 3, 6, 6, 6, 0xD, 0xF, 0xD, 0xE, 0xB, 0xD, 0xC, 0xE] = 0xECDBEDFD66634435 := by decide +kernel

/-- R458: of the causes that meet in one reference cycle the first in its order is recorded, whichever came first; after a count of the clock a
further cause is one of its own. -/
theorem test_causes_meet :
    let pin := after (exec .pinReset up)
    ((after (exec .supplyReset pin)).rstLast, (after (exec .pinReset (after (exec .supplyReset up)))).rstLast,
      (after (exec .supplyReset pin)).rstSeen, (after (exec .supplyReset (after (step pin)))).rstLast) = (1, 1, 2, 3) := by decide +kernel

end Sys2Proof.Tests
end

/-! SUPPORT. What a report may change (R393, R396), and the two statements of chapter 0: what only context 0 commands, and the accesses of
the control space (R9 to R11, R34 to R36, R444). -/

namespace Sys2Proof.Machine

section Reports

variable {s t u : State} {ctx : Nat} {ks : List Nat}

theorem State.Reported.refl (s : State) (ctx : Nat) (ks : List Nat) : s.Reported s ctx ks := ⟨rfl, fun _ _ => rfl⟩

theorem State.Reported.trans (h : s.Reported t ctx ks) (h' : t.Reported u ctx ks) : s.Reported u ctx ks := by
  obtain ⟨hst, rst⟩ := h
  obtain ⟨htu, rtu⟩ := h'
  refine ⟨?_, fun k hk => (rtu k hk).trans (rst k hk)⟩
  rw [hst] at htu
  exact htu

/-- A change of registers that count reports is one that a report may make. -/
theorem State.OnlyRegs.reported {js : List Nat} (h : s.OnlyRegs t js) (hs : ∀ k ∈ js, k ∈ ks ++ reportKeys ctx) :
    s.Reported t ctx ks := by
  obtain ⟨hst, rst⟩ := h
  refine ⟨?_, fun k hk => rst k fun hj => hk (hs k hj)⟩
  rw [hst]

theorem State.OnlyRegs.tx (h : s.OnlyRegs t ks) : t.tx = s.tx := by rw [h.1]

/-- What changes registers only and then sends differs in its registers and in what has left the block. -/
theorem State.OnlyRegs.send (h : s.OnlyRegs t ks) (x : Tx) :
    t.send x = { s with regs := (t.send x).regs, tx := (t.send x).tx } := by
  rw [h.1]; rfl

theorem State.sendFirst_reported (l : List (BitVec 32)) (s : State) (ctx : Nat) : s.Reported (s.sendFirst l) ctx [] := by
  induction l generalizing s with
  | nil => exact ⟨rfl, fun _ _ => rfl⟩
  | cons q l ih =>
    unfold State.sendFirst
    split
    · exact ih s
    · split
      · exact ⟨rfl, fun _ _ => rfl⟩
      · exact State.Reported.trans ⟨rfl, fun _ _ => rfl⟩ (ih _)

theorem State.sendDue_reported (s : State) (ctx : Nat) : s.Reported s.sendDue ctx [] := by
  unfold State.sendDue
  split
  · exact s.sendFirst_reported _ ctx
  · exact .refl s ctx []

/-- A record about context `ctx`, or about none, moves ERR_RPT and at most that context's count of records (R407, R408). -/
theorem State.pushRecord_reported (s : State) (kind : Nat) (code source : W16) (i : RepInfo)
    (hctx : i.context < 16 → i.context = ctx) : s.Reported (s.pushRecord kind code source i) ctx [] := by
  have held : ∀ (ring : List Record) (unsent : List (BitVec 32)) (n : Nat),
      s.Reported (({ s with ring := ring, unsent := unsent } : State).setFld (dieK 0 0x350010) 32 32 n) ctx [] := fun ring unsent n =>
    State.Reported.trans (t := { s with ring := ring, unsent := unsent }) ⟨rfl, fun _ _ => rfl⟩
      ((State.setFld_only _ _ _ _ _).reported (by simp [reportKeys]))
  unfold State.pushRecord
  dsimp only
  split
  · next h => exact (held _ _ _).trans ((State.count_only _ _ _).reported (by simp [reportKeys, hctx h]))
  · exact held _ _ _

/-- A report changes the report ring, what is sent, and the registers that count reports: nothing else (R393, R396). -/
theorem State.report_reported (s : State) (kind : Nat) (code source : W16) (i : RepInfo) :
    s.Reported (s.report kind code source i) i.context [] := by
  unfold State.report
  split
  · exact ⟨rfl, fun _ _ => rfl⟩
  · by_cases full : 4096 ≤ s.ring.length + if s.lostSince = 0 then 0 else 1
    · rw [if_pos full]
      exact ((s.countSat_only _ _ _ _).reported (by simp [reportKeys])).trans ⟨rfl, fun _ _ => rfl⟩
    · rw [if_neg full]
      have lost : s.Reported (if s.lostSince = 0 then s
          else { s.pushRecord 0x09 0 0xC000 { count := s.lostSince } with lostSince := 0 }) i.context [] := by
        split
        · exact .refl s _ []
        · exact (s.pushRecord_reported _ _ _ _ (by simp)).trans ⟨rfl, fun _ _ => rfl⟩
      exact lost.trans ((State.pushRecord_reported _ _ _ _ _ fun _ => rfl).trans (State.sendDue_reported _ _))

theorem State.violation_reported (s : State) (ctx : Nat) (addr : W64) : s.Reported (s.violation ctx addr) ctx [] :=
  s.report_reported 0x05 0x6002 0 { context := ctx, addr := addr }

end Reports

section RootCommands

variable {s : State} {ctx : Fin 16}

/-- A command of context 0's that another context gives is logged, whatever it would do (R11). -/
theorem State.asRoot_reported (h : ctx.val ≠ 0) (k : Nat) (f : State → State) :
    ∃ t, (.next (s.asRoot ctx k f) : Host.Outcome State Fault Refusal) = .next t ∧ s.Reported t ctx [] :=
  ⟨_, rfl, by rw [State.asRoot, if_neg h]; exact s.violation_reported ctx _⟩

/-- XRD_FORCE is such a command too (R307). -/
theorem execXrdForce_reported (h : ctx.val ≠ 0) (l : Fin 32) : ∃ t, execXrdForce ctx l s = .next t ∧ s.Reported t ctx [] :=
  ⟨_, if_neg h, s.violation_reported ctx _⟩

end RootCommands

section Accesses

variable {s : State} {ctx : Fin 16} {addr v : W64} {width o : Nat} {b : Blk} {r : RegRow}

/-- An access that is not invalid has 8 bytes and is aligned to them (R35). -/
theorem State.access_aligned (h : s.access ctx addr width ≠ .invalid) : width = 8 ∧ addr.toNat % 8 = 0 := by
  by_contra hn
  refine h (if_pos ?_)
  simp only [Bool.or_eq_true, decide_eq_true_eq]
  omega

/-- What a read does that is not invalid: the access, and the answer with the value found (R9, R11, R36). -/
theorem execRegisterRead_aligned (h : s.access ctx addr width ≠ .invalid) :
    exec (.registerRead ctx addr width) s =
      .next ((s.accessed ctx addr (s.access ctx addr width) s.readClear).send
        (.value ctx addr (s.accessValue ctx (s.access ctx addr width)))) := by
  obtain ⟨hw, ha⟩ := State.access_aligned h
  refine if_neg ?_
  simp [hw, ha]

/-- Only the registers of the pipeline banks are brought up to date before they are read (R173). -/
theorem State.shown_of_not_pipe (h : ∀ d, b = .die d → o / 0x10000 ≠ 0x31) : s.shown b o = s := by
  cases b with
  | die d => exact if_neg (h d rfl)
  | _ => rfl

theorem State.shown_pipe {d : Nat} (ho : o / 0x10000 = 0x31) :
    s.shown (.die d) o = s.showStalls (o % 0x10000 / 0x100) := if_pos ho

theorem State.readClear_of_row_none (h : rowOf b o = none) : s.readClear b o = s := by
  simp only [State.readClear, h]

/-- A read clears the read-clear bits of the register read, and no more (R9). -/
theorem State.readClear_only (h : rowOf b o = some r) : (s.shown b o).OnlyRegs (s.readClear b o) [homeKey b o] := by
  simp only [State.readClear, h]
  split
  · exact .refl _ _
  · exact State.setReg_only _ _ _

theorem State.reg_readClear (h : rowOf b o = some r) :
    (s.readClear b o).reg (homeKey b o) = (s.shown b o).reg (homeKey b o) &&& ~~~r.rc := by
  simp only [State.readClear, h]
  split
  · next h0 => rw [h0, show ~~~(0 : W64) = BitVec.allOnes 64 from rfl, BitVec.and_allOnes]
  · exact State.reg_setReg_self _ _ _

/-- What a read leaves that reaches a register: its value is the answer, and its read-clear bits are cleared. -/
theorem execRegisterRead_of_row (ha : s.access ctx addr width = .at_ b o) (hr : rowOf b o = some r) :
    ∃ t, exec (.registerRead ctx addr width) s = .next t ∧ t.tx = .value ctx addr (s.regValue ctx b o) :: (s.shown b o).tx ∧
      t = { s.shown b o with regs := t.regs, tx := t.tx } ∧ (s.shown b o).RegsBut t [homeKey b o] ∧
      t.reg (homeKey b o) = (s.shown b o).reg (homeKey b o) &&& ~~~r.rc := by
  have cleared : (s.shown b o).OnlyRegs (s.readClear b o) [homeKey b o] := State.readClear_only hr
  refine ⟨_, execRegisterRead_aligned (by simp [ha]), ?_⟩
  rw [ha]
  exact ⟨congrArg (List.cons _) cleared.tx, cleared.send _, cleared.2, State.reg_readClear hr⟩

/-- What a read leaves that reaches an offset without a register: the answer alone (log 13). -/
theorem execRegisterRead_of_row_none (ha : s.access ctx addr width = .at_ b o) (hr : rowOf b o = none) :
    ∃ t, exec (.registerRead ctx addr width) s = .next t ∧ t.tx = .value ctx addr (s.regValue ctx b o) :: s.tx ∧
      t = { s with regs := t.regs, tx := t.tx } ∧ s.RegsBut t [homeKey b o] := by
  refine ⟨_, execRegisterRead_aligned (by simp [ha]), ?_⟩
  rw [ha, State.accessed, State.readClear_of_row_none hr]
  exact ⟨rfl, rfl, fun _ _ => rfl⟩

/-- A register of a pipeline bank reads as it is held, once brought up to date (R173, R177). -/
theorem State.regValue_pipe {d : Nat} (ho : o / 0x10000 = 0x31) (hr : rowOf (.die d) o = some r) :
    s.regValue ctx (.die d) o = (s.shown (.die d) o).reg (dieK d o) := by
  have notTest : ¬ (0x350000 ≤ o ∧ o < 0x360000) := by omega
  have notThrottle : o ≠ 0x360028 := by omega
  have notKerb : ¬ (0x300000 ≤ o ∧ o < 0x310000) := by omega
  simp [State.regValue, hr, Blk.key, State.dieValue, notTest, notThrottle, notKerb]

/-- The registers that a pipeline bank shows are held at their own offset: ERR_RPT alone has one home for both dies (R408). -/
theorem homeKey_pipe {d : Nat} (ho : o / 0x10000 = 0x31) : homeKey (.die d) o = dieK d o :=
  if_neg (by omega)

/-- A write to a register without behaviour of its own changes its read-write and write-1-to-clear bits (R9, R10). -/
theorem State.plainWrite_of_row (hr : rowOf b o = some r) (hw : r.rw ≠ 0 ∨ r.w1c ≠ 0) :
    s.plainWrite b o v = s.setReg (homeKey b o) (r.written (s.reg (homeKey b o)) v) := by
  simp only [State.plainWrite, hr]
  exact if_neg (by simpa [← not_and_or] using hw)

/-- The registers of stacks and quays without behaviour of their own are all but STK_CTRL, the echo units' and QUAY_CTRL (R343, R374). -/
theorem State.regWrite_plain
    (hb : (∃ st, b = .stk st ∧ 0x10 ≤ o ∧ ¬(0x1000 ≤ o ∧ o < 0x1400)) ∨ (∃ qy, b = .quay qy ∧ o ≠ 0)) :
    s.regWrite ctx b o v = s.plainWrite b o v ∧ homeKey b o = b.key o := by
  obtain ⟨st, rfl, hlo, hecho⟩ | ⟨qy, rfl, ho⟩ := hb
  · have h0 : o ≠ 0 := by omega
    exact ⟨by simp [State.regWrite, State.stkWrite, h0, hecho], rfl⟩
  · exact ⟨if_neg ho, rfl⟩

/-- Where an access leads decides what its write does. -/
theorem execRegisterWrite_of_access {a : Access} (ha : s.access ctx addr width = a) :
    exec (.registerWrite ctx addr width v) s = .next (s.accessed ctx addr a fun b o => s.regWrite ctx b o v) := by
  rw [← ha]; rfl

/-- SVN_RAISE burns fuses up to the running image's version, and none beyond the 64 (R444). -/
theorem execSvnRaise_root {h : Config.ImageHeader} (hv : bitAt v 63 = true) (hi : s.mgmt.image = some h) :
    exec (.svnRaise 0 v) s = .next { s with fuses := { s.fuses with svn := min 64 (max s.fuses.svn h.svn) } } := by
  have raised : s.raiseSvn = { s with fuses := { s.fuses with svn := min 64 (max s.fuses.svn h.svn) } } := by
    simp only [State.raiseSvn, hi]
  rw [← raised]
  exact congrArg Host.Outcome.next (if_pos hv)

end Accesses

/-- Settles O41: sixteen of the commands go through `State.asRoot`, which logs another context's, and XRD_FORCE asks the same of its own. -/
theorem onlyContextZeroCommands : Obligations.OnlyContextZeroCommands := by
  intro ctx v d qy st ch l mask src s hctx i hi
  simp only [List.mem_cons, List.not_mem_nil, or_false] at hi
  rcases hi with rfl | rfl | rfl | rfl | rfl | rfl | rfl | rfl | rfl | rfl | rfl | rfl | rfl | rfl | rfl | rfl | rfl
  on_goal 17 => exact execXrdForce_reported hctx l
  all_goals exact State.asRoot_reported hctx _ _

/-- Settles O56, clause by clause: where the access leads decides what a write and a read do, and a read of a pipeline bank is one of the
state in which the bank has been brought up to date. -/
theorem registersReadAndWrite : Obligations.RegistersReadAndWrite := by
  intro ctx addr v width s
  refine ⟨fun invalid => ?_, fun outside => ?_, fun quiet => ?_, fun b o r ha hr hw hb => ?_, fun b o ha hb => ?_,
    fun d o r ha ho hr => ?_, fun h hv hi hs hh => ?_⟩
  · exact execRegisterWrite_of_access invalid
  · refine ⟨execRegisterWrite_of_access outside, s.violation_reported ctx addr, ?_⟩
    rw [execRegisterRead_aligned (by simp [outside]), outside]
    rfl
  · exact execRegisterWrite_of_access quiet
  · obtain ⟨plain, home⟩ := State.regWrite_plain (s := s) (ctx := ctx) (v := v) hb
    rw [State.plainWrite_of_row hr hw, home] at plain
    refine ⟨_, execRegisterWrite_of_access ha, ?_⟩
    rw [State.accessed, plain]
    exact ⟨s.setReg_only _ _, s.reg_setReg_self _ _⟩
  · cases hr : rowOf b o with
    | none =>
      obtain ⟨t, ht, tx, frame, regs⟩ := execRegisterRead_of_row_none ha hr
      exact ⟨t, ht, tx, frame, regs, fun _ h => nomatch h⟩
    | some r =>
      obtain ⟨t, ht, tx, frame, regs, cleared⟩ := execRegisterRead_of_row ha hr
      rw [State.shown_of_not_pipe hb] at tx frame regs cleared
      exact ⟨t, ht, tx, frame, regs, fun _ h => Option.some.inj h ▸ cleared⟩
  · have read := execRegisterRead_of_row ha hr
    rwa [State.regValue_pipe ho hr, homeKey_pipe ho, State.shown_pipe ho] at read
  · have svn : min 64 (max s.fuses.svn h.svn) = max s.fuses.svn h.svn := Nat.min_eq_right (max_le hs hh)
    exact ⟨_, execSvnRaise_root hv hi, rfl, by rw [svn]⟩

end Sys2Proof.Machine


/-! SUPPORT. Canonical memories are determined by what they read (R23, R331). -/

namespace Sys2Proof.Machine

section Canonical

variable {lo : Nat} {m n : List Host.Cell}

theorem Memory.wfFrom_cons {a : Nat} {b : Byte} :
    Memory.wfFrom lo ((a, b) :: m) = true ↔ lo ≤ a ∧ b ≠ 0 ∧ Memory.wfFrom (a + 1) m = true := by
  simp [Memory.wfFrom, and_assoc]

theorem memByte_cons_same (a : Nat) (b : Byte) : memByte ((a, b) :: m) a = b := by
  simp [memByte, tgetD, tget]

theorem memByte_cons_ne {a x : Nat} {b : Byte} (h : a ≠ x) : memByte ((a, b) :: m) x = memByte m x := by
  simp [memByte, tgetD, tget, h]

/-- Below the first address that a canonical memory may list, it reads 0. -/
theorem memByte_below {x : Nat} (h : Memory.wfFrom lo m = true) (hx : x < lo) : memByte m x = 0 := by
  have none : tget m x = none := tget_none m x fun p hp => by
    have := Memory.wfFrom_ge h p hp
    omega
  simp [memByte, tgetD, none]

/-- A canonical memory whose first cell lies before all that another may list reads that cell's byte, not the other's 0. -/
theorem memByte_ne_of_first_lt {a : Nat} {b : Byte} (hm : Memory.wfFrom lo ((a, b) :: m) = true)
    (hn : Memory.wfFrom (a + 1) n = true) : memByte ((a, b) :: m) a ≠ memByte n a := by
  obtain ⟨-, hb, -⟩ := Memory.wfFrom_cons.mp hm
  rwa [memByte_cons_same, memByte_below hn a.lt_succ_self]

/-- After equal first cells, memories that read alike have tails that read alike: neither tail lists that first address. -/
theorem memByte_tail_eq {a : Nat} {b : Byte} (hm : Memory.wfFrom (a + 1) m = true) (hn : Memory.wfFrom (a + 1) n = true)
    (h : ∀ x, memByte ((a, b) :: m) x = memByte ((a, b) :: n) x) (x : Nat) : memByte m x = memByte n x := by
  by_cases hx : a = x
  · rw [memByte_below hm (by omega), memByte_below hn (by omega)]
  · have at_x := h x
    rwa [memByte_cons_ne hx, memByte_cons_ne hx] at at_x

/-- Canonical memories that read alike are equal: their first cells cannot differ in address or in byte. -/
theorem Memory.wfFrom_ext (hm : Memory.wfFrom lo m = true) (hn : Memory.wfFrom lo n = true) (h : ∀ x, memByte m x = memByte n x) :
    m = n := by
  induction m generalizing lo n with
  | nil =>
    cases n with
    | nil => rfl
    | cons p n => exact absurd (h p.1).symm (memByte_ne_of_first_lt hn rfl)
  | cons p m ih =>
    obtain ⟨a, b⟩ := p
    cases n with
    | nil => exact absurd (h a) (memByte_ne_of_first_lt hm rfl)
    | cons r n =>
      obtain ⟨a', b'⟩ := r
      obtain ⟨-, hb, hm'⟩ := Memory.wfFrom_cons.mp hm
      obtain ⟨-, hb', hn'⟩ := Memory.wfFrom_cons.mp hn
      rcases Nat.lt_trichotomy a a' with lt | rfl | lt
      · exact absurd (h a) (memByte_ne_of_first_lt hm (Memory.wfFrom_cons.mpr ⟨lt, hb', hn'⟩))
      · obtain rfl : b = b' := by simpa only [memByte_cons_same] using h a
        rw [ih hm' hn' (memByte_tail_eq hm' hn' h)]
      · exact absurd (h a').symm (memByte_ne_of_first_lt hn (Memory.wfFrom_cons.mpr ⟨lt, hb, hm'⟩))

end Canonical

/-- Settles O5: two canonical lists are compared cell by cell; a write's bytes are read back by `memByte_memWrite_in` and
`memByte_memWrite_out`. -/
theorem memoryCanonical : Obligations.MemoryCanonical :=
  ⟨fun _ _ => Memory.wfFrom_ext, fun m a bs i h => memByte_memWrite_in m a i bs h, fun m a bs x => memByte_memWrite_out m a x bs⟩

end Sys2Proof.Machine

/-! SUPPORT. Every function of the model that answers a state keeps the memories in canonical form (R23, R331): one lemma per function, each
from those of the functions it calls. Only a write of bytes, a removal of a range and a reset touch the memories themselves; the lemma
named after a function says that it keeps `State.MemOk`. -/

namespace Sys2Proof.Machine

section MemOk

/-- What an instruction's chapter leaves, if it leaves a state, has its memories in canonical form. -/
def Verdict.MemOk : Verdict → Prop
  | .stay _ t => t.MemOk
  | .issue i => i.st.MemOk
  | _ => True

/-- The next state, if the outcome is one, has its memories in canonical form. -/
def NextMemOk (o : Host.Outcome State Fault Refusal) : Prop := ∀ t, o = .next t → t.MemOk

variable {s t : State} {α β : Type}

/-! The shapes that functions of the model are put together in: a change of other fields, a choice, a sequence, a loop, an outcome. -/

/-- A change of other fields than the memories. -/
theorem State.MemOk.congr {a b : State} (h : a.MemOk) (e : b.mem = a.mem) : b.MemOk := by
  rwa [State.MemOk, e]
/-- What follows a state `a` is kept by what leads to `a`: for a `let` whose state the rest of a function uses more than once. -/
theorem State.MemOk.via {a b : State} (hb : a.MemOk → b.MemOk) (ha : a.MemOk) : b.MemOk := hb ha
theorem Verdict.MemOk.via {a : State} {v : Verdict} (hb : a.MemOk → v.MemOk) (ha : a.MemOk) : v.MemOk := hb ha
theorem NextMemOk.via {a : State} {o} (hb : a.MemOk → NextMemOk o) (ha : a.MemOk) : NextMemOk o := hb ha
theorem State.MemOk.ite {c : Prop} {_ : Decidable c} {a b : State} (ha : a.MemOk) (hb : b.MemOk) :
    (if c then a else b).MemOk := by
  split <;> assumption
theorem State.MemOk.iteSt {c : Prop} {_ : Decidable c} {a b : Issued} (ha : a.st.MemOk) (hb : b.st.MemOk) :
    (if c then a else b).st.MemOk := by
  split <;> assumption
theorem State.MemOk.iteFst {c : Prop} {_ : Decidable c} {a b : State × α} (ha : a.1.MemOk) (hb : b.1.MemOk) :
    (if c then a else b).1.MemOk := by
  split <;> assumption
theorem Verdict.MemOk.ite {c : Prop} {_ : Decidable c} {a b : Verdict} (ha : a.MemOk) (hb : b.MemOk) :
    (if c then a else b).MemOk := by
  split <;> assumption
theorem NextMemOk.ite {c : Prop} {_ : Decidable c} {a b} (ha : NextMemOk a) (hb : NextMemOk b) :
    NextMemOk (if c then a else b) := by
  split <;> assumption
theorem State.MemOk.of_fst {p : State × α} {a : α} (h : p.1.MemOk) (e : p = (t, a)) : t.MemOk := by
  rwa [e] at h
theorem Verdict.MemOk.issue {i : Issued} (h : i.st.MemOk) : (Verdict.issue i).MemOk := h
theorem Verdict.MemOk.stay {c : WCause} (h : s.MemOk) : (Verdict.stay c s).MemOk := h
theorem NextMemOk.next (h : s.MemOk) : NextMemOk (.next s) := by
  rintro _ ⟨⟩
  exact h
theorem State.MemOk.foldl {f : State → α → State} {l : List α} (h : s.MemOk) (hf : ∀ t a, t.MemOk → (f t a).MemOk) :
    (l.foldl f s).MemOk := by
  induction l generalizing s with
  | nil => exact h
  | cons a l ih => exact ih (hf s a h)
theorem State.MemOk.foldlFst {f : State × β → α → State × β} {p : State × β} {l : List α} (h : p.1.MemOk)
    (hf : ∀ p a, p.1.MemOk → (f p a).1.MemOk) : (l.foldl f p).1.MemOk := by
  induction l generalizing p with
  | nil => exact h
  | cons a l ih => exact ih (hf p a h)

/-! The functions of Machine/Memory -/

theorem State.MemOk.setReg {k v} (h : s.MemOk) : (s.setReg k v).MemOk := .congr h rfl
theorem State.MemOk.clearReg {k} (h : s.MemOk) : (s.clearReg k).MemOk := .congr h rfl
theorem State.MemOk.setFld {k lo len x} (h : s.MemOk) : (s.setFld k lo len x).MemOk := .setReg h
theorem State.MemOk.setBit {k n b} (h : s.MemOk) : (s.setBit k n b).MemOk := .setReg h
theorem State.MemOk.count {k n} (h : s.MemOk) : (s.count k n).MemOk := .ite h (.setReg h)
theorem State.MemOk.countSat {k lo len n} (h : s.MemOk) : (s.countSat k lo len n).MemOk := .setFld h
theorem State.MemOk.first {k v} (h : s.MemOk) : (s.first k v).MemOk := .ite h (.setReg h)
theorem State.MemOk.writeUnitX {pa bs x} (h : s.MemOk) : (s.writeUnitX pa bs x).MemOk := by
  unfold State.writeUnitX
  split
  exacts [.count h, h, memWrite_wf _ _ h]
theorem State.MemOk.writeUnit {pa bs poison} (h : s.MemOk) : (s.writeUnit pa bs poison).MemOk := .writeUnitX h
theorem State.MemOk.writePart {pa bs poison} (h : s.MemOk) : (s.writePart pa bs poison).MemOk := .ite (.writeUnit h) (.writeUnit h)
theorem State.MemOk.writeBytesN {pa bs n} (h : s.MemOk) : (s.writeBytesN pa bs n).MemOk := by
  induction n generalizing s pa bs with
  | zero => exact h
  | succ n ih => exact .ite h (ih (.writePart h))
theorem State.MemOk.writeBytes {pa bs} (h : s.MemOk) : (s.writeBytes pa bs).MemOk := .writeBytesN h

/-! The functions of Machine/Ops -/

theorem State.MemOk.setQueue {c q x} (h : s.MemOk) : (s.setQueue c q x).MemOk := .congr h rfl
theorem State.MemOk.setSreg {c q i v} (h : s.MemOk) : (s.setSreg c q i v).MemOk := .setReg h
theorem State.MemOk.sendFirst {l} (h : s.MemOk) : (s.sendFirst l).MemOk := by
  induction l generalizing s with
  | nil => exact h
  | cons q l ih =>
    unfold State.sendFirst
    split
    exacts [ih h, .ite h (ih h)]
theorem State.MemOk.sendDue (h : s.MemOk) : s.sendDue.MemOk := .ite (.sendFirst h) h
theorem State.MemOk.pushRecord {kind code source i} (h : s.MemOk) : (s.pushRecord kind code source i).MemOk :=
  .via (fun h1 => .ite (.count h1) h1) (.setFld (.congr h rfl))
theorem State.MemOk.report {kind code source i} (h : s.MemOk) : (s.report kind code source i).MemOk := by
  unfold State.report
  split
  exacts [.congr h rfl, .ite (.congr h rfl) (.sendDue (.pushRecord (.ite h (.congr (.pushRecord h) rfl))))]
theorem State.MemOk.setDie {d x} (h : s.MemOk) : (s.setDie d x).MemOk := .congr h rfl
theorem State.MemOk.setStack {st x} (h : s.MemOk) : (s.setStack st x).MemOk := .congr h rfl
theorem State.MemOk.verdict {u v addr} (h : s.MemOk) : (s.verdict u v addr).MemOk := .report h
theorem State.MemOk.keepVerdict {u} (h : s.MemOk) : (s.keepVerdict u).MemOk := .congr h rfl
theorem State.MemOk.trigger {u code addr} (h : s.MemOk) : (s.trigger u code addr).MemOk :=
  .ite (.verdict h) (.ite h (.ite (.verdict (.keepVerdict h)) (.ite (.verdict (.keepVerdict (.countSat h))) (.setDie h))))
theorem State.MemOk.poisoned {ctx} (h : s.MemOk) : (s.poisoned ctx).MemOk := .ite h (.setFld (.setBit h))
theorem State.MemOk.wrotePoison {c n} (h : s.MemOk) : (s.wrotePoison c n).MemOk := .ite h (.poisoned (.count h))
theorem State.MemOk.memErr {c q kind pc optag addr} (h : s.MemOk) : (s.memErr c q kind pc optag addr).MemOk :=
  .ite h (.setReg (.setReg h))
theorem State.MemOk.stopQueues {c qs} (h : s.MemOk) : (s.stopQueues c qs).MemOk := .foldl h fun _ _ => .setQueue
theorem State.MemOk.startQueues {c qs} (h : s.MemOk) : (s.startQueues c qs).MemOk := .foldl h fun _ _ => .setQueue
theorem State.MemOk.stopCore {c} (h : s.MemOk) : (s.stopCore c).MemOk := .stopQueues h
theorem State.MemOk.enterFault {c q det code optag pc addr unit} (h : s.MemOk) : (s.enterFault c q det code optag pc addr unit).MemOk :=
  .via (fun h1 => .report (.ite (.stopQueues h1) h1)) (.first (.setQueue h))
theorem State.MemOk.event {c q code optag pc} (h : s.MemOk) : (s.event c q code optag pc).MemOk := .setReg h
theorem State.MemOk.events {c q codes optag pc} (h : s.MemOk) : (s.events c q codes optag pc).MemOk := .foldl h fun _ _ => .event
theorem State.MemOk.send {t} (h : s.MemOk) : (s.send t).MemOk := .congr h rfl
theorem State.MemOk.draw (h : s.MemOk) : s.draw.MemOk := .congr h rfl
theorem State.MemOk.violation {ctx addr} (h : s.MemOk) : (s.violation ctx addr).MemOk := .report h
theorem State.MemOk.missed {ctx addr} (h : s.MemOk) : (s.missed ctx addr).MemOk := .report h
theorem State.MemOk.setBuf {c i b} (h : s.MemOk) : (s.setBuf c i b).MemOk := .congr h rfl
theorem State.MemOk.setKerb {ctx k} (h : s.MemOk) : (s.setKerb ctx k).MemOk := .congr h rfl
theorem State.MemOk.setQp {n x} (h : s.MemOk) : (s.setQp n x).MemOk := .congr h rfl
theorem State.MemOk.setRx {qy cls x} (h : s.MemOk) : (s.setRx qy cls x).MemOk := .congr h rfl
theorem State.MemOk.toRun {g} (h : s.MemOk) : (s.toRun g).MemOk := .setFld (.setFld h)
theorem State.MemOk.wakeFor {pa} (h : s.MemOk) : (s.wakeFor pa).MemOk := .ite h (.toRun h)
theorem State.MemOk.wakeAll {ctx as} (h : s.MemOk) : (s.wakeAll ctx as).MemOk := by
  unfold State.wakeAll
  split
  · exact h
  · exact .foldl h fun _ _ h1 => by split; exacts [.wakeFor h1, h1]
theorem State.MemOk.rouse {gs} (h : s.MemOk) : (s.rouse gs).MemOk := .foldl h fun _ _ h1 => .ite h1 (.congr h1 rfl)
theorem State.MemOk.unlessGated {t} (h : s.MemOk) (ht : t.MemOk) : (s.unlessGated t).MemOk := .ite ht (.rouse h)
theorem State.MemOk.touchedAt {ctx as} (h : s.MemOk) : (s.touchedAt ctx as).MemOk := by
  unfold State.touchedAt
  dsimp only
  split
  exacts [.missed (.wakeAll h), .send (.wakeAll h), .wakeAll h]
theorem State.MemOk.touched {ctx addr n} (h : s.MemOk) : (s.touched ctx addr n).MemOk := .touchedAt h
theorem State.MemOk.touchedAll {ctx rs} (h : s.MemOk) : (s.touchedAll ctx rs).MemOk := .touchedAt h
theorem State.MemOk.through {own pa f} (h : s.MemOk) (hf : ∀ t, t.MemOk → (f t).MemOk) : (s.through own pa f).MemOk := by
  unfold State.through
  split
  exacts [.count h, hf _ h]
theorem State.MemOk.tableWriteN {ctx addr bs n} (h : s.MemOk) : (s.tableWriteN ctx addr bs n).MemOk := by
  induction n generalizing s addr bs with
  | zero => exact h
  | succ n ih => exact .ite h (ih (by split; exacts [.through h fun _ => .writePart, h]))
theorem State.MemOk.tableWrite {ctx addr bs} (h : s.MemOk) : (s.tableWrite ctx addr bs).MemOk := .tableWriteN h

/-! The functions of Machine/Operands -/

theorem State.MemOk.takeWait {c q w} (h : s.MemOk) : (s.takeWait c q w).MemOk := by
  unfold State.takeWait
  split
  exacts [h, .ite h (.setFld h)]

/-! The functions of Machine/Issue -/


theorem State.MemOk.waitFor {c q cause} (h : s.MemOk) : (s.waitFor c q cause).MemOk := .setQueue h
theorem State.MemOk.refuse {c q code optag addr} (h : s.MemOk) : (s.refuse c q code optag addr).MemOk :=
  .ite (.enterFault h) (.setQueue h)
theorem State.MemOk.refuseRef {c q r optag} (h : s.MemOk) : (s.refuseRef c q r optag).MemOk := by
  unfold State.refuseRef
  dsimp only
  split
  · exact .refuse (.memErr (by split; exacts [.missed (.touchedAll h), .touchedAll h]))
  · exact .refuse (by split; exacts [.missed (.touchedAll h), .touchedAll h])
theorem State.MemOk.sleepHead {c q gs} (h : s.MemOk) : (s.sleepHead c q gs).MemOk := .waitFor (.rouse h)
theorem State.MemOk.turnDown {c q r optag} (h : s.MemOk) : (s.turnDown c q r optag).MemOk := .ite (.refuseRef h) (.sleepHead h)
theorem Verdict.MemOk.reading {ctx tables v} (hv : v.MemOk) : (Verdict.reading s ctx tables v).MemOk := by
  cases v with
  | issue => exact .ite (.issue (.touchedAll hv)) trivial
  | stay => exact hv
  | _ => trivial
theorem State.MemOk.issued {c q o w i} (hi : i.st.MemOk) : (s.issued c q o w i).MemOk := .congr hi rfl
theorem State.MemOk.settle {c q o w v} (h : s.MemOk) (hv : v.MemOk) : (s.settle c q o w v).MemOk := by
  cases v with
  | refuse => exact .refuse h
  | refuseRef => exact .turnDown h
  | wait => exact h
  | rouse => exact .sleepHead h
  | stay => exact hv
  | issue => exact hv
theorem State.MemOk.runHead {c q o w body early} (h : s.MemOk) (hbody : ∀ t, t.MemOk → (body t).MemOk) :
    (s.runHead c q o w body early).MemOk := by
  unfold State.runHead
  dsimp only
  split
  · exact h
  · split
    · exact .waitFor h
    · split
      · exact .turnDown h
      · split
        · exact .waitFor h
        · split
          exacts [.refuse h, .settle h (hbody _ (.takeWait h))]
theorem State.MemOk.sendSignal {c q f} (h : s.MemOk) : (s.sendSignal c q f).MemOk := .ite h (.congr h rfl)
theorem State.MemOk.holdQueues {c q a} (h : s.MemOk) : (s.holdQueues c q a).MemOk := by
  unfold State.holdQueues
  split
  exacts [h, .setQueue h, .foldl h fun _ _ => .setQueue]
theorem State.MemOk.dueRefusal {c q} (h : s.MemOk) : (s.dueRefusal c q).MemOk := by
  unfold State.dueRefusal
  split
  exacts [.ite (.enterFault (.setQueue h)) h, h]
theorem State.MemOk.errorTest {c code} (h : s.MemOk) : (s.errorTest c code).MemOk := by
  unfold State.errorTest
  split
  exacts [.trigger h, h]
theorem State.MemOk.retire {c q f} (h : s.MemOk) : (s.retire c q f).MemOk :=
  .via (fun h3 => .dueRefusal (.holdQueues (.ite (.setQueue h3) h3)))
    (.via (fun h2 => by split; exacts [.errorTest (.enterFault h2), .sendSignal h2])
      (.via (fun h1 => by split; exacts [.setSreg h1, h1]) (.ite (.count (.events h)) (.events h))))
theorem NextMemOk.execInstructionComplete {c q} (h : s.MemOk) : NextMemOk (execInstructionComplete c q s) := by
  unfold Machine.execInstructionComplete
  dsimp only
  split
  exacts [.next h, .ite (.next (.retire (.setQueue h))) (.next h)]
theorem State.MemOk.mapFlight {c q id g} (h : s.MemOk) : (s.mapFlight c q id g).MemOk := .setQueue h
theorem State.MemOk.latchMb {c q o w} (h : s.MemOk) : (s.latchMb c q o w).MemOk := by
  unfold State.latchMb
  split
  exacts [.setQueue (.touched h), h]
theorem State.MemOk.becomeHead {c q b} (h : s.MemOk) : (s.becomeHead c q b).MemOk := by
  unfold State.becomeHead
  dsimp only
  split
  exacts [.latchMb (.congr h rfl), .congr h rfl]
theorem State.MemOk.reservedHead {c q w} (h : s.MemOk) : (s.reservedHead c q w).MemOk := .ite (.waitFor h) (.ite (.waitFor h) (.refuse h))
theorem NextMemOk.execInstructionFetch {c q e} (h : s.MemOk) : NextMemOk (execInstructionFetch c q e s) := by
  unfold Machine.execInstructionFetch
  dsimp only
  split
  · exact .next h
  · split
    · exact .next (.refuse h)
    · split
      · exact .next (.trigger (.refuse (.memErr h)))
      · split
        exacts [.next (.ite (.becomeHead h) h), .next (.reservedHead (.ite (.becomeHead h) h))]

/-! The functions of Machine/Scalar -/

theorem Verdict.MemOk.loopVerdict {pc loops n e} (h : s.MemOk) : (loopVerdict s pc loops n e).MemOk :=
  .ite trivial (.ite (.issue h) (.ite trivial (.issue h)))
theorem Verdict.MemOk.scalar {c q w v} (h : s.MemOk) : (s.scalar c q w v).MemOk := .issue (.setSreg h)
theorem State.MemOk.tookTag {c q optag addr pa t} (h : s.MemOk) : (s.tookTag c q optag addr pa t).MemOk := by
  unfold State.tookTag
  split
  exacts [h, .memErr h, .trigger (.memErr h)]

/-! The functions of Machine/FabReq -/

theorem State.MemOk.setQpWord {n i v} (h : s.MemOk) : (s.setQpWord n i v).MemOk := by
  unfold State.setQpWord
  split
  exacts [.writePart h, h]
theorem State.MemOk.setQpFld {n i lo len x} (h : s.MemOk) : (s.setQpFld n i lo len x).MemOk := .setQpWord h
theorem Verdict.MemOk.routed {ctx devs v} (hv : v.MemOk) : (Verdict.routed s ctx devs v).MemOk := by
  unfold Verdict.routed
  dsimp only
  split
  exacts [.ite (.reading hv) hv, .ite (.reading hv) hv, .reading hv]
theorem State.MemOk.emit {n a} (h : s.MemOk) : (s.emit n a).MemOk := by
  unfold State.emit
  split
  exacts [.send (.count h), .send (.count (.count h))]
theorem State.MemOk.sendOut {n o} (h : s.MemOk) : (s.sendOut n o).MemOk := .ite (.emit h) (.setQp h)
theorem State.MemOk.startReq {n r rest} (h : s.MemOk) : (s.startReq n r rest).MemOk := .emit (.setQp (.setQpFld h))
theorem State.MemOk.resend1 {n r} (h : s.MemOk) : (s.resend1 n r).MemOk := .emit (.count (.setQp h))
theorem State.MemOk.turn1 {n} (h : s.MemOk) : ∀ t ∈ s.turn1 n, t.MemOk := by
  unfold State.turn1
  dsimp only
  split
  · rintro _ ⟨⟩
  split
  · rintro _ ⟨⟩
    exact .emit h
  split
  · rintro _ ⟨⟩
  split
  · rintro _ ⟨⟩
    exact .resend1 h
  · split
    · rintro _ ⟨⟩
      exact .startReq h
    · rintro _ ⟨⟩
  · rintro _ ⟨⟩
theorem State.MemOk.turn {qy} (h : s.MemOk) (ht : s.turn qy = some t) : t.MemOk := by
  obtain ⟨cls, -, hc⟩ := List.exists_of_findSome?_eq_some ht
  obtain ⟨n, -, hn⟩ := List.exists_of_findSome?_eq_some hc
  obtain ⟨u, hu, rfl⟩ := Option.map_eq_some_iff.mp hn
  exact State.MemOk.turn1 h u hu
theorem State.MemOk.turns_ {qy n} (h : s.MemOk) : (s.turns_ qy n).MemOk := by
  induction n generalizing s with
  | zero => exact h
  | succ n ih =>
    unfold State.turns_
    split
    · next ht => exact ih (.turn h ht)
    · exact h
theorem State.MemOk.pumpQuay {qy} (h : s.MemOk) : (s.pumpQuay qy).MemOk := .turns_ h
theorem State.MemOk.failEarly {n} (h : s.MemOk) : (s.failEarly n).MemOk := .first h
theorem State.MemOk.request {n rs} (h : s.MemOk) : (s.request n rs).MemOk := .ite (.ite h (.failEarly h)) (.pumpQuay (.setQp h))

/-! The functions of Machine/Desc -/

theorem State.MemOk.landUnit {pa u} (h : s.MemOk) : (s.landUnit pa u).MemOk := .ite (.writeUnit h) (.writeUnit h)
theorem State.MemOk.landWrite {ctx own u} (h : s.MemOk) : (s.landWrite ctx own u).1.MemOk := by
  unfold State.landWrite
  split
  exacts [.through (.wakeFor h) fun _ => .landUnit, .missed h, h]
theorem State.MemOk.landAll {ctx own us} (h : s.MemOk) : (s.landAll ctx own us).1.MemOk := .foldlFst h fun _ _ => .landWrite

/-! The functions of Machine/Fail -/

theorem State.MemOk.stopCores {cs} (h : s.MemOk) : (s.stopCores cs).MemOk := .foldl h fun _ _ => .stopCore
theorem State.MemOk.startDisable {u} (h : s.MemOk) : (s.startDisable u).MemOk := .ite h (.congr (.stopCores h) rfl)
theorem State.MemOk.memReport {code pa} (h : s.MemOk) : (s.memReport code pa).MemOk := .report h
theorem State.MemOk.unitCorrected {pa} (h : s.MemOk) : (s.unitCorrected pa).MemOk :=
  .memReport (.ite (.count h) (.ite (.count h) (.count h)))
theorem State.MemOk.unitUncorr {pa scrub} (h : s.MemOk) : (s.unitUncorr pa scrub).MemOk :=
  .via (fun h1 => .trigger (.memReport (.ite (.poisoned h1) h1))) (.ite (.first (.count h)) (.ite (.first (.count h)) (.count h)))

/-! The functions of Machine/Movers -/

theorem State.MemOk.countOverlap {c a} (h : s.MemOk) : (s.countOverlap c a).MemOk := by
  unfold State.countOverlap
  split
  exacts [.count h, .count h, h]
theorem State.MemOk.tookErrs {c q pc optag ctx x} (h : s.MemOk) : (s.tookErrs c q pc optag ctx x).MemOk := by
  unfold State.tookErrs
  dsimp only
  split
  · split
    exacts [.missed h, h]
  · split
    · exact .trigger (.memErr (by split; exacts [.missed h, h]))
    · exact .memErr (by split; exacts [.missed h, h])
theorem State.MemOk.deliverWrites {c q ctx id us} (h : s.MemOk) : (s.deliverWrites c q ctx id us).1.MemOk :=
  .foldl (.landAll (.ite (.poisoned h) h)) fun _ _ h1 => by split; exacts [.request h1, h1]
theorem State.MemOk.finishMove {c q pc optag ctx id x us} (h : s.MemOk) : (s.finishMove c q pc optag ctx id x us).1.MemOk :=
  .deliverWrites (.tookErrs (.count (.count h)))
theorem State.MemOk.startGather {c q ctx src shape job} (h : s.MemOk) : (s.startGather c q ctx src shape job).1.MemOk := by
  unfold State.startGather
  split
  exacts [.request h, h]
theorem State.MemOk.copyIssue {o c q w} (h : s.MemOk) : (s.copyIssue o c q w).st.MemOk := by
  unfold State.copyIssue
  extract_lets ctx a b seed s₁ j x s₂
  have h₁ : s₁.MemOk := .countOverlap h
  have h₂ : s₂.MemOk := .wakeAll h₁
  clear_value s₂ x j s₁ a b
  split
  · split
    next e => exact .of_fst (.startGather h₁) e
  · split
    next e => exact .of_fst (.finishMove h₂) e
theorem Verdict.MemOk.copyVerdict {o c q w} (h : s.MemOk) : (s.copyVerdict o c q w).MemOk :=
  .routed (by split; exacts [trivial, .issue (.copyIssue h)])
theorem State.MemOk.stqIssue {c q w} (h : s.MemOk) : (s.stqIssue c q w).st.MemOk := by
  generalize hi : s.stqIssue c q w = i
  rw [State.stqIssue] at hi
  split at hi
  · extract_lets u j at hi
    clear_value j
    split at hi
    next e =>
      subst hi
      exact .of_fst (.startGather (.countOverlap h)) e
  · split at hi
    extract_lets s₂ at hi
    have h₂ : s₂.MemOk := .wakeAll (.countOverlap h)
    clear_value s₂
    split at hi
    next e =>
      subst hi
      exact .of_fst (.finishMove h₂) e
theorem State.MemOk.atomLocal {c q w addr pa} (h : s.MemOk) : (s.atomLocal c q w addr pa).st.MemOk := by
  unfold State.atomLocal
  dsimp only
  split
  exacts [.writePart (.through (.wakeFor h) fun _ => .writePart), .poisoned (.writePart (.tookTag (.wakeFor h)))]
theorem State.MemOk.atomRemote {c q w dev off n} (h : s.MemOk) : (s.atomRemote c q w dev off n).st.MemOk := .request h
theorem Verdict.MemOk.atomVerdict {c q w} (h : s.MemOk) : (atomVerdict s c q w).MemOk := by
  unfold Machine.atomVerdict
  dsimp only
  split
  · trivial
  · split
    · exact .reading (.issue (.atomLocal h))
    · trivial
    · exact .routed (by split; exacts [.issue (.atomRemote h), trivial])
    · trivial

/-! The functions of Machine/Sync -/

theorem State.MemOk.lastSignal {k core queue pc} (h : s.MemOk) : (s.lastSignal k core queue pc).MemOk := .setReg h
theorem State.MemOk.setSem {k v core queue pc} (h : s.MemOk) : (s.setSem k v core queue pc).MemOk := .lastSignal (.setFld h)
theorem State.MemOk.sigEvent {x code} (h : s.MemOk) : (s.sigEvent x code).MemOk := by
  unfold State.sigEvent
  split
  exacts [.event h, h]
theorem State.MemOk.applySignal {x} (h : s.MemOk) : (s.applySignal x).MemOk :=
  .ite (.sigEvent (.count h)) (.via (fun h1 => .ite (.sigEvent (.setBit h1)) h1) (.lastSignal (.setFld h)))
theorem NextMemOk.execSignal {src} (h : s.MemOk) : NextMemOk (execSignal src s) := by
  unfold Machine.execSignal
  split
  exacts [.next h, .next (.applySignal (.congr h rfl))]
theorem State.MemOk.lineDone {cq} (h : s.MemOk) : (s.lineDone cq).MemOk := by
  unfold State.lineDone
  split
  exacts [.issued h, h]
theorem State.MemOk.releaseLine {l} (h : s.MemOk) : (s.releaseLine l).MemOk := .foldl (.setFld (.setReg (.setReg h))) fun _ _ => .lineDone
theorem State.MemOk.checkLine {l} (h : s.MemOk) : (s.checkLine l).MemOk := .ite (.releaseLine h) h
theorem State.MemOk.arrive {c l} (h : s.MemOk) : (s.arrive c l).MemOk := .ite (.countSat h) (.ite (.setBit h) (.setBit h))
theorem State.MemOk.setLineWait {c q l} (h : s.MemOk) : (s.setLineWait c q l).MemOk := .setQueue h
theorem Verdict.MemOk.xarrVerdict {c q wait l} (h : s.MemOk) : (xarrVerdict s c q wait l).MemOk :=
  .ite (.issue h) (.via (fun h1 => .ite (.issue (.releaseLine h1)) (.ite (.stay (.setLineWait h1)) (.issue h1))) (.arrive h))
theorem NextMemOk.execXarr {c q w} (h : s.MemOk) : NextMemOk (execXarr c q w s) := by
  unfold Machine.execXarr
  split
  · exact .next h
  · exact .next (.runHead h fun _ h1 => .ite trivial (by split; exacts [trivial, .xarrVerdict h1]))
theorem State.MemOk.ring_ {g b} (h : s.MemOk) : (s.ring_ g b).MemOk := .ite (.congr h rfl) (.setBit h)
theorem State.MemOk.deliver {g ch f len dbit msg bad} (h : s.MemOk) : (s.deliver g ch f len dbit msg bad).MemOk := .ring_ (.congr h rfl)
theorem State.MemOk.mbTimedOut {c q} (h : s.MemOk) : (s.mbTimedOut c q).MemOk := .setBit h
theorem Verdict.MemOk.mbsendVerdict {c q w g ch} (h : s.MemOk) : (mbsendVerdict s c q w g ch).MemOk :=
  .ite (.issue (.mbTimedOut h)) (.ite trivial (.ite (.issue (.tookTag h)) (.ite (.issue (.ring_ h)) (.ite (.issue h) (.issue (.deliver
    h))))))
theorem State.MemOk.mbGiveUp {c q f} (h : s.MemOk) : (s.mbGiveUp c q f).MemOk := .mapFlight (.mbTimedOut h)
theorem NextMemOk.execMbDelivery {c q} (h : s.MemOk) : NextMemOk (execMbDelivery c q s) := by
  unfold Machine.execMbDelivery
  split
  exacts [.next h, .ite (.next (.mbGiveUp h)) (.ite (.next h) (.next (.mapFlight (.deliver h))))]
theorem NextMemOk.execMbTimeout {c q} (h : s.MemOk) : NextMemOk (execMbTimeout c q s) := by
  unfold Machine.execMbTimeout
  split
  exacts [.next h, .ite (.next h) (.next (.mbGiveUp h))]

/-! The functions of Machine/Stats -/

theorem State.MemOk.addStat {ctx c layer step k} (h : s.MemOk) : (s.addStat ctx c layer step k).MemOk := .setKerb h
theorem State.MemOk.nanTrap {c q source origin pc optag coord} (h : s.MemOk) : (s.nanTrap c q source origin pc optag coord).MemOk :=
  .ite (.count h) (.setReg (.setReg h))

/-! The functions of Machine/Update -/

theorem State.MemOk.setGroupWord {ctx addr i v} (h : s.MemOk) : (s.setGroupWord ctx addr i v).MemOk := .tableWrite h
theorem State.MemOk.openGroup {ctx addr n} (h : s.MemOk) : (s.openGroup ctx addr n).MemOk :=
  .ite h (.setGroupWord (.setGroupWord (.setGroupWord h)))
theorem State.MemOk.updIssue {c q w} (h : s.MemOk) : (s.updIssue c q w).st.MemOk :=
  .iteSt (.count h) (.iteSt h (.openGroup (.wakeAll h)))
theorem Verdict.MemOk.updLate {c q w} (h : s.MemOk) : (s.updLate c q w).MemOk :=
  .reading (by split; exacts [trivial, .issue (.updIssue h)])
theorem Verdict.MemOk.updVerdict {c q w} (h : s.MemOk) : (s.updVerdict c q w).MemOk := .ite trivial (.ite (.reading trivial) (.updLate h))
theorem State.MemOk.updCount {j st nf skips poisoned} (h : s.MemOk) : (s.updCount j st nf skips poisoned).MemOk :=
  .via (fun h1 => .ite h1 (.poisoned h1)) (.count (.draw (.count (.count (.count (.count (.count (.count h))))))))
theorem State.MemOk.updEnd {c st pc optag j} (h : s.MemOk) : (s.updEnd c st pc optag j).1.MemOk :=
  .via (fun h1 => .setGroupWord (.ite (.setGroupWord h1) h1)) (.touched (.updCount (.landAll (.tookErrs h))))
theorem NextMemOk.execUpdComplete {c n} (h : s.MemOk) : NextMemOk (execUpdComplete c n s) := by
  unfold Machine.execUpdComplete
  split
  · exact .next h
  · split
    · split
      exacts [.next h, .ite (.next h) (.next (.unlessGated h (.mapFlight (.updEnd h))))]
    · exact .next h

/-! The functions of Machine/Commit -/

theorem State.MemOk.abortStep {ctx n} (h : s.MemOk) : (s.abortStep ctx n).MemOk :=
  .foldl h fun _ _ h1 => .setGroupWord (.setGroupWord (.setGroupWord h1))
theorem State.MemOk.commitIssue {c q w} (h : s.MemOk) : (s.commitIssue c q w).st.MemOk := by
  unfold State.commitIssue
  dsimp only
  split
  · exact .abortStep h
  · split
    exacts [h, h]
theorem State.MemOk.endCommits {ctx n err events join} (h : s.MemOk) : (s.endCommits ctx n err events join).MemOk :=
  .foldl h fun _ _ => .mapFlight
theorem State.MemOk.commitFails {ctx group n} (h : s.MemOk) : (s.commitFails ctx group n).MemOk := .endCommits (.first h)
theorem State.MemOk.stalling {ctx n gs} (h : s.MemOk) : (s.stalling ctx n gs).MemOk := .foldl h fun _ _ => .setBit
theorem State.MemOk.flipGroup {ctx n i} (h : s.MemOk) : (s.flipGroup ctx n i).MemOk :=
  .via (fun h1 => .ite (.count h1) h1) (.setGroupWord (.setGroupWord (.setGroupWord h)))
theorem State.MemOk.flipFails {ctx i} (h : s.MemOk) : (s.flipFails ctx i).MemOk := by
  unfold State.flipFails
  dsimp only
  split
  exacts [.through h fun _ h1 => .unitUncorr (.writePart h1), h]
theorem State.MemOk.flipAll {ctx n failAt l} (h : s.MemOk) : (s.flipAll ctx n failAt l).1.MemOk := by
  induction l generalizing s with
  | nil => exact h
  | cons i l ih =>
    unfold State.flipAll
    split
    exacts [.flipFails h, ih (.flipGroup h)]
theorem State.MemOk.flipEnd {ctx n failed events} (h : s.MemOk) : (s.flipEnd ctx n failed events).MemOk := by
  unfold State.flipEnd
  split
  exacts [.endCommits (.first (.setBit h)), .endCommits (.setBit (.setFld h))]
theorem State.MemOk.snapWait {ctx p} (h : s.MemOk) : (s.snapWait ctx p).MemOk := by
  unfold State.snapWait
  split
  exacts [.mapFlight (.count h), h]
theorem State.MemOk.showStalls {ctx} (h : s.MemOk) : (s.showStalls ctx).MemOk := by
  unfold State.showStalls
  split
  exacts [.snapWait (.stalling h), .stalling h]
theorem State.MemOk.commitRun {ctx n failAt p} (h : s.MemOk) : (s.commitRun ctx n failAt p).MemOk := by
  unfold State.commitRun
  extract_lets gs t r
  have ht : t.MemOk := .stalling h
  refine .ite (.commitFails h) ?_
  split
  exacts [.commitFails h, .ite (.snapWait ht) (.flipEnd (.flipAll ht))]
theorem NextMemOk.execCommitFlip {ctx failAt} (h : s.MemOk) : NextMemOk (execCommitFlip ctx failAt s) := by
  unfold Machine.execCommitFlip
  split
  exacts [.next h, .ite (.next h) (.next (.unlessGated h (.commitRun (.touchedAll h))))]
theorem State.MemOk.snapWrite {ctx i v} (h : s.MemOk) : (s.snapWrite ctx i v).MemOk :=
  .via (fun h1 => .ite (.setBit (.setBit h1)) (.ite (.setFld (.setBit h1)) h1)) (.ite h (.setFld h))
theorem State.MemOk.bankWrite {ctx bank k f} (h : s.MemOk) (hf : ∀ a, (f a).MemOk) : (s.bankWrite ctx bank k f).MemOk := by
  unfold State.bankWrite
  split
  exacts [hf _, .violation h]
theorem State.MemOk.cstepWrite {ctx v} (h : s.MemOk) : (s.cstepWrite ctx v).MemOk := .ite h (.setFld h)

/-! The functions of Machine/Access -/

theorem State.MemOk.accessed {ctx addr a f} (h : s.MemOk) (hf : ∀ a a1, (f a a1).MemOk) : (s.accessed ctx addr a f).MemOk := by
  unfold State.accessed
  split
  exacts [.send h, .violation h, h, hf _ _]

/-! The functions of Machine/Control -/

theorem State.MemOk.atCore {ctx vc off f} (h : s.MemOk) (hf : ∀ a, (f a).MemOk) : (s.atCore ctx vc off f).MemOk := by
  unfold State.atCore
  split
  exacts [.violation h, .ite (hf _) h]
theorem State.MemOk.atClu {ctx vg off f} (h : s.MemOk) (hf : ∀ a, (f a).MemOk) : (s.atClu ctx vg off f).MemOk := by
  unfold State.atClu
  split
  exacts [.violation h, .ite (hf _) h]
theorem State.MemOk.awake {g i f} (h : s.MemOk) (hf : ∀ t, t.MemOk → (f t).MemOk) : (s.awake g i f).MemOk := .ite (hf _ h) (.congr h rfl)
theorem State.MemOk.orWait {i t} (h : s.MemOk) (ht : t.MemOk) : (s.orWait i t).MemOk := by
  unfold State.orWait
  split
  exacts [ht, .congr (.rouse h) rfl]
theorem State.MemOk.startMask {c m} (h : s.MemOk) : (s.startMask c m).MemOk := .ite h (.startQueues h)
theorem State.MemOk.startCores {cs} (h : s.MemOk) : (s.startCores cs).MemOk := .foldl h fun _ _ => .startMask
theorem State.MemOk.pickWrite {c v} (h : s.MemOk) : (s.pickWrite c v).MemOk := .congr h rfl
theorem State.MemOk.windowLand {pa bs} (h : s.MemOk) : (s.windowLand pa bs).MemOk := .ite (.writeBytes h) (.count h)
theorem State.MemOk.windowWrite {ctx addr bs} (h : s.MemOk) : (s.windowWrite ctx addr bs).MemOk := by
  unfold State.windowWrite
  split
  · exact h
  · split
    exacts [.ite (.send h) (.ite (.awake h fun _ => .windowLand) h), .missed h, .send h, h]
theorem State.MemOk.imgEnd {ctx g busy r bad} (h : s.MemOk) : (s.imgEnd ctx g busy r bad).MemOk :=
  .via (fun h1 => .ite h1 (.report h1)) (.setReg h)
theorem State.MemOk.imgReset {c} (h : s.MemOk) : (s.imgReset c).MemOk :=
  .clearReg (.clearReg (.foldl (.foldl h fun _ _ h1 => .foldl (.clearReg (.clearReg (.setQueue h1))) fun _ _ => .clearReg) fun _ _ =>
    .clearReg))
theorem State.MemOk.imgOpen {ctx g base} (h : s.MemOk) : (s.imgOpen ctx g base).MemOk := by
  unfold State.imgOpen
  split
  · exact .imgEnd h
  · split
    · exact .imgEnd h
    · split
      exacts [.imgEnd h, .congr (.foldl h fun _ _ => .imgReset) rfl]
theorem State.MemOk.imageLoad {ctx g} (h : s.MemOk) : (s.imageLoad ctx g).MemOk := .ite (.imgEnd h) (.imgOpen (.touchedAll h))
theorem State.MemOk.loadAwake {ctx g i} (h : s.MemOk) : (s.loadAwake ctx g i).MemOk := .awake h fun _ h1 => .orWait h1 (.imageLoad h1)
theorem State.MemOk.imgBad {ctx c addr n} (h : s.MemOk) : (s.imgBad ctx c addr n).1.MemOk := by
  unfold State.imgBad
  split
  exacts [h, .memErr h]
theorem State.MemOk.imgCopy {ctx c src pa piece n} (h : s.MemOk) : (s.imgCopy ctx c src pa piece n).1.MemOk := by
  induction n generalizing s src pa with
  | zero => exact h
  | succ n ih =>
    unfold State.imgCopy
    dsimp only
    split
    exacts [.imgBad (.touched h), ih (.writeBytes (.touched h))]
theorem State.MemOk.imgSectionRun {g l i} (h : s.MemOk) : (s.imgSectionRun g l i).1.MemOk := by
  unfold State.imgSectionRun
  extract_lets x c pa piece r
  have hr : r.1.MemOk := .imgCopy h
  refine .iteFst (.writeBytes h) ?_
  split
  exacts [hr, .iteFst hr hr]
theorem State.MemOk.imgSections {g l i n} (h : s.MemOk) : (s.imgSections g l i n).1.MemOk := by
  induction n generalizing s i with
  | zero => exact h
  | succ n ih =>
    have ran : (s.imgSectionRun g l i).1.MemOk := .imgSectionRun h
    unfold State.imgSections
    split
    · next heq => exact ih (by rwa [heq] at ran)
    · exact ran
theorem State.MemOk.imgReady {g x k} (h : s.MemOk) : (s.imgReady g x k).MemOk := .foldl h fun _ _ => .setQueue
theorem State.MemOk.setLoads {x} (h : s.MemOk) : ({ s with loads := x } : State).MemOk := h
theorem State.MemOk.imgFinish {g l} (h : s.MemOk) : (s.imgFinish g l).MemOk := by
  unfold State.imgFinish
  extract_lets s₁ r t
  have hr : r.1.MemOk := .imgSections (.setLoads (.wakeFor h))
  clear_value r
  split
  exacts [.imgEnd hr, .imgEnd (.foldl hr fun _ _ => .imgReady)]
theorem NextMemOk.execImageLoadEnd {g} (h : s.MemOk) : NextMemOk (execImageLoadEnd g s) := by
  unfold Machine.execImageLoadEnd
  split
  exacts [.next h, .next (.unlessGated h (.imgFinish h))]
theorem State.MemOk.gateAsk {v g} (h : s.MemOk) : (s.gateAsk v g).MemOk := .ite h (.ite (.congr h rfl) (.setFld h))
theorem State.MemOk.gateWrite {d v} (h : s.MemOk) : (s.gateWrite d v).MemOk := .foldl h fun _ _ => .gateAsk
theorem State.MemOk.asRoot {ctx k f} (h : s.MemOk) (hf : ∀ t, t.MemOk → (f t).MemOk) : (s.asRoot ctx k f).MemOk :=
  .ite (hf _ h) (.violation h)
theorem NextMemOk.execGateEnter {g} (h : s.MemOk) : NextMemOk (execGateEnter g s) := .ite (.next (.setFld h)) (.next h)

/-! The functions of Machine/Errors -/

theorem State.MemOk.stopForTest {u} (h : s.MemOk) : (s.stopForTest u).MemOk := .ite (.stopCores h) h
theorem State.MemOk.nextTest {d} (h : s.MemOk) : (s.nextTest d).MemOk := by
  unfold State.nextTest
  dsimp only
  split
  exacts [.ite (.verdict (.setDie h)) (.stopForTest (.setDie h)), h]
theorem NextMemOk.execSelfTestStart {d} (h : s.MemOk) : NextMemOk (execSelfTestStart d s) := by
  unfold Machine.execSelfTestStart
  split
  exacts [.next (.congr h rfl), .next (.nextTest h)]
theorem State.MemOk.rowFault {u addr} (h : s.MemOk) : (s.rowFault u addr).MemOk := .ite (.setStack h) (.ite (.report (.congr h rfl)) h)
theorem State.MemOk.lasting {t} (h : s.MemOk) : (s.lasting t).MemOk := .ite (.rowFault h) (.ite (.startDisable h) h)
theorem State.MemOk.testedUnit {t} (h : s.MemOk) : (s.testedUnit t).MemOk := .ite (.writeUnit h) h
theorem NextMemOk.execSelfTestEnd {d passed} (h : s.MemOk) : NextMemOk (execSelfTestEnd d passed s) := by
  unfold Machine.execSelfTestEnd
  dsimp only
  split
  · exact .next h
  · exact .via (fun h1 => .via (fun h2 => .next (.ite h2 (.lasting h2))) (.verdict (.ite (.keepVerdict h1) h1))) (.testedUnit (.setDie h))
theorem NextMemOk.execRowRepairEnd {st} (h : s.MemOk) : NextMemOk (execRowRepairEnd st s) := by
  unfold Machine.execRowRepairEnd
  dsimp only
  split
  exacts [.next h, .next (.report (.congr h rfl))]
theorem State.MemOk.disableGo {u} (h : s.MemOk) : (s.disableGo u).MemOk := .ite (.startDisable h) h
theorem State.MemOk.disableEnable {u} (h : s.MemOk) : (s.disableEnable u).MemOk := .ite h (.congr h rfl)
theorem State.MemOk.errDisableWrite {v} (h : s.MemOk) : (s.errDisableWrite v).MemOk := .ite (.disableEnable h) (.ite (.disableGo h) h)
theorem State.MemOk.dropRequests {f} (h : s.MemOk) : (s.dropRequests f).MemOk := .congr h rfl
theorem State.MemOk.abandonCore {c} (h : s.MemOk) : (s.abandonCore c).MemOk :=
  .dropRequests (.foldl h fun _ _ h1 => .dueRefusal (.setQueue h1))
theorem State.MemOk.abandon {cs} (h : s.MemOk) : (s.abandon cs).MemOk := .foldl h fun _ _ => .abandonCore
theorem State.MemOk.checkLines (h : s.MemOk) : s.checkLines.MemOk := .foldl h fun _ _ => .checkLine
theorem NextMemOk.execUnitDisableMark {src} (h : s.MemOk) : NextMemOk (execUnitDisableMark src s) :=
  .ite (.next h) (.next (.report (.checkLines (.congr (.abandon h) rfl))))

/-! The functions of Machine/Ldq -/

theorem State.MemOk.placeTile {c base pitch slots i t} (h : s.MemOk) : (s.placeTile c base pitch slots i t).MemOk :=
  .via (fun h1 => .count (.ite (.poisoned h1) h1)) (.foldl h fun _ _ => .writeUnit)
theorem State.MemOk.ldqStore {c j l} (h : s.MemOk) : (s.ldqStore c j l).MemOk :=
  .foldl (.foldl h fun _ _ => .placeTile) fun _ _ => .addStat
theorem State.MemOk.ldqRun {c q pc j} (h : s.MemOk) : (s.ldqRun c q pc j).st.MemOk := by
  unfold State.ldqRun
  extract_lets l r past errs excess stall t₁ t₂ ev hold err
  have h₁ : t₁.MemOk := .tookErrs (.count (.ldqStore (.wakeAll h)))
  have h₂ : t₂.MemOk := .ite (.first h₁) h₁
  clear_value t₂ t₁ l
  split
  · exact h
  · split
    exacts [h₂, .nanTrap h₂]
theorem State.MemOk.requestUnits {owner ctx units} (h : s.MemOk) : (s.requestUnits owner ctx units).MemOk :=
  .foldl h fun _ _ h1 => by split; exacts [.request h1, h1]
theorem State.MemOk.ldqIssue {c q j} (h : s.MemOk) : (s.ldqIssue c q j).st.MemOk := by
  unfold State.ldqIssue
  extract_lets j s₁ needs e
  have h₁ : s₁.MemOk := .countOverlap h
  have he : e.st.MemOk := .ldqRun h₁
  exact .iteSt he (.requestUnits h₁)
theorem Verdict.MemOk.ldqDecide {c q w j} (h : s.MemOk) : (s.ldqDecide c q w j).MemOk := by
  unfold State.ldqDecide
  dsimp only
  split
  · trivial
  · split
    exacts [trivial, .issue (.ldqIssue h)]
theorem Verdict.MemOk.ldqVerdict {c q w} (h : s.MemOk) : (s.ldqVerdict c q w).MemOk := .ite trivial (.reading (.routed (.ldqDecide h)))

/-! The functions of Machine/MemEvents -/

theorem State.MemOk.channelPassed {pa} (h : s.MemOk) : (s.channelPassed pa).MemOk := by
  unfold State.channelPassed
  split
  exacts [h, .setStack h]
theorem State.MemOk.owesWriteback {pa} (h : s.MemOk) : (s.owesWriteback pa).MemOk := .setStack h
theorem State.MemOk.symbolOutcome {pa e asRead scrub} (h : s.MemOk) : (s.symbolOutcome pa e asRead scrub).MemOk := by
  unfold State.symbolOutcome
  split
  exacts [h, .owesWriteback (.unitCorrected h), .unitUncorr (.writeUnit h)]
theorem NextMemOk.execStackRead {pa e asRead} (h : s.MemOk) : NextMemOk (execStackRead pa e asRead s) :=
  .ite (.next (.symbolOutcome (.channelPassed h))) (.next h)
theorem NextMemOk.execCorrectedWriteback {pa} (h : s.MemOk) : NextMemOk (execCorrectedWriteback pa s) := by
  unfold Machine.execCorrectedWriteback
  split
  exacts [.next h, .next (.setStack h)]
theorem NextMemOk.execMaskedWrite {pa lo hi data} (h : s.MemOk) : NextMemOk (execMaskedWrite pa lo hi data s) :=
  .ite (.next (.landUnit h)) (.next h)
theorem State.MemOk.patrolMismatch {pa} (h : s.MemOk) : (s.patrolMismatch pa).MemOk := .trigger (.memReport h)
theorem State.MemOk.patrolTag {pa e} (h : s.MemOk) : (s.patrolTag pa e).MemOk := .ite (.patrolMismatch h) h
theorem NextMemOk.execPatrolScrub {pa e asRead} (h : s.MemOk) : NextMemOk (execPatrolScrub pa e asRead s) :=
  .ite (.next h) (.next (.patrolTag (.symbolOutcome (.channelPassed h))))
theorem State.MemOk.sramOutcome {addr e asRead patrol} (h : s.MemOk) : (s.sramOutcome addr e asRead patrol).MemOk := by
  unfold State.sramOutcome
  split
  exacts [h, .unitCorrected h, .unitUncorr (.writeUnit h)]
theorem NextMemOk.execSramPatrol {addr f asRead} (h : s.MemOk) : NextMemOk (execSramPatrol addr f asRead s) :=
  .ite (.next h) (.via (fun h1 => .next (.ite (.patrolTag h1) h1)) (.sramOutcome h))
theorem NextMemOk.execFlitReplay {r} (h : s.MemOk) : NextMemOk (execFlitReplay r s) :=
  .ite (.next h) (.ite (.next (.setStack h)) (.ite (.next (.setStack h)) (.next (.setStack h))))
theorem State.MemOk.linkLost {st u pa} (h : s.MemOk) : (s.linkLost st u pa).MemOk :=
  .via (fun h1 => .ite (.startDisable h1) h1) (.report h)
theorem NextMemOk.execDieLinkRetrainEnd {st ok} (h : s.MemOk) : NextMemOk (execDieLinkRetrainEnd st ok s) :=
  .ite (.next h) (.via (fun h1 => .ite (.next h1) (.next (.linkLost (.setBit h1)))) (.setStack h))
theorem State.MemOk.failChannel {st ch} (h : s.MemOk) : (s.failChannel st ch).MemOk := .linkLost (.setBit (.setBit (.setStack h)))
theorem NextMemOk.execDramParityFail {st ch} (h : s.MemOk) : NextMemOk (execDramParityFail st ch s) :=
  .ite (.next h) (.ite (.next (.report (.countSat (.setStack h)))) (.ite (.next (.failChannel h)) (.next (.setBit (.countSat (.setStack
    h))))))
theorem NextMemOk.execChannelRetrainEnd {st ch ok} (h : s.MemOk) : NextMemOk (execChannelRetrainEnd st ch ok s) :=
  .ite (.next h) (.ite (.next (.failChannel h)) (.ite (.next (.setStack (.setBit h))) (.next h)))
theorem State.MemOk.stkCtrlWrite {st v} (h : s.MemOk) : (s.stkCtrlWrite st v).MemOk :=
  .via (fun h1 => .ite (.setBit h1) (.ite h1 (.ite (.setBit h1) (.setBit h1)))) (.setFld h)
theorem State.MemOk.echoStart {st ch v} (h : s.MemOk) : (s.echoStart st ch v).MemOk := .ite h (.ite (.setBit h) (.setStack (.setBit h)))
theorem State.MemOk.echoWrite {st ch v} (h : s.MemOk) : (s.echoWrite st ch v).MemOk :=
  .via (fun h1 => .ite (.echoStart h1) h1) (.setReg h)
theorem State.MemOk.echoPut {st p u bs} (h : s.MemOk) : (s.echoPut st p u bs).MemOk := memWrite_wf _ _ h
theorem State.MemOk.echoFill {st ch ctrl range} (h : s.MemOk) : (s.echoFill st ch ctrl range).MemOk :=
  .foldl h fun _ _ h1 => .foldl h1 fun _ _ => .echoPut
theorem State.MemOk.echoFound {st ch diffs} (h : s.MemOk) : (s.echoFound st ch diffs).MemOk := by
  unfold State.echoFound
  split
  exacts [h, .report (.first (.countSat h))]
theorem NextMemOk.execEchoRunEnd {st ch diffs} (h : s.MemOk) : NextMemOk (execEchoRunEnd st ch diffs s) := by
  unfold Machine.execEchoRunEnd
  dsimp only
  split
  exacts [.next h, .via (fun h1 => .next (.echoFound (.countSat (.ite (.echoFill h1) h1)))) (.setReg (.setStack h))]

/-! The functions of Machine/Target -/

theorem State.MemOk.quayReport {qy code ctx addr} (h : s.MemOk) : (s.quayReport qy code ctx addr).MemOk := .report h
theorem State.MemOk.drop {qy r} (h : s.MemOk) : (s.drop qy r).MemOk := .via (fun h1 => .ite h1 (.quayReport (.congr h1 rfl))) (.count h)
theorem State.MemOk.notify {p} (h : s.MemOk) : (s.notify p).MemOk := .ite (.sendOut (.setQp h)) h
theorem State.MemOk.taken {qy p f} (h : s.MemOk) (hf : ∀ t, t.MemOk → (f t).MemOk) : (s.taken qy p f).MemOk :=
  .ite (.drop h) (hf _ (.notify h))
theorem State.MemOk.refuseReq {qy p reason} (h : s.MemOk) : (s.refuseReq qy p reason).MemOk := .sendOut (.count h)
theorem State.MemOk.gap {p} (h : s.MemOk) : (s.gap p).MemOk := .ite h (.sendOut (.setQp h))
theorem State.MemOk.psnConsumed {p} (h : s.MemOk) : (s.psnConsumed p).MemOk := .setQp (.setQpFld h)
theorem State.MemOk.requested {qy p op f} (h : s.MemOk) (hf : ∀ d t, t.MemOk → (f d t).1.MemOk) : (s.requested qy p op f).MemOk := by
  refine .taken h fun t ht => ?_
  split
  · exact .gap ht
  · split
    exacts [.refuseReq ht, hf _ _ ht]
  · refine .ite (.refuseReq (.setQp ht)) ?_
    split
    exacts [.psnConsumed (.refuseReq ht), .ite (.psnConsumed (hf _ _ ht)) (hf _ _ ht)]
theorem State.MemOk.turnedAway {qy p reason} (h : s.MemOk) : (s.turnedAway qy p reason).1.MemOk :=
  .refuseReq (by split; exacts [.missed h, h])
theorem State.MemOk.readReq {qy p _dup} (h : s.MemOk) : (s.readReq qy p _dup).1.MemOk := by
  unfold State.readReq
  split
  exacts [.turnedAway h, .sendOut (.wakeAll h)]
theorem State.MemOk.rxPoison {qy p ctx} (h : s.MemOk) : (s.rxPoison qy p ctx).MemOk := .poisoned (.quayReport h)
theorem State.MemOk.landReq {qy p mask} (h : s.MemOk) : (s.landReq qy p mask).MemOk :=
  .via (fun h1 => .ite h1 (.rxPoison h1)) (.landAll h)
theorem State.MemOk.ackReq {p} (h : s.MemOk) : (s.ackReq p).1.MemOk := .sendOut h
theorem State.MemOk.writeReq {qy p dup} (h : s.MemOk) : (s.writeReq qy p dup).1.MemOk := by
  unfold State.writeReq
  split
  · exact .ackReq h
  · split
    exacts [.turnedAway h, .ackReq (.landReq h)]
theorem State.MemOk.maskedReq {qy p dup} (h : s.MemOk) : (s.maskedReq qy p dup).1.MemOk := by
  unfold State.maskedReq
  split
  · exact .ackReq h
  · split
    · exact .turnedAway h
    · split
      exacts [.turnedAway h, .ackReq (.landReq h)]
theorem State.MemOk.atomicAt {cas pa a b} (h : s.MemOk) : (s.atomicAt cas pa a b).1.MemOk := by
  unfold State.atomicAt
  dsimp only
  split
  exacts [.through h fun _ => .writePart, h]
theorem State.MemOk.atomicAnswer {p old} (h : s.MemOk) : (s.atomicAnswer p old).1.MemOk := .sendOut h
theorem State.MemOk.atomicReq {cas qy p dup} (h : s.MemOk) : (s.atomicReq cas qy p dup).1.MemOk := by
  unfold State.atomicReq
  split
  · split
    exacts [.atomicAnswer h, .turnedAway h]
  · split
    · exact .turnedAway h
    · split
      exacts [.atomicAnswer (.setQp (.atomicAt (.wakeFor h))), .turnedAway h]
theorem State.MemOk.ctrlDeliver {qy p g ch} (h : s.MemOk) : (s.ctrlDeliver qy p g ch).MemOk :=
  .ite (.ring_ h) (.via (fun h1 => .ite h1 (.rxPoison h1)) (.deliver h))
theorem State.MemOk.ctrlReq {qy p dup} (h : s.MemOk) : (s.ctrlReq qy p dup).1.MemOk := by
  unfold State.ctrlReq
  split
  · exact .ackReq h
  · split
    · exact .turnedAway h
    · split
      · exact .turnedAway h
      · split
        exacts [.sendOut h, .ackReq (.ctrlDeliver h)]
theorem State.MemOk.servedRead {qy p} (h : s.MemOk) : (s.servedRead qy p).MemOk := .requested h fun _ _ => .readReq
theorem State.MemOk.servedWrite {qy p} (h : s.MemOk) : (s.servedWrite qy p).MemOk := .requested h fun _ _ => .writeReq
theorem State.MemOk.servedWriteMasked {qy p} (h : s.MemOk) : (s.servedWriteMasked qy p).MemOk := .requested h fun _ _ => .maskedReq
theorem State.MemOk.servedFadd {qy p} (h : s.MemOk) : (s.servedFadd qy p).MemOk := .requested h fun _ _ => .atomicReq
theorem State.MemOk.servedCas {qy p} (h : s.MemOk) : (s.servedCas qy p).MemOk := .requested h fun _ _ => .atomicReq
theorem State.MemOk.servedCtrlWrite {qy p} (h : s.MemOk) : (s.servedCtrlWrite qy p).MemOk := .requested h fun _ _ => .ctrlReq

/-! The functions of Machine/Requester -/

theorem State.MemOk.remoteWork {c q id w err ev x at_} (h : s.MemOk) : (s.remoteWork c q id w err ev x at_).MemOk := .mapFlight h
theorem State.MemOk.noteLost {ctx a} (h : s.MemOk) : (s.noteLost ctx a).MemOk := by
  unfold State.noteLost
  split
  exacts [.ite (.failEarly h) h, h]
theorem State.MemOk.ldqNext {c q f j} (h : s.MemOk) : (s.ldqNext c q f j).MemOk :=
  .via (fun h1 => .ite (.remoteWork (.ldqRun h1)) (.requestUnits (.remoteWork h1))) (.foldl h fun _ _ => .noteLost)
theorem State.MemOk.gathered {c q f j} (h : s.MemOk) : (s.gathered c q f j).MemOk := by
  unfold State.gathered
  split
  exacts [.ldqNext h, .remoteWork (.finishMove h), .remoteWork (.finishMove h)]
theorem State.MemOk.gatherEnd {c q f j} (h : s.MemOk) : (s.gatherEnd c q f j).MemOk := .unlessGated h (.gathered h)
theorem State.MemOk.resumeGathers (h : s.MemOk) : s.resumeGathers.MemOk :=
  .foldl h fun _ _ h1 => .foldl h1 fun _ _ h2 => by split; exacts [.ite h2 (.gatherEnd h2), h2]
theorem State.MemOk.tookAnswer {c q f r p err} (h : s.MemOk) : (s.tookAnswer c q f r p err).MemOk := by
  unfold State.tookAnswer
  dsimp only
  split
  exacts [.via (fun h1 => .ite h1 (.gatherEnd h1)) (.remoteWork h), .remoteWork h, .remoteWork (.writePart h), h]
theorem State.MemOk.ended {r p err} (h : s.MemOk) : (s.ended r p err).MemOk := by
  unfold State.ended
  split
  · exact h
  · split
    exacts [.tookAnswer h, h]
theorem State.MemOk.failReq {n reason code r} (h : s.MemOk) : (s.failReq n reason code r).MemOk := .ended (.first h)
theorem State.MemOk.failQp {n reason code} (h : s.MemOk) : (s.failQp n reason code).MemOk :=
  .foldl (.setQp (.setQpFld h)) fun _ _ => .failReq
theorem State.MemOk.resend {n psn} (h : s.MemOk) : (s.resend n psn).MemOk := .pumpQuay (.setQp h)
theorem State.MemOk.goBack {n} (h : s.MemOk) : (s.goBack n).MemOk := by
  unfold State.goBack
  split
  exacts [h, .ite (.failQp h) (.resend h)]
theorem State.MemOk.retired {n psn} (h : s.MemOk) : (s.retired n psn).MemOk := .setQp h
theorem State.MemOk.unfit {qy p} (h : s.MemOk) : (s.unfit qy p).MemOk := .failQp (.drop h)
theorem State.MemOk.responded {qy p op fits f} (h : s.MemOk) (hf : ∀ a t, t.MemOk → (f a t).MemOk) : (s.responded qy p op fits f).MemOk :=
  .taken h fun _ h1 => .ite (.drop h1) (by split; exacts [.ite h1 (.drop h1), .ite (hf _ _ h1) (.unfit h1)])
theorem State.MemOk.answered {p r} (h : s.MemOk) : (s.answered p r).MemOk := .pumpQuay (.ended (.retired h))
theorem State.MemOk.servedReadResp {qy p} (h : s.MemOk) : (s.servedReadResp qy p).MemOk := .responded h fun _ _ => .answered
theorem State.MemOk.acked {p r} (h : s.MemOk) : (s.acked p r).MemOk := .foldl h fun _ _ h1 => .ended (.retired h1)
theorem State.MemOk.servedAck {qy p} (h : s.MemOk) : (s.servedAck qy p).MemOk := .responded h fun _ _ h1 => .pumpQuay (.acked h1)
theorem State.MemOk.servedAtomicResp {qy p} (h : s.MemOk) : (s.servedAtomicResp qy p).MemOk := .responded h fun _ _ => .answered
theorem State.MemOk.holdQp {n r} (h : s.MemOk) : (s.holdQp n r).MemOk := .setQp h
theorem State.MemOk.servedRnr {qy p} (h : s.MemOk) : (s.servedRnr qy p).MemOk := .responded h fun _ _ => .holdQp
theorem State.MemOk.repeatQp {n} (h : s.MemOk) : (s.repeatQp n).MemOk := .ite (.resend (.setQp h)) h
theorem State.MemOk.servedNakSeq {qy p} (h : s.MemOk) : (s.servedNakSeq qy p).MemOk := .responded h fun _ _ => .goBack
theorem State.MemOk.epochRefused {n r} (h : s.MemOk) : (s.epochRefused n r).MemOk := .ite (.failQp h) (.holdQp (.setQp h))
theorem State.MemOk.refused {p r} (h : s.MemOk) : (s.refused p r).MemOk := by
  unfold State.refused
  split
  exacts [.pumpQuay (.failReq (.retired h)), .epochRefused h]
theorem State.MemOk.servedRefuse {qy p} (h : s.MemOk) : (s.servedRefuse qy p).MemOk := .responded h fun _ _ => .refused
theorem NextMemOk.execRetransmitTimeout {qp} (h : s.MemOk) : NextMemOk (execRetransmitTimeout qp s) := .ite (.next h) (.next (.goBack h))
theorem State.MemOk.setRates {n rate target} (h : s.MemOk) : (s.setRates n rate target).MemOk := .setQpFld (.setQpFld h)
theorem State.MemOk.ccCnp {n} (h : s.MemOk) : (s.ccCnp n).MemOk := .setQp (.setRates h)
theorem NextMemOk.execCongestionNotification {qy qp} (h : s.MemOk) : NextMemOk (execCongestionNotification qy qp s) :=
  .ite (.next h) (.via (fun h1 => .ite (.next (.ccCnp h1)) (.next (.drop h1))) (.count (.count h)))
theorem NextMemOk.execCcTick {qp} (h : s.MemOk) : NextMemOk (execCcTick qp s) := .ite (.next h) (.next (.setQp (.setRates h)))
theorem State.MemOk.setPause {qy cls x} (h : s.MemOk) : (s.setPause qy cls x).MemOk := .congr h rfl
theorem NextMemOk.execPauseFrame {qy cls xoff} (h : s.MemOk) : NextMemOk (execPauseFrame qy cls xoff s) :=
  .ite (.next h) (.ite (.next (.drop h)) (.ite (.next h) (.next (.pumpQuay (.setPause h)))))
theorem NextMemOk.execPfcWatchdogExpiry {qy cls} (h : s.MemOk) : NextMemOk (execPfcWatchdogExpiry qy cls s) :=
  .ite (.next (.pumpQuay (.quayReport (.setPause (.setBit h))))) (.next h)
theorem NextMemOk.execManagementFrame {qy overRate} (h : s.MemOk) : NextMemOk (execManagementFrame qy overRate s) :=
  .ite (.next h) (.ite (.next (.drop h)) (.next (.send h)))
theorem NextMemOk.execDroppedFrame {qy reason} (h : s.MemOk) : NextMemOk (execDroppedFrame qy reason s) :=
  .ite (.next (.drop h)) (.next h)
theorem State.MemOk.linkDown {qy} (h : s.MemOk) : (s.linkDown qy).MemOk := .ite (.quayReport (.setBit (.congr h rfl))) h
theorem State.MemOk.modeWrite {qy m} (h : s.MemOk) : (s.modeWrite qy m).MemOk := .ite h (.ite (.setBit h) (.setFld h))
theorem State.MemOk.quayCtrlWrite {qy v} (h : s.MemOk) : (s.quayCtrlWrite qy v).MemOk :=
  .via (fun h1 => .ite h1 (.linkDown h1)) (.setBit (.modeWrite h))
theorem NextMemOk.execQuayLinkUp {qy} (h : s.MemOk) : NextMemOk (execQuayLinkUp qy s) :=
  .ite (.next (.pumpQuay (.quayReport (.setBit h)))) (.next h)
theorem State.MemOk.qpCommand {ctx f} (h : s.MemOk) (hf : ∀ t, t.MemOk → (f t).MemOk) : (s.qpCommand ctx f).MemOk := .ite (hf _ h) h
theorem State.MemOk.qpCmdRefused (h : s.MemOk) : s.qpCmdRefused.MemOk := .setBit h
theorem State.MemOk.qpToReady {n} (h : s.MemOk) : (s.qpToReady n).MemOk := .ite (.setRates (.setQp (.setQpFld h))) (.qpCmdRefused h)
theorem State.MemOk.qpToReset {n} (h : s.MemOk) : (s.qpToReset n).MemOk := .ite (.setQp (.setQpFld h)) (.qpCmdRefused h)
theorem State.MemOk.qpToError {n} (h : s.MemOk) : (s.qpToError n).MemOk := .failQp h
theorem State.MemOk.qpCmdWrite {v} (h : s.MemOk) : (s.qpCmdWrite v).MemOk := by
  unfold State.qpCmdWrite
  dsimp only
  split
  exacts [.qpToReady (.ite (.setBit h) h), .qpToReset (.ite (.setBit h) h), .qpToError (.ite (.setBit h) h), .ite (.setBit h) h]

/-! The functions of Machine/Binding -/

theorem State.MemOk.dropSnaps {ctx} (h : s.MemOk) : (s.dropSnaps ctx).MemOk := .foldl h fun _ _ h1 => .setBit (.setBit h1)
theorem State.MemOk.bindCode {code} (h : s.MemOk) : (s.bindCode code).MemOk := .setFld h
theorem State.MemOk.rebindStart {r} (h : s.MemOk) : (s.rebindStart r).MemOk :=
  .congr (.foldl (.foldl (.stopCores h) fun _ _ => .dropSnaps) fun _ _ => .qpToError) rfl
theorem State.MemOk.rebindCmd {mask} (h : s.MemOk) : (s.rebindCmd mask).MemOk := by
  unfold State.rebindCmd
  split
  exacts [.bindCode h, .rebindStart h]
theorem State.MemOk.abandonReleased {r} (h : s.MemOk) : (s.abandonReleased r).MemOk := .ite h (.report (.bindCode (.setReg (.abandon h))))
theorem NextMemOk.execRebindDrainTimeout (h : s.MemOk) : NextMemOk (execRebindDrainTimeout s) := by
  unfold Machine.execRebindDrainTimeout
  split
  exacts [.ite (.next h) (.next (.congr (.abandonReleased h) rfl)), .next h]
theorem State.MemOk.fenceWindows {ctx} (h : s.MemOk) : (s.fenceWindows ctx).MemOk :=
  .ite (.ite (.ite h (.setFld h)) (.setFld (.ite h (.setFld h)))) (.setFld (.ite (.ite h (.setFld h)) (.setFld (.ite h (.setFld h)))))
theorem State.MemOk.fence {r} (h : s.MemOk) : (s.fence r).MemOk := .congr (.foldl h fun _ _ => .fenceWindows) rfl
theorem State.MemOk.zeroRange {lo hi} (h : s.MemOk) : (s.zeroRange lo hi).MemOk := filter_wf _ h
theorem State.MemOk.resetRegs {lo hi} (h : s.MemOk) : (s.resetRegs lo hi).MemOk := .congr h rfl
theorem State.MemOk.scrubCore {c} (h : s.MemOk) : (s.scrubCore c).MemOk := .congr (.zeroRange (.zeroRange h)) rfl
theorem State.MemOk.scrubCluster {g} (h : s.MemOk) : (s.scrubCluster g).MemOk := by
  unfold State.scrubCluster
  extract_lets t
  have ht : t.MemOk := .resetRegs (.foldl h fun _ _ => .scrubCore)
  clear_value t
  exact .congr ht rfl
theorem State.MemOk.scrubLine {l} (h : s.MemOk) : (s.scrubLine l).MemOk := .resetRegs h
theorem State.MemOk.scrubDsem {p} (h : s.MemOk) : (s.scrubDsem p).MemOk := .setReg (.setReg h)
theorem State.MemOk.scrubQp {n} (h : s.MemOk) : (s.scrubQp n).MemOk := .congr (.setQpFld h) rfl
theorem State.MemOk.scrubBanks {ctx} (h : s.MemOk) : (s.scrubBanks ctx).MemOk := .congr (.foldl h fun _ _ => .resetRegs) rfl
theorem State.MemOk.scrubFault {failed} (h : s.MemOk) : (s.scrubFault failed).MemOk := by
  unfold State.scrubFault
  split
  exacts [h, .via (fun h1 => .ite (.startDisable h1) h1) (.report (.bindCode (.foldl h fun _ _ => .writeUnit)))]
theorem State.MemOk.scrubGranule {g} (h : s.MemOk) : (s.scrubGranule g).MemOk := .ite (.count h) (.zeroRange h)
theorem State.MemOk.scrub {r} (h : s.MemOk) : (s.scrub r).MemOk :=
  .foldl (.foldl (.foldl (.foldl (.foldl (.foldl (.foldl h fun _ _ => .scrubGranule) fun _ _ => .zeroRange) fun _ _ => .scrubCluster) fun
    _ _ => .scrubLine) fun _ _ => .scrubDsem) fun _ _ => .scrubQp) fun _ _ => .scrubBanks
theorem State.MemOk.swap {r} (h : s.MemOk) : (s.swap r).MemOk :=
  .congr (.foldl h fun _ _ h1 => .foldl (.resetRegs h1) fun _ _ => .setReg) rfl

/-! The functions of Machine/Digest -/

theorem State.MemOk.computeStart (h : s.MemOk) : s.computeStart.MemOk := .congr h rfl
theorem State.MemOk.computeCmd (h : s.MemOk) : s.computeCmd.MemOk := .ite (.setBit h) (.ite h (.ite (.congr h rfl) (.computeStart h)))
theorem State.MemOk.swapped {r} (h : s.MemOk) : (s.swapped r).MemOk := .via (fun h1 => .ite (.computeStart h1) h1) (.swap h)
theorem State.MemOk.putDigest {d} (h : s.MemOk) : (s.putDigest d).MemOk := .foldl h fun _ _ => .setReg
theorem State.MemOk.advanceNow (h : s.MemOk) : s.advanceNow.MemOk := .foldl (.congr h rfl) fun _ _ => .setReg
theorem State.MemOk.hashTouch {sect mask} (h : s.MemOk) : (s.hashTouch sect mask).MemOk :=
  .ite h (.foldl (.ite (.wakeAll h) h) fun _ _ h1 => .foldl h1 fun _ _ => .wakeAll)
theorem State.MemOk.formNow (h : s.MemOk) : s.formNow.MemOk := by
  unfold State.formNow
  split
  exacts [.congr (.hashTouch h) rfl, h]
theorem State.MemOk.computed {sect mask} (h : s.MemOk) : (s.computed sect mask).MemOk :=
  .via (fun h1 => .ite (.setBit h1) h1) (.setBit (.putDigest (.congr (.ite h (.hashTouch h)) rfl)))
theorem State.MemOk.fenceNow {r} (h : s.MemOk) : (s.fenceNow r).MemOk := .fence (.formNow h)
theorem NextMemOk.execRebindDrainEnd (h : s.MemOk) : NextMemOk (execRebindDrainEnd s) := by
  unfold Machine.execRebindDrainEnd
  split
  exacts [.ite (.next (.rouse (.unlessGated h (.fenceNow h)))) (.next h), .next h]
theorem NextMemOk.execRebindScrubEnd {failed} (h : s.MemOk) : NextMemOk (execRebindScrubEnd failed s) := by
  unfold Machine.execRebindScrubEnd
  split
  · exact .ite (.next h) (.ite (.next (.rouse h)) (.via (fun h1 => .ite (.next (.congr h1 rfl)) (.next (.swapped h1))) (.scrubFault
      (.scrub h))))
  · exact .next h
theorem State.MemOk.advances {n} (h : s.MemOk) : (s.advances n).MemOk := by
  induction n generalizing s with
  | zero => exact h
  | succ n ih => exact ih (.advanceNow h)
theorem State.MemOk.afterCompute (h : s.MemOk) : s.afterCompute.MemOk :=
  .via (fun h1 => .ite (.advances (.congr h1 rfl)) h1) (by split; exacts [.ite (.swapped h) h, h])
theorem NextMemOk.execComputeEnd (h : s.MemOk) : NextMemOk (execComputeEnd s) := by
  unfold Machine.execComputeEnd
  split
  exacts [.next (.unlessGated h (.afterCompute (.computed h))), .next h]
theorem State.MemOk.advanceCmd (h : s.MemOk) : s.advanceCmd.MemOk := .ite (.congr h rfl) (.advanceNow h)
theorem State.MemOk.computeAdvanceCmd (h : s.MemOk) : s.computeAdvanceCmd.MemOk := .advanceCmd (.computeCmd h)
theorem State.MemOk.epochWrite {v} (h : s.MemOk) : (s.epochWrite v).MemOk := .ite (.report (.setBit h)) (.setFld h)

/-! The functions of Machine/Kerb -/

theorem State.MemOk.putRecord {ctx addr bs} (h : s.MemOk) : (s.putRecord ctx addr bs).MemOk := .tableWrite (.tableWrite (.touched h))
theorem State.MemOk.emitRecord {ctx k r} (h : s.MemOk) : (s.emitRecord ctx k r).MemOk := .ite (.tableWrite (.putRecord h)) (.request h)
theorem State.MemOk.sendKerb {ctx k dest slot bs} (h : s.MemOk) : (s.sendKerb ctx k dest slot bs).MemOk :=
  .emitRecord (.setKerb (.touched h))
theorem State.MemOk.setClosing {ctx k} (h : s.MemOk) : (s.setClosing ctx k).MemOk := .setKerb h
theorem State.MemOk.holdReduced {ctx k bs} (h : s.MemOk) : (s.holdReduced ctx k bs).MemOk := .setClosing (.foldl h fun _ _ => .sendKerb)
theorem State.MemOk.reduceFrom {ctx k j bs} (h : s.MemOk) : (s.reduceFrom ctx k j bs).MemOk := by
  unfold State.reduceFrom
  dsimp only
  split
  exacts [.setClosing h, .setClosing (.sendKerb h), .ite (.holdReduced (.putRecord h)) (.setClosing h)]
theorem State.MemOk.dropStats {ctx n} (h : s.MemOk) : (s.dropStats ctx n).MemOk := .setKerb h
theorem NextMemOk.execKerbCloseMerge {ctx} (h : s.MemOk) : NextMemOk (execKerbCloseMerge ctx s) := by
  unfold Machine.execKerbCloseMerge
  split
  exacts [.next h, .ite (.next h) (.next (.unlessGated h (.reduceFrom (.setKerb (.dropStats (.putRecord (.touchedAll h)))))))]
theorem State.MemOk.refuseRecord {ctx} (h : s.MemOk) : (s.refuseRecord ctx).MemOk := .report h
theorem State.MemOk.recordArrived {ctx slot} (h : s.MemOk) : (s.recordArrived ctx slot).MemOk := by
  unfold State.recordArrived
  dsimp only
  split
  · exact .setKerb h
  · split
    exacts [h, .refuseRecord (.setKerb h), .reduceFrom (.setKerb (.touched (.setKerb h))), .holdReduced (.touched (.setKerb h))]
theorem State.MemOk.putLayers {ctx ls} (h : s.MemOk) : (s.putLayers ctx ls).MemOk :=
  .foldl h fun _ _ h1 => .ite h1 (.tableWrite (.ite h1 (.tableWrite h1)))
theorem State.MemOk.applyDecision {ctx k d} (h : s.MemOk) : (s.applyDecision ctx k d).MemOk :=
  .via (fun h1 => .via (fun h2 => .via (fun h3 => .ite h3 (.report (.setBit (.count h3)))) (.ite h2 (.report (.count h2)))) (.ite (.report
    (.count (.setFld h1))) h1)) (.setBit (.putLayers h))
theorem State.MemOk.kerbDecide {ctx k} (h : s.MemOk) : (s.kerbDecide ctx k).MemOk :=
  .ite (.report (.setBit h)) (.ite h (.via (fun h1 => .ite (.count h1) (.applyDecision h1)) (.touchedAll h)))
theorem State.MemOk.releaseKsteps {ctx} (h : s.MemOk) : (s.releaseKsteps ctx).MemOk :=
  .foldl h fun _ _ h1 => by split; exacts [.ite (.mapFlight h1) h1, h1]
theorem NextMemOk.execKerbDecide {ctx} (h : s.MemOk) : NextMemOk (execKerbDecide ctx s) := by
  unfold Machine.execKerbDecide
  split
  exacts [.next h, .ite (.next h) (.next (.unlessGated h (.releaseKsteps (.setKerb (.kerbDecide h)))))]
theorem NextMemOk.execKerbReduceTimeout {ctx} (h : s.MemOk) : NextMemOk (execKerbReduceTimeout ctx s) := by
  unfold Machine.execKerbReduceTimeout
  split
  exacts [.next h, .ite (.next h) (.next (.report (.setBit (.setClosing h))))]
theorem State.MemOk.closeStep {ctx n} (h : s.MemOk) : (s.closeStep ctx n).MemOk := .setKerb (.setFld h)
theorem State.MemOk.kstepIssue {c q w} (h : s.MemOk) : (s.kstepIssue c q w).st.MemOk := .ite h (.closeStep h)
theorem State.MemOk.kerbStatusWrite {ctx v} (h : s.MemOk) : (s.kerbStatusWrite ctx v).MemOk :=
  .via (fun h1 => .ite h1 (.setKerb (.setFld h1))) (.setFld h)
theorem State.MemOk.discardKstat {ctx} (h : s.MemOk) : (s.discardKstat ctx).MemOk := .ite (.setBit h) (.dropStats h)
theorem State.MemOk.kresend {ctx} (h : s.MemOk) : (s.kresend ctx).MemOk := .ite (.setBit h) (.foldl h fun _ _ => .emitRecord)

/-! The functions of Machine/Matrix -/

theorem State.MemOk.countPick {c q conflict} (h : s.MemOk) : (s.countPick c q conflict).MemOk :=
  .ite (.setQueue (.setQueue (.congr (.ite (.count h) h) rfl))) (.setQueue h)
theorem State.MemOk.leave {c q a} (h : s.MemOk) : (s.leave c q a).MemOk := by
  unfold State.leave
  split
  exacts [.setQueue h, h]
theorem State.MemOk.mmaBad {c q optag a} (h : s.MemOk) : (s.mmaBad c q optag a).MemOk := by
  unfold State.mmaBad
  split
  exacts [.tookTag h, h]
theorem State.MemOk.mmaNull {c q w} (h : s.MemOk) : (s.mmaNull c q w).st.MemOk := by
  unfold State.mmaNull
  dsimp only
  split
  exacts [.count h, .setBuf (.count h)]
theorem State.MemOk.mmaRun {c q w e} (h : s.MemOk) : (s.mmaRun c q w e).st.MemOk := .setBuf (.mmaBad h)
theorem State.MemOk.mmaIssue {c q w e conflict other} (h : s.MemOk) : (s.mmaIssue c q w e conflict other).st.MemOk := by
  unfold State.mmaIssue
  dsimp only
  split
  exacts [.mmaRun (.leave (.countPick h)), .mmaNull (.leave (.countPick h))]
theorem Verdict.MemOk.mmaVerdict {c q w} (h : s.MemOk) : (mmaVerdict s c q w).MemOk := by
  unfold Machine.mmaVerdict
  split
  exacts [trivial, .reading (.issue (.mmaIssue h))]
theorem State.MemOk.workDone {c q f} (h : s.MemOk) : (s.workDone c q f).MemOk := .mapFlight h
theorem NextMemOk.execMmaComplete {c q} (h : s.MemOk) : NextMemOk (execMmaComplete c q s) := by
  unfold Machine.execMmaComplete
  split
  exacts [.ite (.next h) (.next (.workDone h)), .next h]
theorem State.MemOk.drainWrite {c dst bytes x ds f} (h : s.MemOk) : (s.drainWrite c dst bytes x ds f).MemOk :=
  .count (.wrotePoison (.foldl h fun _ _ => .writeUnit))
theorem State.MemOk.mdrnNull {c i} (h : s.MemOk) : (s.mdrnNull c i).st.MemOk := .setBuf (.count h)
theorem State.MemOk.drainCount {c i q w dst x ds f} (h : s.MemOk) : (s.drainCount c i q w dst x ds f).MemOk :=
  .via (fun h1 => .addStat (.ite (.first (.count h1)) h1)) (.count (.count (.count h)))
theorem State.MemOk.mdrnRun {c q w found} (h : s.MemOk) : (s.mdrnRun c q w found).st.MemOk := by
  unfold State.mdrnRun
  dsimp only
  split
  exacts [.setBuf (.drainCount (.drainWrite h)), .nanTrap (.setBuf (.drainCount (.drainWrite h)))]
theorem State.MemOk.mdrnIssue {c q w found} (h : s.MemOk) : (s.mdrnIssue c q w found).st.MemOk := by
  unfold State.mdrnIssue
  split
  exacts [.mdrnNull h, .mdrnRun h]
theorem Verdict.MemOk.mdrnVerdict {c q w found} (h : s.MemOk) : (mdrnVerdict s c q w found).MemOk := .ite trivial (.issue (.mdrnIssue h))
theorem State.MemOk.slotUpdate {ctx x} (h : s.MemOk) : (s.slotUpdate ctx x).MemOk := .ite (.tableWrite (.touched h)) h
theorem NextMemOk.execMdrnComplete {c q} (h : s.MemOk) : NextMemOk (execMdrnComplete c q s) := by
  unfold Machine.execMdrnComplete
  split
  · split
    exacts [.ite (.next h) (.next (.unlessGated h (.workDone (.setBuf (.slotUpdate h))))), .next h]
  · exact .next h

/-! The functions of Machine/Power -/

theorem State.MemOk.powerReport {code src detail} (h : s.MemOk) : (s.powerReport code src detail).MemOk := .report h
theorem State.MemOk.startSwitch {d sel} (h : s.MemOk) : (s.startSwitch d sel).MemOk := .setDie h
theorem State.MemOk.setSrc {d sel} (h : s.MemOk) : (s.setSrc d sel).MemOk := .via (fun h1 => .ite (.setBit h1) h1) (.setFld h)
theorem State.MemOk.switchTo {d sel} (h : s.MemOk) : (s.switchTo d sel).MemOk :=
  .ite h (.ite (.powerReport (.setBit h)) (.ite (.setSrc h) (.startSwitch h)))
theorem State.MemOk.clkSwWrite {d v} (h : s.MemOk) : (s.clkSwWrite d v).MemOk :=
  .via (fun h1 => .ite (.switchTo h1) h1) (.setFld (.setBit h))
theorem State.MemOk.bootClocked (h : s.MemOk) : s.bootClocked.MemOk := .ite (.congr h rfl) h
theorem NextMemOk.execClockUngate {d} (h : s.MemOk) : NextMemOk (execClockUngate d s) := by
  unfold Machine.execClockUngate
  split
  exacts [.next (.bootClocked (.setDie (.setSrc h))), .next h]
theorem NextMemOk.execPllLock {d} (h : s.MemOk) : NextMemOk (execPllLock d s) :=
  .ite (.next h) (.via (fun h1 => .ite (.next (.startSwitch h1)) (.ite (.next h1) (.ite (.next (.setSrc h1)) (.next (.startSwitch h1)))))
    (.setBit h))
theorem State.MemOk.toReference {d} (h : s.MemOk) : (s.toReference d).MemOk :=
  .ite h (.ite (.startSwitch h) (.via (fun h1 => .ite (.setBit h1) (.setSrc h1)) (.setDie (.draw h))))
theorem NextMemOk.execPllUnlock {d} (h : s.MemOk) : NextMemOk (execPllUnlock d s) :=
  .ite (.next h) (.next (.toReference (.powerReport (.countSat (.setBit h)))))
theorem State.MemOk.resetKind {k} (h : s.MemOk) : (s.resetKind k).MemOk := by
  unfold State.resetKind State.MemOk
  dsimp only
  split
  exacts [rfl, h]
theorem State.MemOk.resetFor {c} (h : s.MemOk) : (s.resetFor c).MemOk := .congr (.resetKind (.congr h rfl)) rfl
theorem State.MemOk.pkgRstWrite {v} (h : s.MemOk) : (s.pkgRstWrite v).MemOk := .ite (.resetKind h) h
theorem State.MemOk.wdogWrite {v} (h : s.MemOk) : (s.wdogWrite v).MemOk := .setFld h
theorem NextMemOk.execWdogExpiry (h : s.MemOk) : NextMemOk (execWdogExpiry s) := .ite (.next h) (.next (.resetKind h))
theorem State.MemOk.ioLost (h : s.MemOk) : s.ioLost.MemOk := .congr h rfl
theorem NextMemOk.execSupplyReset (h : s.MemOk) : NextMemOk (execSupplyReset s) := .ite (.next (.resetFor h)) (.next h)
theorem NextMemOk.execReferenceLost (h : s.MemOk) : NextMemOk (execReferenceLost s) := .ite (.next (.resetFor h)) (.next h)
theorem NextMemOk.execReferenceStarted (h : s.MemOk) : NextMemOk (execReferenceStarted s) := .ite (.next (.congr h rfl)) (.next h)
theorem State.MemOk.droop {d mv} (h : s.MemOk) : (s.droop d mv).MemOk := .setBit (.setDie h)
theorem NextMemOk.execDroopWarning {d mv} (h : s.MemOk) : NextMemOk (execDroopWarning d mv s) :=
  .ite (.execSupplyReset h) (.ite (.next (.droop h)) (.next h))
theorem NextMemOk.execDroopHoldExpiry {d lowest} (h : s.MemOk) : NextMemOk (execDroopHoldExpiry d lowest s) := by
  unfold Machine.execDroopHoldExpiry
  dsimp only
  split
  exacts [.ite (.next h) (.next (.powerReport (.countSat (.count (.setBit (.setDie h)))))), .next h]
theorem NextMemOk.execDroopPersistExpiry {d} (h : s.MemOk) : NextMemOk (execDroopPersistExpiry d s) :=
  .ite (.next (.powerReport (.setDie h))) (.next h)
theorem NextMemOk.execDipThrottleEnd {d} (h : s.MemOk) : NextMemOk (execDipThrottleEnd d s) := .ite (.next (.setDie h)) (.next h)
theorem State.MemOk.thermal {d t} (h : s.MemOk) : (s.thermal d t).MemOk :=
  .via (fun h1 => .ite (.powerReport h1) h1) (.setFld (.setFld h))
theorem NextMemOk.execThermalReading {d tj} (h : s.MemOk) : NextMemOk (execThermalReading d tj s) :=
  .ite (.ite (.next h) (.next (.resetFor (.congr h rfl)))) (.next (.thermal (.ite (.congr h rfl) h)))
theorem State.MemOk.band {st t} (h : s.MemOk) : (s.band st t).MemOk := .via (fun h1 => .ite (.report h1) h1) (.setStack (.setReg h))
theorem State.MemOk.stackThrottle {st t} (h : s.MemOk) : (s.stackThrottle st t).MemOk :=
  .via (fun h1 => .ite (.powerReport h1) h1) (.setStack h)
theorem NextMemOk.execThrotNAssert (h : s.MemOk) : NextMemOk (execThrotNAssert s) := .ite (.next (.powerReport (.congr h rfl))) (.next h)
theorem NextMemOk.execAvsStep {d ok} (h : s.MemOk) : NextMemOk (execAvsStep d ok s) :=
  .ite (.next h) (.ite (.next (.setDie (.setFld (.send h)))) (.via (fun h1 => .ite (.next (.powerReport (.setBit h1))) (.next h1))
    (.setDie (.send h))))
theorem State.MemOk.bootZero (h : s.MemOk) : s.bootZero.MemOk := filter_wf _ h
theorem State.MemOk.bootState (h : s.MemOk) : s.bootState.MemOk :=
  .via (fun h1 => .via (fun h2 => .ite h2 (.setFld h2)) (.ite (.setBit (.ite (.setBit h1) h1)) (.ite (.setBit h1) h1))) (.foldl (.congr h
    rfl) fun _ _ h1 => .ite (.setBit h1) h1)
theorem NextMemOk.execBootScrubEnd {failed} (h : s.MemOk) : NextMemOk (execBootScrubEnd failed s) :=
  .ite (.next h) (.next (.sendDue (.congr (.powerReport (.scrubFault (.bootZero (.bootState h)))) rfl)))

/-! The functions of Machine/SyncRegs -/

theorem State.MemOk.semWrite {k v} (h : s.MemOk) : (s.semWrite k v).MemOk := .setSem h
theorem State.MemOk.setMaskBit {l c x} (h : s.MemOk) : (s.setMaskBit l c x).MemOk := .ite (.setBit h) (.setBit h)
theorem State.MemOk.writeMask {ctx l hi v} (h : s.MemOk) : (s.writeMask ctx l hi v).MemOk :=
  .foldl h fun _ _ h1 => by split; exacts [.setMaskBit h1, h1]
theorem State.MemOk.maskWrite {ctx l hi v} (h : s.MemOk) : (s.maskWrite ctx l hi v).MemOk := .checkLine (.writeMask h)
theorem NextMemOk.execXrdMaskWrite {ctx line hi v} (h : s.MemOk) : NextMemOk (execXrdMaskWrite ctx line hi v s) := by
  unfold Machine.execXrdMaskWrite
  split
  exacts [.next (.violation h), .next (.maskWrite h)]
theorem State.MemOk.forceLine {l} (h : s.MemOk) : (s.forceLine l).MemOk := .countSat (.releaseLine h)
theorem NextMemOk.execXrdForce {ctx line} (h : s.MemOk) : NextMemOk (execXrdForce ctx line s) :=
  .ite (.next (.forceLine h)) (.next (.violation h))
theorem State.MemOk.mbEmpty {g ch} (h : s.MemOk) : (s.mbEmpty g ch).MemOk := .congr h rfl
theorem State.MemOk.mbCfg {g ch v} (h : s.MemOk) : (s.mbCfg g ch v).MemOk := .mbEmpty (.setReg h)
theorem State.MemOk.dbmask {g v} (h : s.MemOk) : (s.dbmask g v).MemOk := .ite (.congr h rfl) (.setReg h)

/-! The functions of Machine/Registers -/

theorem State.MemOk.shown {b o} (h : s.MemOk) : (s.shown b o).MemOk := by
  unfold State.shown
  split
  exacts [.ite (.showStalls h) h, h]
theorem State.MemOk.readClear {b o} (h : s.MemOk) : (s.readClear b o).MemOk := by
  unfold State.readClear
  split
  exacts [.via (fun h1 => .ite h1 (.setReg h1)) (.shown h), h]
theorem State.MemOk.plainWrite {b o v} (h : s.MemOk) : (s.plainWrite b o v).MemOk := by
  unfold State.plainWrite
  split
  exacts [.ite h (.setReg h), h]
theorem State.MemOk.pkgWrite {o v} (h : s.MemOk) : (s.pkgWrite o v).MemOk :=
  .ite (.pkgRstWrite h) (.ite (.wdogWrite h) (.ite (.congr h rfl) h))
theorem State.MemOk.xrdWrite {ctx o v} (h : s.MemOk) : (s.xrdWrite ctx o v).MemOk :=
  .ite h (.ite (.maskWrite h) (.ite (.maskWrite h) (.ite (.ite (.forceLine h) (.violation h)) h)))
theorem State.MemOk.cfgWrite {o v} (h : s.MemOk) : (s.cfgWrite o v).MemOk := by
  unfold State.cfgWrite
  split
  · split
    exacts [.computeCmd h, .advanceCmd h, .computeAdvanceCmd h, h]
  · exact .ite (.epochWrite h) (.plainWrite h)
theorem State.MemOk.raiseSvn (h : s.MemOk) : s.raiseSvn.MemOk := by
  unfold State.raiseSvn
  split
  exacts [.congr h rfl, h]
theorem State.MemOk.mgtWrite {o v} (h : s.MemOk) : (s.mgtWrite o v).MemOk := .ite (.ite (.raiseSvn h) h) (.plainWrite h)
theorem State.MemOk.bindWrite {o v} (h : s.MemOk) : (s.bindWrite o v).MemOk := .ite (.ite (.rebindCmd h) h) (.plainWrite h)
theorem State.MemOk.replayWrite {ctx v} (h : s.MemOk) : (s.replayWrite ctx v).MemOk := by
  unfold State.replayWrite
  dsimp only
  split
  exacts [.discardKstat (.ite (.setBit h) h), .kresend (.ite (.setBit h) h), .ite (.setBit h) h]
theorem State.MemOk.bankedWrite {o v} (h : s.MemOk) : (s.bankedWrite o v).MemOk := by
  unfold State.bankedWrite
  dsimp only
  split
  · exact .kerbStatusWrite h
  · exact .snapWrite h
  · exact .snapWrite h
  · exact .snapWrite h
  · exact .snapWrite h
  · exact .cstepWrite h
  · exact .ite (.qpCmdWrite h) h
  · exact .replayWrite h
  · exact .plainWrite h
theorem State.MemOk.dieWrite {d o v} (h : s.MemOk) : (s.dieWrite d o v).MemOk :=
  .ite (.bankedWrite h) (.ite (.errDisableWrite h) (.ite (.clkSwWrite h) (.ite (.gateWrite h) (.ite (.semWrite h) (.plainWrite h)))))
theorem State.MemOk.imgCmdWrite {ctx g v} (h : s.MemOk) : (s.imgCmdWrite ctx g v).MemOk := by
  unfold State.imgCmdWrite
  dsimp only
  split
  exacts [.loadAwake h, .awake h fun _ => .startCores, .stopCores h, h]
theorem State.MemOk.cluWrite {ctx g o v} (h : s.MemOk) : (s.cluWrite ctx g o v).MemOk :=
  .ite h (.ite (.imgCmdWrite h) (.ite (.semWrite h) (.ite (.mbCfg h) (.ite (.dbmask h) (.plainWrite h)))))
theorem State.MemOk.qctlWrite {ctx c v} (h : s.MemOk) : (s.qctlWrite ctx c v).MemOk := by
  unfold State.qctlWrite
  dsimp only
  split
  exacts [.awake h fun _ => .startMask, .stopQueues h, h]
theorem State.MemOk.queueBankWrite {c o v} (h : s.MemOk) : (s.queueBankWrite c o v).MemOk :=
  .ite (.setQueue h) (.ite (.ite (.setReg h) h) (.plainWrite h))
theorem State.MemOk.coreWrite {ctx c o v} (h : s.MemOk) : (s.coreWrite ctx c o v).MemOk :=
  .ite h (.ite (.qctlWrite h) (.ite (.queueBankWrite h) (.ite (.ite (.setReg h) h) (.ite (.ite (.plainWrite h) (.violation h)) (.ite
    (.pickWrite h) (.ite (.ite (.setFld h) h) (.ite (.semWrite h) (.plainWrite h))))))))
theorem State.MemOk.stkWrite {st o v} (h : s.MemOk) : (s.stkWrite st o v).MemOk :=
  .ite (.stkCtrlWrite h) (.ite (.echoWrite h) (.plainWrite h))
theorem State.MemOk.quayWrite {qy o v} (h : s.MemOk) : (s.quayWrite qy o v).MemOk := .ite (.quayCtrlWrite h) (.plainWrite h)
theorem State.MemOk.regWrite {ctx b o v} (h : s.MemOk) : (s.regWrite ctx b o v).MemOk := by
  unfold State.regWrite
  split
  · exact .pkgWrite h
  · exact .xrdWrite h
  · exact .ite (.cfgWrite h) (.violation h)
  · exact .mgtWrite h
  · exact .bindWrite h
  · exact .dieWrite h
  · exact .cluWrite h
  · exact .coreWrite h
  · exact .stkWrite h
  · exact .quayWrite h
theorem NextMemOk.execRegisterRead {ctx addr width} (h : s.MemOk) : NextMemOk (execRegisterRead ctx addr width s) :=
  .via (fun h1 => .ite (.next h1) (.next (.send h1))) (.accessed h fun _ _ => .readClear h)

/-! The functions of Machine/Mgmt -/

theorem State.MemOk.secEvent {code} (h : s.MemOk) : (s.secEvent code).MemOk :=
  .via (fun h1 => .send (.ite h1 (.setFld (.setBit h1)))) (.countSat h)
theorem State.MemOk.reply {peer cmd status payload} (h : s.MemOk) : (s.reply peer cmd status payload).MemOk := .send h
theorem State.MemOk.authFail {peer cmd needsKey} (h : s.MemOk) : (s.authFail peer cmd needsKey).MemOk :=
  .via (fun h1 => .ite (.reply h1) h1) (.secEvent (.countSat h))
theorem State.MemOk.tookSeq {dg} (h : s.MemOk) : (s.tookSeq dg).MemOk := .ite (.congr h rfl) h
theorem State.MemOk.datagram {dg cmd payload needsKey f} (h : s.MemOk) (hf : ∀ t, t.MemOk → (f t).MemOk) :
    (s.datagram dg cmd payload needsKey f).MemOk :=
  .ite h (.ite (hf _ (.tookSeq h)) (.authFail h))
theorem State.MemOk.replyFailed {peer cmd} (h : s.MemOk) : (s.replyFailed peer cmd).MemOk := .reply h
theorem State.MemOk.regReadCmd {peer addr} (h : s.MemOk) : (s.regReadCmd peer addr).MemOk := by
  unfold State.regReadCmd
  split
  exacts [.reply h, .reply (.readClear h), .reply h]
theorem State.MemOk.regWriteCmd {peer addr v} (h : s.MemOk) : (s.regWriteCmd peer addr v).MemOk := by
  unfold State.regWriteCmd
  split
  exacts [.reply h, .reply (.regWrite h), .reply h]
theorem State.MemOk.resetCmd {peer} (h : s.MemOk) : (s.resetCmd peer).MemOk := .ite (.congr h rfl) (.resetKind (.reply h))
theorem State.MemOk.fetchCmd {peer first count} (h : s.MemOk) : (s.fetchCmd peer first count).MemOk := .ite (.reply h) (.replyFailed h)
theorem State.MemOk.freeRecords {seq} (h : s.MemOk) : (s.freeRecords seq).MemOk := .congr h rfl
theorem State.MemOk.stageCmd {peer offset bs} (h : s.MemOk) : (s.stageCmd peer offset bs).MemOk :=
  .ite (.reply (.congr h rfl)) (.replyFailed h)
theorem State.MemOk.runImage {img} (h : s.MemOk) : (s.runImage img).MemOk := .congr h rfl
theorem State.MemOk.recovCmd {peer} (h : s.MemOk) : (s.recovCmd peer).MemOk := by
  unfold State.recovCmd
  split
  · exact .replyFailed h
  · split
    exacts [.reply (.secEvent h), .runImage (.reply h)]
theorem State.MemOk.commitCmd {dg} (h : s.MemOk) : (s.commitCmd dg).MemOk := by
  unfold State.commitCmd
  split
  exacts [.reply (.secEvent h), .congr h rfl]
theorem State.MemOk.setKey {inSession key} (h : s.MemOk) : (s.setKey inSession key).MemOk := .ite h (.ite (.congr h rfl) (.send h))
theorem State.MemOk.measureCmd {i} (h : s.MemOk) : (s.measureCmd i).MemOk :=
  .ite h (.ite (.send h) (.ite (.send h) (.ite (.foldl h fun _ _ => .send) (.send h))))
theorem State.MemOk.sensorCmd {id} (h : s.MemOk) : (s.sensorCmd id).MemOk := .ite h (.send h)
theorem NextMemOk.execPldmSensorUpdate {amps} (h : s.MemOk) : NextMemOk (execPldmSensorUpdate amps s) :=
  .ite (.next h) (.next (.congr h rfl))
theorem State.MemOk.indexUsed {q} (h : s.MemOk) : (s.indexUsed q).MemOk :=
  .via (fun h1 => .ite h1 (.secEvent (.congr h1 rfl))) (.congr h rfl)
theorem State.MemOk.sign {digest} (h : s.MemOk) : (s.sign digest).MemOk := .indexUsed (.send (.congr h rfl))
theorem State.MemOk.signCmd {d} (h : s.MemOk) : (s.signCmd d).MemOk :=
  .ite h (.ite (.send h) (.ite (.send h) (.ite (.congr h rfl) (.sign h))))
theorem State.MemOk.handle {i} (h : s.MemOk) : (s.handle i).MemOk := by
  unfold State.handle
  split
  · exact .datagram h fun _ => .regReadCmd
  · exact .datagram h fun _ => .regWriteCmd
  · exact .datagram h fun _ => .resetCmd
  · exact .datagram h fun _ => .fetchCmd
  · exact .datagram h fun _ h1 => .reply (.freeRecords h1)
  · exact .datagram h fun _ => .stageCmd
  · exact .datagram h fun _ => .recovCmd
  · exact .datagram h fun _ => .commitCmd
  · exact .datagram h fun _ h1 => .ite (.reply (.secEvent h1)) h1
  · exact .ite (.congr h rfl) h
  · exact .setKey h
  · exact .measureCmd h
  · exact .sensorCmd h
  · exact .signCmd h
  · exact h
theorem State.MemOk.ask {i} (h : s.MemOk) : (s.ask i).MemOk := .ite (.congr h rfl) (.handle h)
theorem State.MemOk.handleWaiting {n} (h : s.MemOk) : (s.handleWaiting n).MemOk := by
  induction n generalizing s with
  | zero => exact h
  | succ n ih =>
    unfold State.handleWaiting
    split
    exacts [h, .ite h (ih (.handle h))]
theorem State.MemOk.nextRequests (h : s.MemOk) : s.nextRequests.MemOk := .handleWaiting h
theorem NextMemOk.execReset {dg} (h : s.MemOk) : NextMemOk (execReset dg s) := .ite (.next (.handle h)) (.next (.ask h))
theorem NextMemOk.execJournalEntryProgrammed (h : s.MemOk) : NextMemOk (execJournalEntryProgrammed s) := by
  unfold Machine.execJournalEntryProgrammed
  dsimp only
  split
  exacts [.next h, .next (.nextRequests (.signCmd (.congr h rfl)))]
theorem NextMemOk.execBottomTreeBuilt (h : s.MemOk) : NextMemOk (execBottomTreeBuilt s) := .ite (.next (.congr h rfl)) (.next h)
theorem State.MemOk.imageWritten {dg img ok} (h : s.MemOk) : (s.imageWritten dg img ok).MemOk :=
  .via (fun h1 => .ite (.resetKind h) (.ite (.nextRequests (.reply (.congr h1 rfl))) (.nextRequests (.reply (.secEvent h1))))) (.congr h
    rfl)
theorem State.MemOk.tableWritten {ok} (h : s.MemOk) : (s.tableWritten ok).MemOk := .ite h (.ite (.congr h rfl) (.secEvent (.congr h rfl)))
theorem NextMemOk.execFlashWriteEnd {ok} (h : s.MemOk) : NextMemOk (execFlashWriteEnd ok s) := by
  unfold Machine.execFlashWriteEnd
  split
  exacts [.next (.imageWritten h), .next (.tableWritten h)]
theorem State.MemOk.recovery {code} (h : s.MemOk) : (s.recovery code).MemOk := .sendDue (.congr (.secEvent (.secEvent h)) rfl)
theorem NextMemOk.execBootImageVerify (h : s.MemOk) : NextMemOk (execBootImageVerify s) := by
  unfold Machine.execBootImageVerify
  extract_lets m t
  have ht : t.MemOk := .congr h rfl
  clear_value t
  refine .ite (.next h) (.ite (.next (.recovery ht)) ?_)
  split
  exacts [.next (.recovery ht), .next (.runImage ht)]
theorem State.MemOk.lmsInit (h : s.MemOk) : s.lmsInit.MemOk :=
  .via (fun h1 => .via (fun h2 => .ite (.secEvent h2) h2) (.ite (.secEvent h1) h1)) (.congr h rfl)
theorem State.MemOk.loadTable (h : s.MemOk) : s.loadTable.MemOk := by
  unfold State.loadTable
  split
  exacts [.congr h rfl, .secEvent h]
theorem NextMemOk.execFirmwareInitEnd (h : s.MemOk) : NextMemOk (execFirmwareInitEnd s) := by
  refine .ite (.next h) (.next ?_)
  have init : ({ s.loadTable with time1 := s.time } : State).lmsInit.MemOk := .lmsInit (.congr (.loadTable h) rfl)
  exact .congr init rfl

/-! The functions of Machine/Receive -/

theorem State.MemOk.pauseCheck {qy cls} (h : s.MemOk) : (s.pauseCheck qy cls).MemOk :=
  .ite h (.ite (.send (.setRx h)) (.ite (.send (.setRx h)) h))
theorem State.MemOk.park {qy cls kind p} (h : s.MemOk) : (s.park qy cls kind p).MemOk :=
  .ite h (.ite (.pauseCheck (.setRx (.draw (.count (.foldl h fun _ _ => .writeUnit))))) (.pauseCheck (.setRx h)))
theorem State.MemOk.serve {qy kind p} (h : s.MemOk) : (s.serve qy kind p).MemOk := by
  unfold State.serve
  split
  · exact .servedRead h
  · exact .servedWrite h
  · exact .servedWriteMasked h
  · exact .servedFadd h
  · exact .servedCas h
  · exact .servedCtrlWrite h
  · exact .servedReadResp h
  · exact .servedAck h
  · exact .servedAtomicResp h
  · exact .servedRnr h
  · exact .servedNakSeq h
  · exact .servedRefuse h
  · exact h
theorem State.MemOk.receive {qy kind p} (h : s.MemOk) : (s.receive qy kind p).MemOk :=
  .ite h (.ite (.drop h) (.via (fun h1 => .ite (.park h1) (.ite (.serve h1) (.park (.rouse h1)))) (.count (.count h))))
theorem State.MemOk.drainRx {qy cls n} (h : s.MemOk) : (s.drainRx qy cls n).MemOk := by
  induction n generalizing s with
  | zero => exact h
  | succ n ih =>
    unfold State.drainRx
    dsimp only
    split
    exacts [h, .ite (ih (.drop (.pauseCheck h))) (.ite (ih (.serve (.pauseCheck h))) (.rouse h))]
theorem State.MemOk.drainAll (h : s.MemOk) : s.drainAll.MemOk := .foldl h fun _ _ => .drainRx

/-! The functions of Machine/Vector -/

theorem State.MemOk.vecLand {c ws} (h : s.MemOk) : (s.vecLand c ws).MemOk := .wrotePoison (.landAll h)
theorem State.MemOk.vopCount {c q w v count diffs} (h : s.MemOk) : (s.vopCount c q w v count diffs).MemOk := by
  unfold State.vopCount
  dsimp only
  split
  exacts [.count (.count h), .first (.count (.count (.count h)))]
theorem State.MemOk.vopIssue {c q w found} (h : s.MemOk) : (s.vopIssue c q w found).st.MemOk := by
  unfold State.vopIssue
  extract_lets x ctx r rds t₁ t₂ t₃ err
  have h₃ : t₃.MemOk := .vopCount (.tookErrs (.count (.count (.vecLand h))))
  clear_value t₃ err r
  refine .iteSt h ?_
  split
  exacts [h₃, .nanTrap h₃]
theorem State.MemOk.vxaddIssue {c q w} (h : s.MemOk) : (s.vxaddIssue c q w).st.MemOk := by
  unfold State.vxaddIssue
  dsimp only
  split
  · exact h
  · split
    exacts [.nanTrap (.tookTag (.wrotePoison (.writeUnit h))), .tookTag (.wrotePoison (.writeUnit h))]

/-! The functions of Machine/Wake -/

theorem State.MemOk.runWoken {i} (h : s.MemOk) : (s.runWoken i).MemOk := by
  unfold State.runWoken
  split
  · exact .atCore h fun _ => .startMask h
  · exact .atClu h fun _ => .startCores h
  · exact .windowWrite h
  · exact .atClu h fun _ => .loadAwake h
  · exact .nextTest h
  · exact h
theorem NextMemOk.execWakeEnd {g} (h : s.MemOk) : NextMemOk (execWakeEnd g s) := by
  unfold Machine.execWakeEnd
  split
  exacts [.next h, .next (.drainAll (.resumeGathers (.foldl (.congr h rfl) fun _ _ => .runWoken)))]

/-! The functions of Machine/Dispatch -/

theorem NextMemOk.execNop {c q w} (h : s.MemOk) : NextMemOk (execNop c q w s) := .next (.runHead h fun _ h1 => .issue h1)
theorem NextMemOk.execEnd {c q w} (h : s.MemOk) : NextMemOk (execEnd c q w s) := .next (.runHead h fun _ h1 => .issue h1)
theorem NextMemOk.execLoop {c q w} (h : s.MemOk) : NextMemOk (execLoop c q w s) := .next (.runHead h fun _ => .loopVerdict)
theorem NextMemOk.execSeed {c q w} (h : s.MemOk) : NextMemOk (execSeed c q w s) := .next (.runHead h fun _ h1 => .issue (.setReg h1))
theorem NextMemOk.execSmov {c q w} (h : s.MemOk) : NextMemOk (execSmov c q w s) := .next (.runHead h fun _ => .scalar)
theorem NextMemOk.execSmovh {c q w} (h : s.MemOk) : NextMemOk (execSmovh c q w s) := .next (.runHead h fun _ => .scalar)
theorem NextMemOk.execSadd {c q w} (h : s.MemOk) : NextMemOk (execSadd c q w s) := .next (.runHead h fun _ => .scalar)
theorem NextMemOk.execSsub {c q w} (h : s.MemOk) : NextMemOk (execSsub c q w s) := .next (.runHead h fun _ => .scalar)
theorem NextMemOk.execSmul {c q w} (h : s.MemOk) : NextMemOk (execSmul c q w s) := .next (.runHead h fun _ => .scalar)
theorem NextMemOk.execSand {c q w} (h : s.MemOk) : NextMemOk (execSand c q w s) := .next (.runHead h fun _ => .scalar)
theorem NextMemOk.execSor {c q w} (h : s.MemOk) : NextMemOk (execSor c q w s) := .next (.runHead h fun _ => .scalar)
theorem NextMemOk.execSxor {c q w} (h : s.MemOk) : NextMemOk (execSxor c q w s) := .next (.runHead h fun _ => .scalar)
theorem NextMemOk.execSshl {c q w} (h : s.MemOk) : NextMemOk (execSshl c q w s) := .next (.runHead h fun _ => .scalar)
theorem NextMemOk.execSshr {c q w} (h : s.MemOk) : NextMemOk (execSshr c q w s) := .next (.runHead h fun _ => .scalar)
theorem NextMemOk.execSld {c q w} (h : s.MemOk) : NextMemOk (execSld c q w s) := .next (.runHead h fun _ h1 => .issue (.tookTag h1))
theorem NextMemOk.execSst {c q w} (h : s.MemOk) : NextMemOk (execSst c q w s) := .next (.runHead h fun _ h1 => .issue (.writePart h1))
theorem NextMemOk.execDadd {c q w} (h : s.MemOk) : NextMemOk (execDadd c q w s) :=
  .next (.runHead h fun _ h1 => .via (fun h2 => .issue (.ite (.writePart h2) h2)) (.tookTag h1))
theorem NextMemOk.execSemset {c q w} (h : s.MemOk) : NextMemOk (execSemset c q w s) :=
  .next (.runHead h fun _ h1 => by split; exacts [trivial, .issue (.setSem h1)])
theorem NextMemOk.execMbsend {c q w} (h : s.MemOk) : NextMemOk (execMbsend c q w s) :=
  .next (.runHead h fun _ h1 => .ite trivial (by split; exacts [trivial, .mbsendVerdict h1]))
theorem NextMemOk.execMbrecv {c q w} (h : s.MemOk) : NextMemOk (execMbrecv c q w s) :=
  .next (.runHead h fun _ h1 => .ite trivial (.ite trivial (.issue (.setBit (.writeUnit h1)))))
theorem NextMemOk.execMma {c q w} (h : s.MemOk) : NextMemOk (execMma c q w s) := .next (.runHead h fun _ => .mmaVerdict)
theorem NextMemOk.execMdrn {c q w f} (h : s.MemOk) : NextMemOk (execMdrn c q w f s) := .next (.runHead h fun _ => .mdrnVerdict)
theorem NextMemOk.execVop {c q w f} (h : s.MemOk) : NextMemOk (execVop c q w f s) :=
  .next (.runHead h fun _ h1 => .ite trivial (by split; exacts [trivial, .issue (.vopIssue h1)]))
theorem NextMemOk.execVxadd {c q w} (h : s.MemOk) : NextMemOk (execVxadd c q w s) :=
  .next (.runHead h fun _ h1 => .ite trivial (.ite (.issue (.vxaddIssue h1)) trivial))
theorem NextMemOk.execLdq {c q w} (h : s.MemOk) : NextMemOk (execLdq c q w s) := .next (.runHead h fun _ => .ldqVerdict)
theorem NextMemOk.execLdmCopy {c q w} (h : s.MemOk) : NextMemOk (execLdmCopy c q w s) := .next (.runHead h fun _ => .copyVerdict)
theorem NextMemOk.execStmCopy {c q w} (h : s.MemOk) : NextMemOk (execStmCopy c q w s) := .next (.runHead h fun _ => .copyVerdict)
theorem NextMemOk.execStq {c q w} (h : s.MemOk) : NextMemOk (execStq c q w s) :=
  .next (.runHead h fun _ h1 => .routed (by split; exacts [trivial, .issue (.stqIssue h1)]))
theorem NextMemOk.execAtom {c q w} (h : s.MemOk) : NextMemOk (execAtom c q w s) := .next (.runHead h fun _ => .atomVerdict)
theorem NextMemOk.execUpd {c q w} (h : s.MemOk) : NextMemOk (execUpd c q w s) := .next (.runHead h fun _ => .updVerdict)
theorem NextMemOk.execCommit {c q w} (h : s.MemOk) : NextMemOk (execCommit c q w s) :=
  .next (.runHead h fun _ h1 => .reading (by split; exacts [trivial, .issue (.commitIssue h1)]))
theorem NextMemOk.execKstep {c q w} (h : s.MemOk) : NextMemOk (execKstep c q w s) :=
  .next (.runHead h fun _ h1 => by split; exacts [trivial, .issue (.kstepIssue h1)])
theorem NextMemOk.execSnap {c q w} (h : s.MemOk) : NextMemOk (execSnap c q w s) := .next (.runHead h fun _ h1 => .issue (.snapWrite h1))
theorem NextMemOk.execKerbRecordArrival {ctx slot} (h : s.MemOk) : NextMemOk (execKerbRecordArrival ctx slot s) :=
  .next (.unlessGated h (.recordArrived (.wakeAll h)))
theorem NextMemOk.execQueueStart {ctx vc mask} (h : s.MemOk) : NextMemOk (execQueueStart ctx vc mask s) :=
  .next (.atCore h fun _ => .awake h fun _ => .startMask)
theorem NextMemOk.execQueueStop {ctx vc mask} (h : s.MemOk) : NextMemOk (execQueueStop ctx vc mask s) :=
  .next (.atCore h fun _ => .stopQueues h)
theorem NextMemOk.execClusterStart {ctx vg mask} (h : s.MemOk) : NextMemOk (execClusterStart ctx vg mask s) :=
  .next (.atClu h fun _ => .awake h fun _ => .startCores)
theorem NextMemOk.execClusterStop {ctx vg mask} (h : s.MemOk) : NextMemOk (execClusterStop ctx vg mask s) :=
  .next (.atClu h fun _ => .stopCores h)
theorem NextMemOk.execImageLoad {ctx vg} (h : s.MemOk) : NextMemOk (execImageLoad ctx vg s) := .next (.atClu h fun _ => .loadAwake h)
theorem NextMemOk.execPcWrite {ctx vc q v} (h : s.MemOk) : NextMemOk (execPcWrite ctx vc q v s) := .next (.atCore h fun _ => .setQueue h)
theorem NextMemOk.execScalarRegisterWrite {ctx vc q n v} (h : s.MemOk) : NextMemOk (execScalarRegisterWrite ctx vc q n v s) :=
  .next (.atCore h fun _ => .ite (.setSreg h) h)
theorem NextMemOk.execCoreSeedWrite {ctx vc n v} (h : s.MemOk) : NextMemOk (execCoreSeedWrite ctx vc n v s) :=
  .next (.atCore h fun _ => .ite (.setReg h) h)
theorem NextMemOk.execDtbaseWrite {ctx vc v} (h : s.MemOk) : NextMemOk (execDtbaseWrite ctx vc v s) :=
  .next (.atCore h fun _ => .ite (.setFld h) h)
theorem NextMemOk.execPickWrite {ctx vc v} (h : s.MemOk) : NextMemOk (execPickWrite ctx vc v s) := .next (.atCore h fun _ => .pickWrite h)
theorem NextMemOk.execWindowWrite {ctx addr bytes} (h : s.MemOk) : NextMemOk (execWindowWrite ctx addr bytes s) := .next (.windowWrite h)
theorem NextMemOk.execKerbStatusStepWrite {ctx bank v} (h : s.MemOk) : NextMemOk (execKerbStatusStepWrite ctx bank v s) :=
  .next (.bankWrite h fun _ => .kerbStatusWrite h)
theorem NextMemOk.execPipeSnapArm {ctx bank n v} (h : s.MemOk) : NextMemOk (execPipeSnapArm ctx bank n v s) :=
  .next (.bankWrite h fun _ => .snapWrite h)
theorem NextMemOk.execPipeSnapDone {ctx bank n v} (h : s.MemOk) : NextMemOk (execPipeSnapDone ctx bank n v s) :=
  .next (.bankWrite h fun _ => .snapWrite h)
theorem NextMemOk.execSemValueWrite {ctx addr v} (h : s.MemOk) : NextMemOk (execSemValueWrite ctx addr v s) :=
  .next (.accessed h fun _ _ => .ite (.semWrite h) h)
theorem NextMemOk.execMbCfgWrite {ctx vg ch v} (h : s.MemOk) : NextMemOk (execMbCfgWrite ctx vg ch v s) :=
  .next (.atClu h fun _ => .mbCfg h)
theorem NextMemOk.execDbmaskWrite {ctx vg v} (h : s.MemOk) : NextMemOk (execDbmaskWrite ctx vg v s) := .next (.atClu h fun _ => .dbmask h)
theorem NextMemOk.execOfflineWrite {ctx st v} (h : s.MemOk) : NextMemOk (execOfflineWrite ctx st v s) :=
  .next (.asRoot h fun _ => .stkCtrlWrite)
theorem NextMemOk.execEchoGo {ctx st ch v} (h : s.MemOk) : NextMemOk (execEchoGo ctx st ch v s) := .next (.asRoot h fun _ => .echoWrite)
theorem NextMemOk.execQuayModeWrite {ctx qy v} (h : s.MemOk) : NextMemOk (execQuayModeWrite ctx qy v s) :=
  .next (.asRoot h fun _ => .quayCtrlWrite)
theorem NextMemOk.execQuayEnWrite {ctx qy v} (h : s.MemOk) : NextMemOk (execQuayEnWrite ctx qy v s) :=
  .next (.asRoot h fun _ => .quayCtrlWrite)
theorem NextMemOk.execQuayLinkDown {qy} (h : s.MemOk) : NextMemOk (execQuayLinkDown qy s) := .next (.linkDown h)
theorem NextMemOk.execQpReady {ctx qp} (h : s.MemOk) : NextMemOk (execQpReady ctx qp s) := .next (.qpCommand h fun _ => .qpToReady)
theorem NextMemOk.execQpReset {ctx qp} (h : s.MemOk) : NextMemOk (execQpReset ctx qp s) := .next (.qpCommand h fun _ => .qpToReset)
theorem NextMemOk.execQpError {ctx qp} (h : s.MemOk) : NextMemOk (execQpError ctx qp s) := .next (.qpCommand h fun _ => .qpToError)
theorem NextMemOk.execRebind {ctx mask} (h : s.MemOk) : NextMemOk (execRebind ctx mask s) := .next (.asRoot h fun _ => .rebindCmd)
theorem NextMemOk.execCompute {ctx} (h : s.MemOk) : NextMemOk (execCompute ctx s) := .next (.asRoot h fun _ => .computeCmd)
theorem NextMemOk.execAdvance {ctx} (h : s.MemOk) : NextMemOk (execAdvance ctx s) := .next (.asRoot h fun _ => .advanceCmd)
theorem NextMemOk.execComputeThenAdvance {ctx} (h : s.MemOk) : NextMemOk (execComputeThenAdvance ctx s) :=
  .next (.asRoot h fun _ => .computeAdvanceCmd)
theorem NextMemOk.execEpochWrite {ctx v} (h : s.MemOk) : NextMemOk (execEpochWrite ctx v s) := .next (.asRoot h fun _ => .epochWrite)
theorem NextMemOk.execDiscardKstat {ctx bank} (h : s.MemOk) : NextMemOk (execDiscardKstat ctx bank s) :=
  .next (.bankWrite h fun _ => .discardKstat h)
theorem NextMemOk.execKresend {ctx bank} (h : s.MemOk) : NextMemOk (execKresend ctx bank s) := .next (.bankWrite h fun _ => .kresend h)
theorem NextMemOk.execErrDisableGo {ctx d src} (h : s.MemOk) : NextMemOk (execErrDisableGo ctx d src s) :=
  .next (.asRoot h fun _ => .disableGo)
theorem NextMemOk.execErrDisableEnable {ctx d src} (h : s.MemOk) : NextMemOk (execErrDisableEnable ctx d src s) :=
  .next (.asRoot h fun _ => .disableEnable)
theorem NextMemOk.execPkgRstWarm {ctx v} (h : s.MemOk) : NextMemOk (execPkgRstWarm ctx v s) := .next (.asRoot h fun _ => .pkgRstWrite)
theorem NextMemOk.execWdogKick {ctx v} (h : s.MemOk) : NextMemOk (execWdogKick ctx v s) := .next (.asRoot h fun _ => .wdogWrite)
theorem NextMemOk.execClockSwitch {ctx d v} (h : s.MemOk) : NextMemOk (execClockSwitch ctx d v s) :=
  .next (.asRoot h fun _ => .clkSwWrite)
theorem NextMemOk.execGateRequest {ctx d v} (h : s.MemOk) : NextMemOk (execGateRequest ctx d v s) := .next (.asRoot h fun _ => .gateWrite)
theorem NextMemOk.execSvnRaise {ctx v} (h : s.MemOk) : NextMemOk (execSvnRaise ctx v s) :=
  .next (.asRoot h fun _ h1 => .ite (.raiseSvn h1) h1)
theorem NextMemOk.execRegisterWrite {ctx addr width v} (h : s.MemOk) : NextMemOk (execRegisterWrite ctx addr width v s) :=
  .next (.accessed h fun _ _ => .regWrite h)
theorem NextMemOk.execRegRead {dg addr} (h : s.MemOk) : NextMemOk (execRegRead dg addr s) := .next (.ask h)
theorem NextMemOk.execRegWrite {dg addr v} (h : s.MemOk) : NextMemOk (execRegWrite dg addr v s) := .next (.ask h)
theorem NextMemOk.execRptFetch {dg first count} (h : s.MemOk) : NextMemOk (execRptFetch dg first count s) := .next (.ask h)
theorem NextMemOk.execRptAck {dg seq} (h : s.MemOk) : NextMemOk (execRptAck dg seq s) := .next (.ask h)
theorem NextMemOk.execStageChunk {dg offset bytes} (h : s.MemOk) : NextMemOk (execStageChunk dg offset bytes s) := .next (.ask h)
theorem NextMemOk.execRecovBoot {dg} (h : s.MemOk) : NextMemOk (execRecovBoot dg s) := .next (.ask h)
theorem NextMemOk.execFlashCommit {dg} (h : s.MemOk) : NextMemOk (execFlashCommit dg s) := .next (.ask h)
theorem NextMemOk.execMgmtCmdReserved {dg cmd payload} (h : s.MemOk) : NextMemOk (execMgmtCmdReserved dg cmd payload s) := .next (.ask h)
theorem NextMemOk.execSetMgmtKey {inSession key} (h : s.MemOk) : NextMemOk (execSetMgmtKey inSession key s) := .next (.ask h)
theorem NextMemOk.execGetMeasurements {index} (h : s.MemOk) : NextMemOk (execGetMeasurements index s) := .next (.ask h)
theorem NextMemOk.execPldmSensorRead {id} (h : s.MemOk) : NextMemOk (execPldmSensorRead id s) := .next (.ask h)
theorem NextMemOk.execSignatureRequest {digest} (h : s.MemOk) : NextMemOk (execSignatureRequest digest s) := .next (.ask h)
theorem NextMemOk.execResetRelease (h : s.MemOk) : NextMemOk (execResetRelease s) := .next (.congr h rfl)
theorem NextMemOk.execPowerOnReset (h : s.MemOk) : NextMemOk (execPowerOnReset s) := .next (.resetFor (.draw (.ite (.ioLost h) h)))
theorem NextMemOk.execPinReset (h : s.MemOk) : NextMemOk (execPinReset s) := .next (.resetFor h)
theorem NextMemOk.execRefcountRestart (h : s.MemOk) : NextMemOk (execRefcountRestart s) := .next h
theorem NextMemOk.execDramTempReading {st t} (h : s.MemOk) : NextMemOk (execDramTempReading st t s) := .next (.stackThrottle (.band h))
theorem NextMemOk.execThrotNRelease (h : s.MemOk) : NextMemOk (execThrotNRelease s) := .next (.congr h rfl)
theorem NextMemOk.execRefresh {st} (h : s.MemOk) : NextMemOk (execRefresh st s) := .next (.setStack h)
theorem NextMemOk.execRead {qy p} (h : s.MemOk) : NextMemOk (execRead qy p s) := .next (.receive h)
theorem NextMemOk.execWrite {qy p} (h : s.MemOk) : NextMemOk (execWrite qy p s) := .next (.receive h)
theorem NextMemOk.execWriteMasked {qy p} (h : s.MemOk) : NextMemOk (execWriteMasked qy p s) := .next (.receive h)
theorem NextMemOk.execFadd {qy p} (h : s.MemOk) : NextMemOk (execFadd qy p s) := .next (.receive h)
theorem NextMemOk.execCas {qy p} (h : s.MemOk) : NextMemOk (execCas qy p s) := .next (.receive h)
theorem NextMemOk.execCtrlWrite {qy p} (h : s.MemOk) : NextMemOk (execCtrlWrite qy p s) := .next (.receive h)
theorem NextMemOk.execReadResp {qy p} (h : s.MemOk) : NextMemOk (execReadResp qy p s) := .next (.receive h)
theorem NextMemOk.execAck {qy p} (h : s.MemOk) : NextMemOk (execAck qy p s) := .next (.receive h)
theorem NextMemOk.execAtomicResp {qy p} (h : s.MemOk) : NextMemOk (execAtomicResp qy p s) := .next (.receive h)
theorem NextMemOk.execRnr {qy p} (h : s.MemOk) : NextMemOk (execRnr qy p s) := .next (.receive h)
theorem NextMemOk.execRnrDelayExpiry {qp} (h : s.MemOk) : NextMemOk (execRnrDelayExpiry qp s) := .next (.repeatQp h)
theorem NextMemOk.execNakSeq {qy p} (h : s.MemOk) : NextMemOk (execNakSeq qy p s) := .next (.receive h)
theorem NextMemOk.execRefuse {qy p} (h : s.MemOk) : NextMemOk (execRefuse qy p s) := .next (.receive h)
theorem NextMemOk.execEpochRetry {qp} (h : s.MemOk) : NextMemOk (execEpochRetry qp s) := .next (.repeatQp h)
theorem NextMemOk.execPfcStormEnd {qy cls} (h : s.MemOk) : NextMemOk (execPfcStormEnd qy cls s) := .next (.setBit h)
theorem NextMemOk.execUpdStepCstepWrite {ctx bank v} (h : s.MemOk) : NextMemOk (execUpdStepCstepWrite ctx bank v s) :=
  .next (.bankWrite h fun _ => .cstepWrite h)
theorem NextMemOk.execVddCoreRecovery {d mv} (h : s.MemOk) : NextMemOk (execVddCoreRecovery d mv s) := .next (.setDie h)
theorem NextMemOk.execKeyExchange (h : s.MemOk) : NextMemOk (execKeyExchange s) := .next (.ask h)
theorem NextMemOk.exec {i} (h : s.MemOk) : NextMemOk (exec i s) := by
  cases i with
  | nop => exact .execNop h
  | end_ => exact .execEnd h
  | loop => exact .execLoop h
  | seed => exact .execSeed h
  | smov => exact .execSmov h
  | smovh => exact .execSmovh h
  | sadd => exact .execSadd h
  | ssub => exact .execSsub h
  | smul => exact .execSmul h
  | sand => exact .execSand h
  | sor => exact .execSor h
  | sxor => exact .execSxor h
  | sshl => exact .execSshl h
  | sshr => exact .execSshr h
  | sld => exact .execSld h
  | sst => exact .execSst h
  | dadd => exact .execDadd h
  | semset => exact .execSemset h
  | xarr => exact .execXarr h
  | mbsend => exact .execMbsend h
  | mbDelivery => exact .execMbDelivery h
  | mbTimeout => exact .execMbTimeout h
  | mbrecv => exact .execMbrecv h
  | mma => exact .execMma h
  | mmaComplete => exact .execMmaComplete h
  | mdrn => exact .execMdrn h
  | mdrnComplete => exact .execMdrnComplete h
  | vop => exact .execVop h
  | vxadd => exact .execVxadd h
  | ldq => exact .execLdq h
  | ldmCopy => exact .execLdmCopy h
  | stmCopy => exact .execStmCopy h
  | stq => exact .execStq h
  | atom => exact .execAtom h
  | upd => exact .execUpd h
  | updComplete => exact .execUpdComplete h
  | commit => exact .execCommit h
  | commitFlip => exact .execCommitFlip h
  | kstep => exact .execKstep h
  | snap => exact .execSnap h
  | instructionComplete => exact .execInstructionComplete h
  | instructionFetch => exact .execInstructionFetch h
  | signal => exact .execSignal h
  | kerbCloseMerge => exact .execKerbCloseMerge h
  | kerbRecordArrival => exact .execKerbRecordArrival h
  | kerbDecide => exact .execKerbDecide h
  | kerbReduceTimeout => exact .execKerbReduceTimeout h
  | queueStart => exact .execQueueStart h
  | wakeEnd => exact .execWakeEnd h
  | queueStop => exact .execQueueStop h
  | clusterStart => exact .execClusterStart h
  | clusterStop => exact .execClusterStop h
  | imageLoad => exact .execImageLoad h
  | imageLoadEnd => exact .execImageLoadEnd h
  | pcWrite => exact .execPcWrite h
  | scalarRegisterWrite => exact .execScalarRegisterWrite h
  | coreSeedWrite => exact .execCoreSeedWrite h
  | dtbaseWrite => exact .execDtbaseWrite h
  | pickWrite => exact .execPickWrite h
  | windowWrite => exact .execWindowWrite h
  | kerbStatusStepWrite => exact .execKerbStatusStepWrite h
  | pipeSnapArm => exact .execPipeSnapArm h
  | pipeSnapDone => exact .execPipeSnapDone h
  | semValueWrite => exact .execSemValueWrite h
  | xrdMaskWrite => exact .execXrdMaskWrite h
  | xrdForce => exact .execXrdForce h
  | mbCfgWrite => exact .execMbCfgWrite h
  | dbmaskWrite => exact .execDbmaskWrite h
  | offlineWrite => exact .execOfflineWrite h
  | echoGo => exact .execEchoGo h
  | echoRunEnd => exact .execEchoRunEnd h
  | quayModeWrite => exact .execQuayModeWrite h
  | quayEnWrite => exact .execQuayEnWrite h
  | quayLinkUp => exact .execQuayLinkUp h
  | quayLinkDown => exact .execQuayLinkDown h
  | qpReady => exact .execQpReady h
  | qpReset => exact .execQpReset h
  | qpError => exact .execQpError h
  | rebind => exact .execRebind h
  | rebindDrainTimeout => exact .execRebindDrainTimeout h
  | rebindDrainEnd => exact .execRebindDrainEnd h
  | rebindScrubEnd => exact .execRebindScrubEnd h
  | compute => exact .execCompute h
  | computeEnd => exact .execComputeEnd h
  | advance => exact .execAdvance h
  | computeThenAdvance => exact .execComputeThenAdvance h
  | epochWrite => exact .execEpochWrite h
  | discardKstat => exact .execDiscardKstat h
  | kresend => exact .execKresend h
  | errDisableGo => exact .execErrDisableGo h
  | errDisableEnable => exact .execErrDisableEnable h
  | unitDisableMark => exact .execUnitDisableMark h
  | pkgRstWarm => exact .execPkgRstWarm h
  | wdogKick => exact .execWdogKick h
  | wdogExpiry => exact .execWdogExpiry h
  | clockSwitch => exact .execClockSwitch h
  | clockUngate => exact .execClockUngate h
  | gateRequest => exact .execGateRequest h
  | gateEnter => exact .execGateEnter h
  | svnRaise => exact .execSvnRaise h
  | registerWrite => exact .execRegisterWrite h
  | regRead => exact .execRegRead h
  | regWrite => exact .execRegWrite h
  | reset => exact .execReset h
  | rptFetch => exact .execRptFetch h
  | rptAck => exact .execRptAck h
  | stageChunk => exact .execStageChunk h
  | recovBoot => exact .execRecovBoot h
  | flashCommit => exact .execFlashCommit h
  | mgmtCmdReserved => exact .execMgmtCmdReserved h
  | setMgmtKey => exact .execSetMgmtKey h
  | getMeasurements => exact .execGetMeasurements h
  | pldmSensorRead => exact .execPldmSensorRead h
  | signatureRequest => exact .execSignatureRequest h
  | journalEntryProgrammed => exact .execJournalEntryProgrammed h
  | bottomTreeBuilt => exact .execBottomTreeBuilt h
  | flashWriteEnd => exact .execFlashWriteEnd h
  | resetRelease => exact .execResetRelease h
  | powerOnReset => exact .execPowerOnReset h
  | supplyReset => exact .execSupplyReset h
  | pinReset => exact .execPinReset h
  | referenceLost => exact .execReferenceLost h
  | referenceStarted => exact .execReferenceStarted h
  | refcountRestart => exact .execRefcountRestart h
  | pllLock => exact .execPllLock h
  | pllUnlock => exact .execPllUnlock h
  | bootImageVerify => exact .execBootImageVerify h
  | firmwareInitEnd => exact .execFirmwareInitEnd h
  | bootScrubEnd => exact .execBootScrubEnd h
  | droopWarning => exact .execDroopWarning h
  | droopHoldExpiry => exact .execDroopHoldExpiry h
  | droopPersistExpiry => exact .execDroopPersistExpiry h
  | dipThrottleEnd => exact .execDipThrottleEnd h
  | thermalReading => exact .execThermalReading h
  | dramTempReading => exact .execDramTempReading h
  | throtNAssert => exact .execThrotNAssert h
  | throtNRelease => exact .execThrotNRelease h
  | avsStep => exact .execAvsStep h
  | stackRead => exact .execStackRead h
  | correctedWriteback => exact .execCorrectedWriteback h
  | maskedWrite => exact .execMaskedWrite h
  | patrolScrub => exact .execPatrolScrub h
  | sramPatrol => exact .execSramPatrol h
  | refresh => exact .execRefresh h
  | flitReplay => exact .execFlitReplay h
  | dieLinkRetrainEnd => exact .execDieLinkRetrainEnd h
  | dramParityFail => exact .execDramParityFail h
  | channelRetrainEnd => exact .execChannelRetrainEnd h
  | selfTestStart => exact .execSelfTestStart h
  | selfTestEnd => exact .execSelfTestEnd h
  | rowRepairEnd => exact .execRowRepairEnd h
  | read => exact .execRead h
  | write => exact .execWrite h
  | writeMasked => exact .execWriteMasked h
  | fadd => exact .execFadd h
  | cas => exact .execCas h
  | ctrlWrite => exact .execCtrlWrite h
  | readResp => exact .execReadResp h
  | ack => exact .execAck h
  | atomicResp => exact .execAtomicResp h
  | rnr => exact .execRnr h
  | rnrDelayExpiry => exact .execRnrDelayExpiry h
  | nakSeq => exact .execNakSeq h
  | refuse => exact .execRefuse h
  | epochRetry => exact .execEpochRetry h
  | retransmitTimeout => exact .execRetransmitTimeout h
  | congestionNotification => exact .execCongestionNotification h
  | ccTick => exact .execCcTick h
  | pauseFrame => exact .execPauseFrame h
  | pfcWatchdogExpiry => exact .execPfcWatchdogExpiry h
  | pfcStormEnd => exact .execPfcStormEnd h
  | managementFrame => exact .execManagementFrame h
  | droppedFrame => exact .execDroppedFrame h
  | registerRead => exact .execRegisterRead h
  | updStepCstepWrite => exact .execUpdStepCstepWrite h
  | vddCoreRecovery => exact .execVddCoreRecovery h
  | pldmSensorUpdate => exact .execPldmSensorUpdate h
  | keyExchange => exact .execKeyExchange h

/-! The functions of Machine/Tick -/

theorem State.MemOk.tickStalls (h : s.MemOk) : s.tickStalls.MemOk :=
  .foldl h fun _ _ h1 => .ite h1 (.ite (.count (.showStalls h1)) (.showStalls h1))
theorem State.MemOk.tickThrottle (h : s.MemOk) : s.tickThrottle.MemOk := .foldl h fun _ _ h1 => .ite h1 (.setFld h1)
theorem State.MemOk.tickHours (h : s.MemOk) : s.tickHours.MemOk := .ite (.congr h rfl) h
theorem State.MemOk.setTimes {x y} (h : s.MemOk) : ({ s with time := x, time1 := y } : State).MemOk := h
theorem State.MemOk.noCycle (h : s.MemOk) : ({ s with cycle := none } : State).MemOk := h
theorem State.MemOk.setPending {x} (h : s.MemOk) : ({ s with pending := x } : State).MemOk := h
theorem State.MemOk.tick (h : s.MemOk) : s.tick.MemOk := by
  unfold State.tick
  exact .ite (.sendDue (.tickHours (.setTimes (.tickThrottle (.tickStalls (.noCycle h)))))) (.noCycle h)

end MemOk

/-- Settles O4: each command's function, and the tick, keeps canonical form because the functions it is made of do. -/
theorem stepKeepsMemOk : Obligations.StepKeepsMemOk := by
  intro s t h hst
  unfold step at hst
  split at hst
  · cases hst
    exact .tick h
  · exact NextMemOk.exec (.setPending h) t hst

end Sys2Proof.Machine

/-! SUPPORT. What serving a packet at a quay leaves alone, and the requests that pass every check (R26, R354 to R361). -/

namespace Sys2Proof.Machine

section PortKeys

/-- The registers that serving a packet may change: counts of reports and errors (R407, R408), mailbox channels and doorbells (R310),
CORE_WINDROP (R26), STK_UNCORR (R337) and the counters of a quay (R374). -/
def PortKey (k : Nat) : Prop :=
  (0x8340000 ≤ k ∧ k < 0x8341000) ∨ k = 0x8350010 ∨
  (0x10000000 ≤ k ∧ k < 0x11000000 ∧ 0x4200 ≤ k % 0x100000 ∧ k % 0x100000 ≤ 0x4400) ∨
  (0x20000000 ≤ k ∧ k < 0x20600000 ∧ k % 0x10000 = 0x28) ∨
  (0x30000000 ≤ k ∧ k < 0x30C00000 ∧ k % 0x100000 = 0x28) ∨
  (0x40000000 ≤ k ∧ k < 0x40800000 ∧ 0x140 ≤ k % 0x100000 ∧ k % 0x100000 < 0x178)

variable {ctx c g st qy d o : Nat}

theorem portKey_err (h : ctx < 16) (ho : o < 0x100) : PortKey (errK ctx o) := by
  unfold PortKey errK; omega
theorem portKey_report : PortKey (dieK 0 0x350010) := by
  unfold PortKey dieK; omega
theorem portKey_mail (h : g < 16) (ho : 0x4200 ≤ o ∧ o ≤ 0x4400) : PortKey (cluK g o) := by
  unfold PortKey cluK; omega
theorem portKey_windrop (h : c < 96) : PortKey (coreK c 0x28) := by
  unfold PortKey coreK; omega
theorem portKey_uncorr (h : st < 12) : PortKey (stkK st 0x28) := by
  unfold PortKey stkK; omega
theorem portKey_quay (h : qy < 8) (ho : 0x140 ≤ o ∧ o < 0x178) : PortKey (quayK qy o) := by
  unfold PortKey quayK; omega

theorem not_portKey_bind (h : ctx < 16) (ho : o < 0x10000) : ¬PortKey (bindK ctx o) := by
  unfold PortKey bindK; omega
theorem not_portKey_fab (h : ctx < 16) (ho : o < 0x100) : ¬PortKey (fabK ctx o) := by
  unfold PortKey fabK; omega
theorem not_portKey_gate : ¬PortKey (gateK g) := by
  unfold PortKey gateK dieK; omega
theorem not_portKey_stk (ho : o < 0x28) : ¬PortKey (stkK st o) := by
  unfold PortKey stkK; omega
theorem not_portKey_quay (h : qy < 8) (ho : o < 0x140) : ¬PortKey (quayK qy o) := by
  unfold PortKey quayK; omega
theorem not_portKey_sreg (q : Queue) (h : c < 96) (ho : 0x80 ≤ o ∧ o < 0x100) : ¬PortKey (qK c q o) := by
  have : qnum q < 6 := by cases q <;> decide
  unfold PortKey qK coreK; omega

end PortKeys

section Served

variable {s t u : State} {us vs ks : List Nat} {ctx n k : Nat}

/-- `t` follows `s` by work at a quay: memory differs at most in the units `us`, registers at most in those of `PortKey`, and no queue pair
has more or less waiting to be sent. -/
structure State.Served (s t : State) (us : List Nat) : Prop where
  frame : t = { s with
    mem := t.mem, tags := t.tags, bases := t.bases, regs := t.regs, qps := t.qps, ring := t.ring, unsent := t.unsent,
    lostSince := t.lostSince, tx := t.tx, msgs := t.msgs, sigs := t.sigs }
  regs : ∀ k, ¬PortKey k → t.reg k = s.reg k
  units : s.UnitsBut t us
  waits : ∀ n, (t.qp n).waiting = (s.qp n).waiting

theorem State.Served.refl (s : State) (us : List Nat) : s.Served s us := ⟨rfl, fun _ _ => rfl, fun _ _ => rfl, fun _ => rfl⟩

theorem State.Served.trans (h : s.Served t us) (h' : t.Served u us) : s.Served u us := by
  obtain ⟨frame, regs, units, waits⟩ := h
  obtain ⟨frame', regs', units', waits'⟩ := h'
  refine ⟨?_, fun k hk => (regs' k hk).trans (regs k hk), fun x hx => (units' x hx).trans (units x hx),
    fun n => (waits' n).trans (waits n)⟩
  rw [frame] at frame'
  exact frame'

theorem State.Served.mono (h : s.Served t us) (hs : ∀ x ∈ us, x ∈ vs) : s.Served t vs :=
  ⟨h.frame, h.regs, fun x hx => h.units x fun hu => hx (hs _ hu), h.waits⟩

theorem State.Served.ite {c : Prop} {_ : Decidable c} (ht : s.Served t us) (hu : s.Served u us) : s.Served (if c then t else u) us := by
  split <;> assumption

theorem State.OnlyRegs.served (h : s.OnlyRegs t ks) (hk : ∀ k ∈ ks, PortKey k) : s.Served t us := by
  obtain ⟨frame, regs⟩ := h
  have rest : t.mem = s.mem ∧ t.qps = s.qps := by rw [frame]; exact ⟨rfl, rfl⟩
  refine ⟨by rw [frame], fun k hn => regs k fun hm => hn (hk k hm), fun x _ => by rw [rest.1], fun n => ?_⟩
  rw [State.qp, rest.2]; rfl

theorem State.count_served (hk : PortKey k) (n : Nat) : s.Served (s.count k n) us :=
  (s.count_only k n).served (by simpa using hk)

theorem State.Reported.served (h : s.Reported t ctx []) (hctx : ctx < 16) : s.Served t us := by
  obtain ⟨frame, regs⟩ := h
  have rest : t.mem = s.mem ∧ t.qps = s.qps := by rw [frame]; exact ⟨rfl, rfl⟩
  refine ⟨by rw [frame], fun k hn => regs k fun hm => hn ?_, fun x _ => by rw [rest.1], fun n => ?_⟩
  · simp only [List.nil_append, reportKeys, List.mem_cons, List.not_mem_nil, or_false] at hm
    rcases hm with rfl | rfl
    · exact portKey_report
    · exact portKey_err hctx (by decide)
  · rw [State.qp, rest.2]; rfl

theorem State.send_served (x : Tx) : s.Served (s.send x) us := ⟨rfl, fun _ _ => rfl, fun _ _ => rfl, fun _ => rfl⟩

theorem State.setQp_served {x : QpSt} (h : x.waiting = (s.qp n).waiting) : s.Served (s.setQp n x) us := by
  refine ⟨rfl, fun _ _ => rfl, fun _ _ => rfl, fun m => ?_⟩
  by_cases hm : m = n
  · subst hm
    rw [State.qp, State.setQp, tgetD_tset_self, h]
  · rw [State.qp, State.setQp, tgetD_tset_ne _ _ _ hm]; rfl

/-! What such work does not decide: whether memory answers, where addresses lead, and whether clusters and cores run. -/

theorem State.Served.fuses (h : s.Served t us) : t.fuses = s.fuses := by rw [h.frame]
theorem State.Served.queues (h : s.Served t us) : t.queues = s.queues := by rw [h.frame]
theorem State.Served.bufs (h : s.Served t us) : t.bufs = s.bufs := by rw [h.frame]
theorem State.Served.disabled (h : s.Served t us) : t.disabled = s.disabled := by rw [h.frame]
theorem State.Served.faults (h : s.Served t us) : t.faults = s.faults := by rw [h.frame]
theorem State.Served.paused (h : s.Served t us) : t.paused = s.paused := by rw [h.frame]

theorem State.Served.isDisabled (h : s.Served t us) (x : Nat) : t.isDisabled x = s.isDisabled x := by
  rw [State.isDisabled, h.disabled]; rfl
theorem State.Served.cluUp (h : s.Served t us) (g : Nat) : t.cluUp g = s.cluUp g := by
  rw [State.cluUp, State.present, h.fuses, h.isDisabled]; rfl
theorem State.Served.coreUp (h : s.Served t us) (c : Nat) : t.coreUp c = s.coreUp c := by
  rw [State.coreUp, h.cluUp, h.isDisabled]; rfl
theorem State.Served.scalarsKept (h : s.Served t us) : s.ScalarsKept t := fun c q i =>
  h.regs _ (not_portKey_sreg q c.isLt (by omega))
theorem State.Served.awake (h : s.Served t us) (ha : s.Awake) : t.Awake := fun g => by
  rw [State.gate, State.regFld, h.regs _ not_portKey_gate]
  exact ha g

theorem State.Served.deadAt (h : s.Served t us) (pa : Nat) : t.deadAt pa = s.deadAt pa := by
  unfold State.deadAt
  by_cases hst : pa < stackEnd
  · simp only [if_pos hst, State.regBit, h.regs _ (not_portKey_stk (by decide : 0 < 0x28)),
      h.regs _ (not_portKey_stk (by decide : 8 < 0x28)), h.isDisabled, h.faults]
    rfl
  · simp only [if_neg hst, h.cluUp, h.coreUp]

theorem State.Served.shutCore (h : s.Served t us) (own : Option Nat) (pa : Nat) : t.shutCore own pa = s.shutCore own pa := by
  simp only [State.shutCore, State.coreStopped, State.queue, h.queues]
  rfl

theorem State.Served.localPlace (h : s.Served t us) (hctx : ctx < 16) (o : Nat) : t.localPlace ctx o = s.localPlace ctx o := by
  have bound : ∀ v, v < 0x10000 → t.reg (bindK ctx v) = s.reg (bindK ctx v) := fun v hv => h.regs _ (not_portKey_bind hctx hv)
  have clu : ∀ v, t.cluOf ctx v = s.cluOf ctx v := fun v => by
    unfold State.cluOf
    by_cases hv : v < 16
    · simp only [State.regBit, State.regFld, bound (8 * v) (by omega)]; rfl
    · simp [hv]
  have share : ∀ v, t.shareOf ctx v = s.shareOf ctx v := fun v => by
    unfold State.shareOf
    by_cases hv : v < 16
    · simp only [State.regBit, State.regFld, bound (0x100 + 8 * v) (by omega)]; rfl
    · simp [hv]
  have gran : ∀ v, t.granOf ctx v = s.granOf ctx v := fun v => by
    unfold State.granOf
    by_cases hv : v < 768
    · simp only [State.regBit, State.regFld, State.short, h.fuses, bound (0x800 + 8 * v) (by omega)]; rfl
    · simp [hv]
  simp only [State.localPlace, clu, share, gran]

theorem State.Served.place (h : s.Served t us) (hctx : ctx < 16) (a : Nat) : t.place ctx a = s.place ctx a := by
  simp only [State.place, h.localPlace hctx, h.fuses]

theorem State.Served.qpPlace (h : s.Served t us) (n i : Nat) : t.qpPlace n i = s.qpPlace n i := by
  rw [State.qpPlace, State.regFld, h.regs _ (not_portKey_fab (by decide) (by decide)), h.localPlace (by decide)]; rfl

theorem State.Served.qpEntry (h : s.Served t us) (n : Nat) : t.qpEntry n = s.qpEntry n := by
  rw [State.qpEntry, h.qpPlace]; rfl

end Served

section Units

variable {s t : State} {us : List Nat} {m m' : List Host.Cell} {a n pa ctx o k : Nat} {bs : List Byte}

theorem memRead_congr (h : ∀ x, a ≤ x → x < a + n → memByte m x = memByte m' x) : memRead m a n = memRead m' a n := by
  rw [memRead_eq, memRead_eq]
  refine List.map_congr_left fun i hi => ?_
  have := List.mem_range.mp hi
  exact h _ (by omega) (by omega)

/-- Bytes that lie in one unit, and in none of those that may differ, read as before. -/
theorem State.UnitsBut.memRead (h : s.UnitsBut t us) (hn : a % 64 + n ≤ 64) (hu : a / 64 * 64 ∉ us) :
    memRead t.mem a n = memRead s.mem a n :=
  memRead_congr fun x hl hr => h x (by rwa [show x / 64 * 64 = a / 64 * 64 by omega])

/-- What was written reads back. -/
theorem memRead_memWrite (h : a ≤ k) (hn : k + n ≤ a + bs.length) :
    memRead (memWrite m a bs) k n = (bs.drop (k - a)).take n := by
  rw [memRead_eq]
  refine List.ext_getElem (by simp; omega) fun i h1 h2 => ?_
  have hi : i < n := by simpa using h1
  have hk : k - a + i < bs.length := by omega
  simp only [List.getElem_map, List.getElem_range, List.getElem_take, List.getElem_drop]
  rw [show k + i = a + (k - a + i) by omega, memByte_memWrite_in m a _ bs hk]

/-- What is patched in is found where it was put. -/
theorem take_drop_patch {l : List Byte} {i : Nat} (h : i + bs.length ≤ l.length) : ((patch l i bs).drop i).take bs.length = bs := by
  have hi : (l.take i).length = i := by simp; omega
  rw [patch, List.append_assoc, List.drop_append_of_le_length (by omega), List.drop_eq_nil_of_le (by omega), List.nil_append,
    List.take_left]

theorem patch_length {l : List Byte} {i : Nat} (h : i + bs.length ≤ l.length) : (patch l i bs).length = l.length := by
  simp [patch]; omega

/-- Whether memory answers is the same all over a unit. -/
theorem State.deadAt_unit (h : k / 64 = pa / 64) : s.deadAt k = s.deadAt pa := by
  have stack : k < stackEnd ↔ pa < stackEnd := by unfold stackEnd; omega
  have gal : k < galEnd ↔ pa < galEnd := by unfold galEnd; omega
  have cham : k < chamEnd ↔ pa < chamEnd := by unfold chamEnd; omega
  have pch : pchOf k = pchOf pa := by
    have : (k % 0x1000000000) >>> 8 = (pa % 0x1000000000) >>> 8 := by simp only [Nat.shiftRight_eq_div_pow]; omega
    simp only [pchOf, this]
  have st : k / 0x1000000000 = pa / 0x1000000000 := by omega
  have gr : k / 0x40000000 = pa / 0x40000000 := by omega
  have share : (k - galBase) / 0x8000000 = (pa - galBase) / 0x8000000 := by unfold galBase; omega
  have core : (k - chamBase) / 0x400000 = (pa - chamBase) / 0x400000 := by unfold chamBase; omega
  have imem : (k - imemBase) / 0x40000 = (pa - imemBase) / 0x40000 := by unfold imemBase; omega
  simp only [State.deadAt, stack, gal, cham, pch, st, gr, share, core, imem]

theorem memRead_length : (memRead m a n).length = n := by simp [memRead_eq]

/-- The bytes of a unit, as read: zeros where memory does not answer (R28, R325, R337). -/
theorem State.readUnit_data : (s.readUnit pa).data = if s.deadAt pa = none then memRead s.mem (pa / 64 * 64) 64 else zeros 64 := by
  unfold State.readUnit
  split <;> next e => simp [e]

theorem State.readUnit_length : (s.readUnit pa).data.length = 64 := by
  rw [State.readUnit_data]
  split
  · exact memRead_length
  · simp [zeros]

theorem unitsOf_one (hn : 0 < n) (h : pa % 64 + n ≤ 64) : unitsOf pa n = [pa / 64 * 64] := by
  have : (pa + n - 1) / 64 - pa / 64 + 1 = 1 := by omega
  rw [unitsOf, if_neg (by omega), this]
  simp

/-- Bytes of one unit, as read. -/
theorem State.readBytes_data (hn : 0 < n) (h : pa % 64 + n ≤ 64) :
    (s.readBytes pa n).data = if s.deadAt pa = none then memRead s.mem pa n else zeros n := by
  have dead : s.deadAt (pa / 64 * 64) = s.deadAt pa := State.deadAt_unit (by omega)
  simp only [State.readBytes, unitsOf_one hn h, List.map_cons, List.map_nil, List.flatten_cons, List.flatten_nil, List.append_nil,
    State.readUnit_data, dead]
  split
  · rw [show pa / 64 * 64 / 64 * 64 = pa / 64 * 64 by omega, memRead_eq, memRead_eq]
    refine List.ext_getElem (by simp; omega) fun i h1 h2 => ?_
    simp only [List.getElem_take, List.getElem_drop, List.getElem_map, List.getElem_range]
    rw [show pa / 64 * 64 + (pa % 64 + i) = pa + i by omega]
  · rw [zeros, List.drop_replicate, List.take_replicate, zeros, show min n (64 - pa % 64) = n by omega]

end Units

section Writes

variable {s t u : State} {us : List Nat} {pa ctx n i k : Nat} {bs : List Byte} {x : W16} {poison : Bool}

theorem State.deadAt_offline (h : s.deadAt pa = some .offline) : pa < stackEnd := by
  by_contra hn
  rw [State.deadAt, if_neg hn] at h
  by_cases gal : pa < galEnd
  · rw [if_pos gal] at h; split at h <;> cases h
  rw [if_neg gal] at h
  by_cases cham : pa < chamEnd
  · rw [if_pos cham] at h; split at h <;> cases h
  · rw [if_neg cham] at h; split at h <;> cases h

/-- A write of a unit changes memory and, where a stack is offline, its count of discarded writes (R331, R337). -/
theorem State.writeUnitX_frame (s : State) (pa : Nat) (bs : List Byte) (x : W16) :
    s.writeUnitX pa bs x = { s with
      mem := (s.writeUnitX pa bs x).mem, tags := (s.writeUnitX pa bs x).tags, bases := (s.writeUnitX pa bs x).bases,
      regs := (s.writeUnitX pa bs x).regs } := by
  unfold State.writeUnitX
  split
  · rw [(s.count_only _ _).1]
  · rfl
  · rfl

theorem State.writeUnitX_reg (h : ∀ st, k ≠ stkK st 0x28) : (s.writeUnitX pa bs x).reg k = s.reg k := by
  unfold State.writeUnitX
  split
  · rw [State.reg_count, if_neg (h _)]
  · rfl
  · rfl

theorem State.writeUnitX_mem (h : s.deadAt pa = none) : (s.writeUnitX pa bs x).mem = memWrite s.mem (pa / 64 * 64) (bs.take 64) := by
  simp only [State.writeUnitX, h]

/-- A write of a unit changes that unit. -/
theorem State.writeUnitX_served (hu : pa / 64 * 64 ∈ us) : s.Served (s.writeUnitX pa bs x) us := by
  cases dead : s.deadAt pa with
  | none =>
    refine ⟨by rw [s.writeUnitX_frame pa bs x], fun k hk => ?_, fun y hy => ?_, fun n => ?_⟩
    · simp only [State.writeUnitX, dead]; rfl
    · rw [State.writeUnitX_mem dead, memByte_memWrite_out]
      have len : (bs.take 64).length ≤ 64 := List.length_take_le _ _
      have ne : y / 64 * 64 ≠ pa / 64 * 64 := fun e => hy (e ▸ hu)
      omega
    · rw [s.writeUnitX_frame pa bs x]; rfl
  | some d =>
    cases d with
    | offline =>
      have st : pa / 0x1000000000 < 12 := by have := State.deadAt_offline dead; unfold stackEnd at this; omega
      simp only [State.writeUnitX, dead]
      exact State.count_served (portKey_uncorr st) 1
    | _ => simp only [State.writeUnitX, dead]; exact .refl s us

/-- The write of a unit that a write of part of a unit comes to (R332). -/
theorem State.writePart_eq (s : State) (pa : Nat) (bs : List Byte) (poison : Bool) :
    ∃ bs' x, s.writePart pa bs poison = s.writeUnitX pa bs' x := by
  unfold State.writePart
  split
  · exact ⟨_, _, rfl⟩
  · exact ⟨_, _, rfl⟩

/-- Bytes written in a unit that answers read back. -/
theorem State.memRead_writePart (dead : s.deadAt pa = none) (h : pa % 64 + bs.length ≤ 64) :
    memRead (s.writePart pa bs poison).mem pa bs.length = bs := by
  unfold State.writePart
  split
  · next whole =>
    obtain ⟨align, len⟩ : pa % 64 = 0 ∧ bs.length = 64 := by simpa using whole
    rw [State.writeUnit, State.writeUnitX_mem dead, memRead_memWrite (by omega) (by simp; omega), show pa - pa / 64 * 64 = 0 by omega,
      List.drop_zero, List.take_take, len]
    exact List.take_of_length_le (by omega)
  · have len : (patch (s.readUnit pa).data (pa % 64) bs).length = 64 := by
      rw [patch_length (by rw [State.readUnit_length]; exact h), State.readUnit_length]
    rw [State.writeUnit, State.writeUnitX_mem dead, List.take_of_length_le (by omega), memRead_memWrite (by omega) (by omega),
      show pa - pa / 64 * 64 = pa % 64 by omega]
    exact take_drop_patch (by rw [State.readUnit_length]; exact h)

/-! Where addresses of one unit lead. -/

/-- A place in the same unit, `k` bytes further. -/
def Place.plus (k : Nat) : Place → Place
  | .mem pa => .mem (pa + k)
  | p => p

theorem regionOf_unit {o : Nat} (ho : o % 64 = 0) (hk : k < 64) : regionOf (o + k) = regionOf o := by
  have stack : o + k < stackEnd ↔ o < stackEnd := by unfold stackEnd; omega
  have gal : (galBase ≤ o + k && o + k < galEnd) = (galBase ≤ o && o < galEnd) := by
    rw [Bool.eq_iff_iff]; simp only [Bool.and_eq_true, decide_eq_true_eq]; unfold galBase galEnd; omega
  have cham : (chamBase ≤ o + k && o + k < chamEnd) = (chamBase ≤ o && o < chamEnd) := by
    rw [Bool.eq_iff_iff]; simp only [Bool.and_eq_true, decide_eq_true_eq]; unfold chamBase chamEnd; omega
  have imem : (imemBase ≤ o + k && o + k < imemEnd && (o + k) % 0x40000 < 0x30000) =
      (imemBase ≤ o && o < imemEnd && o % 0x40000 < 0x30000) := by
    rw [Bool.eq_iff_iff]; simp only [Bool.and_eq_true, decide_eq_true_eq]; unfold imemBase imemEnd; omega
  simp only [regionOf, stack, gal, cham, imem]

/-- Each byte of a unit lies where the unit lies. -/
theorem State.localPlace_plus {o : Nat} (ho : o % 64 = 0) (hk : k < 64) : s.localPlace ctx (o + k) = (s.localPlace ctx o).plus k := by
  have r0 : (o + k) / 0x40000000 = o / 0x40000000 := by omega
  have r1 : (o + k - galBase) / 0x8000000 = (o - galBase) / 0x8000000 := by unfold galBase; omega
  have r2 : (o + k - chamBase) / 0x400000 = (o - chamBase) / 0x400000 := by unfold chamBase; omega
  have r3 : (o + k - imemBase) / 0x40000 = (o - imemBase) / 0x40000 := by unfold imemBase; omega
  have m0 : (o + k) % 0x40000000 = o % 0x40000000 + k := by omega
  have m1 : (o + k) % 0x8000000 = o % 0x8000000 + k := by omega
  have m2 : (o + k) % 0x400000 = o % 0x400000 + k := by omega
  have m3 : (o + k) % 0x40000 = o % 0x40000 + k := by omega
  simp only [State.localPlace, regionOf_unit ho hk, r0, r1, r2, r3, m0, m1, m2, m3]
  split
  · split <;> simp [Place.plus]; omega
  · split <;> simp [Place.plus]; omega
  · split <;> simp [Place.plus, chamPa]; omega
  · split <;> simp [Place.plus, imemPa]; omega
  · rfl

theorem State.granOf_lt {v g : Nat} (h : s.granOf ctx v = some g) : g < 1024 := by
  unfold State.granOf at h
  split at h <;> split at h <;> cases h
  · next hv => simp at hv; omega
  · exact fld_lt _ _ _

theorem State.shareOf_lt {v g : Nat} (h : s.shareOf ctx v = some g) : g < 16 := by
  unfold State.shareOf at h
  split at h <;> split at h <;> cases h
  · assumption
  · exact fld_lt _ _ _

theorem State.cluOf_lt {v g : Nat} (h : s.cluOf ctx v = some g) : g < 16 := by
  unfold State.cluOf at h
  split at h <;> split at h <;> cases h
  · assumption
  · exact fld_lt _ _ _

/-- Where an address leads to memory: at the same offset in its unit, and through no window of a core beyond the 96. -/
theorem State.localPlace_mem {o : Nat} (h : s.localPlace ctx o = .mem pa) : pa % 64 = o % 64 ∧ (chamBase ≤ pa → windowCore pa < 96) := by
  unfold State.localPlace at h
  split at h
  · split at h
    · next g hg => cases h; have := State.granOf_lt hg; unfold chamBase; omega
    · cases h
  · split at h
    · next g hg => cases h; have := State.shareOf_lt hg; unfold chamBase galBase; omega
    · cases h
  · dsimp only at h
    split at h
    · next g hg => cases h; have := State.cluOf_lt hg; unfold windowCore chamPa chamBase imemBase; split <;> omega
    · cases h
  · dsimp only at h
    split at h
    · next g hg => cases h; have := State.cluOf_lt hg; unfold windowCore imemPa chamBase imemBase; split <;> omega
    · cases h
  · cases h

end Writes

section Landing

variable {s t : State} {us : List Nat} {pa ctx : Nat} {own : Option Nat} {f : State → State} {bs : List Byte} {poison : Bool}
  {w : UnitWr} {ws : List UnitWr}

theorem State.place_mem {a : Nat} (h : s.place ctx a = .mem pa) : s.localPlace ctx (a % 0x400000000000) = .mem pa := by
  unfold State.place at h
  dsimp only at h
  split at h
  · split at h
    · exact h
    · cases h
  · split at h
    · exact h
    · cases h
  · split at h <;> cases h
  · cases h

theorem State.writePart_served (hu : pa / 64 * 64 ∈ us) : s.Served (s.writePart pa bs poison) us := by
  obtain ⟨bs', x, e⟩ := s.writePart_eq pa bs poison
  rw [e]
  exact State.writeUnitX_served hu

theorem State.landUnit_served (hu : pa / 64 * 64 ∈ us) : s.Served (s.landUnit pa w) us := by
  unfold State.landUnit
  split
  · exact State.writeUnitX_served hu
  · exact State.writeUnitX_served hu

theorem State.shutCore_some {c : Nat} (h : s.shutCore own pa = some c) : chamBase ≤ pa ∧ c = windowCore pa := by
  unfold State.shutCore at h
  split at h
  · cases h
  · next hn =>
    simp only [Bool.or_eq_true, decide_eq_true_eq, not_or] at hn
    exact ⟨by omega, (Option.some.inj h).symm⟩

/-- A write through a window is performed, or counted as discarded (R26). -/
theorem State.through_served (hw : chamBase ≤ pa → windowCore pa < 96) (hf : s.Served (f s) us) : s.Served (s.through own pa f) us := by
  cases shut : s.shutCore own pa with
  | none => rwa [State.through_open f shut]
  | some c =>
    obtain ⟨high, rfl⟩ := State.shutCore_some shut
    rw [State.through_shut f shut]
    exact State.count_served (portKey_windrop (hw high)) 1

theorem State.Awake.wakeFor (h : s.Awake) (hw : chamBase ≤ pa → windowCore pa < 96) : s.wakeFor pa = s := by
  refine if_pos ?_
  by_cases low : pa < chamBase
  · simp [low]
  · have := hw (by omega)
    simpa using Or.inr (h ⟨windowCore pa / 6, by omega⟩)

/-- A unit write lands in its unit, is discarded, or is logged as a binding violation (R26, R27, R283). -/
theorem State.landWrite_served (ha : s.Awake) (hctx : ctx < 16) (hu : ∀ pa, s.place ctx w.addr = .mem pa → pa / 64 * 64 ∈ us) :
    s.Served (s.landWrite ctx own w).1 us := by
  unfold State.landWrite
  split
  · next pa hp =>
    have hw := (State.localPlace_mem (State.place_mem hp)).2
    rw [ha.wakeFor hw]
    exact State.through_served (f := fun t => t.landUnit pa w) hw (State.landUnit_served (hu pa hp))
  · exact (s.report_reported _ _ _ _).served hctx
  · exact .refl s us

theorem State.mem_unitsLanded (hm : w ∈ ws) (hp : s.place ctx w.addr = .mem pa) : pa / 64 * 64 ∈ s.unitsLanded ctx ws :=
  List.mem_filterMap.mpr ⟨w, hm, by rw [hp]⟩

/-- Unit writes change no units but those where they land (R356). -/
theorem State.landAll_served (ha : s.Awake) (hctx : ctx < 16) (ws : List UnitWr) :
    s.Served (s.landAll ctx own ws).1 (s.unitsLanded ctx ws) := by
  have landed : ∀ (l : List UnitWr) (p : State × Bool), (∀ w ∈ l, w ∈ ws) → s.Served p.1 (s.unitsLanded ctx ws) →
      s.Served (l.foldl (fun p w => let q := p.1.landWrite ctx own w; (q.1, p.2 || q.2)) p).1 (s.unitsLanded ctx ws) := by
    intro l
    induction l with
    | nil => exact fun p _ h => h
    | cons w l ih =>
      intro p hl h
      refine ih _ (fun x hx => hl x (.tail w hx)) (h.trans (State.landWrite_served (h.awake ha) hctx fun pa hp => ?_))
      rw [h.place hctx] at hp
      exact State.mem_unitsLanded (hl w (.head l)) hp
  exact landed ws (s, false) (fun _ h => h) (.refl s _)

end Landing

section QueuePairs

variable {s t u : State} {us : List Nat} {pa n i : Nat} {p : Packet}

theorem State.qpPlace_plus (hi : i < 8) : s.qpPlace n i = (s.qpPlace n 0).plus (8 * i) := State.localPlace_plus (by omega) (by omega)

/-- The entry of a queue pair is one unit (R350). -/
theorem State.qpEntry_eq (h : s.qpPlace n 0 = .mem pa) : s.qpEntry n = [pa] ∧ pa % 64 = 0 := by
  have align : pa % 64 = 0 := by
    rw [(State.localPlace_mem h).1]; omega
  refine ⟨?_, align⟩
  simp only [State.qpEntry, h]
  rw [unitsOf_one (by decide) (by omega), show pa / 64 * 64 = pa by omega]

/-- A word of an entry, where the entry leads to memory. -/
theorem State.qpWord_eq (hi : i < 8) (h : s.qpPlace n 0 = .mem pa) :
    s.qpWord n i = if s.deadAt pa = none then BitVec.ofNat 64 (leNat (memRead s.mem (pa + 8 * i) 8)) else 0 := by
  obtain ⟨-, align⟩ := State.qpEntry_eq h
  have dead : s.deadAt (pa + 8 * i) = s.deadAt pa := State.deadAt_unit (by omega)
  simp only [State.qpWord, State.qpPlace_plus hi, h, Place.plus]
  rw [State.readBytes_data (by decide) (by omega), dead]
  split
  · rfl
  · rfl

/-- A word of an entry that leads nowhere reads 0. -/
theorem State.qpWord_nowhere (hi : i < 8) (h : ∀ pa, s.qpPlace n 0 ≠ .mem pa) : s.qpWord n i = 0 := by
  simp only [State.qpWord, State.qpPlace_plus hi]
  cases hp : s.qpPlace n 0 with
  | mem pa => exact absurd hp (h pa)
  | _ => rfl

/-- Work that leaves a queue pair's entry alone leaves its words. -/
theorem State.Served.qpWord (h : s.Served t us) (clear : ∀ x ∈ us, x ∉ s.qpEntry n) (hi : i < 8) : t.qpWord n i = s.qpWord n i := by
  by_cases hp : ∃ pa, s.qpPlace n 0 = .mem pa
  · obtain ⟨pa, hp⟩ := hp
    obtain ⟨entry, align⟩ := State.qpEntry_eq hp
    have out : pa ∉ us := fun hm => clear pa hm (by rw [entry]; exact .head [])
    rw [State.qpWord_eq hi hp, State.qpWord_eq hi ((h.qpPlace n 0).trans hp), h.deadAt,
      h.units.memRead (by omega) (by rwa [show (pa + 8 * i) / 64 * 64 = pa by omega])]
  · have nowhere : ∀ pa, s.qpPlace n 0 ≠ .mem pa := fun pa e => hp ⟨pa, e⟩
    rw [State.qpWord_nowhere hi nowhere, State.qpWord_nowhere hi fun pa => by rw [h.qpPlace]; exact nowhere pa]

theorem State.Served.qpFld (h : s.Served t us) (clear : ∀ x ∈ us, x ∉ s.qpEntry n) (hi : i < 8) (lo len : Nat) :
    t.qpFld n i lo len = s.qpFld n i lo len := by
  rw [State.qpFld, h.qpWord clear hi]; rfl

theorem State.qpQuay_lt : s.qpQuay n < 8 := fld_lt _ _ _

theorem State.Served.qpQuay (h : s.Served t us) (clear : ∀ x ∈ us, x ∉ s.qpEntry n) : t.qpQuay n = s.qpQuay n :=
  h.qpFld clear (by decide) 58 3

/-- Whether a queue pair may send at once does not change by such work (R347, R368). -/
theorem State.Served.sendsAtOnce (h : s.Served t us) (clear : ∀ x ∈ us, x ∉ s.qpEntry n) (hs : s.SendsAtOnce n) : t.SendsAtOnce n := by
  obtain ⟨can, empty⟩ := hs
  have quay : ∀ o, o < 0x140 → t.reg (quayK (s.qpQuay n) o) = s.reg (quayK (s.qpQuay n) o) := fun o ho =>
    h.regs _ (not_portKey_quay State.qpQuay_lt ho)
  refine ⟨?_, (h.waits n).trans empty⟩
  rw [← can]
  simp only [State.canSend, State.classPaused, State.regBit, h.qpQuay clear, State.qpClass, h.qpFld clear (by decide : 0 < 8),
    h.paused, quay 0x8 (by decide), quay 0x30 (by decide)]

theorem State.sendOut_of_sendsAtOnce (h : s.SendsAtOnce n) (o : Option Packet) : s.sendOut n o = s.emit n o :=
  if_pos (by simp [h.1, h.2])

theorem State.emit_served (o : Option Packet) : s.Served (s.emit n o) us := by
  have counted : ∀ (t : State) (k : Nat), 0x140 ≤ k ∧ k < 0x178 → t.Served (t.count (quayK (s.qpQuay n) k) 1) us := fun t k hk =>
    State.count_served (portKey_quay State.qpQuay_lt hk) 1
  cases o with
  | none => exact ((counted s _ (by decide)).trans (counted _ _ (by decide))).trans (State.send_served _)
  | some p => exact (counted s _ (by decide)).trans (State.send_served _)

theorem State.emit_qp (k : Packet) (m : Nat) : (s.emit n (some k)).qp m = s.qp m := by
  show (s.count (quayK (s.qpQuay n) 0x148) 1).qp m = s.qp m
  rw [(s.count_only _ _).1]
  rfl

end QueuePairs

section Ports

variable {s t r u : State} {us : List Nat} {pa n ctx mask : Nat} {p : Packet} {qy : Nat}

theorem State.qpCtx_lt (s : State) : s.qpCtx n < 16 := by
  unfold State.qpCtx
  split
  · decide
  · cases found : s.regs.findSome? _ with
    | none => decide
    | some c =>
      obtain ⟨x, -, hx⟩ := List.exists_of_findSome?_eq_some found
      dsimp only at hx
      split at hx
      · next hc =>
        simp only [Bool.and_eq_true, decide_eq_true_eq] at hc
        have bank : (x.1 - 0x100000) / 0x10000 = c := Option.some.inj hx
        rw [Option.getD_some]
        omega
      · cases hx

theorem State.atPort_served (hq : qy < 8) : s.Served (s.atPort qy p) us :=
  (State.count_served (portKey_quay hq (by decide)) _).trans (State.count_served (portKey_quay hq (by decide)) _)

/-- A congestion notification counts and is sent (R364). -/
theorem State.notify_served (hs : s.SendsAtOnce p.qp) : s.Served (s.notify p) [] := by
  have noted : s.Served (s.setQp p.qp { s.qp p.qp with lastCnp := some s.time }) [] := State.setQp_served rfl
  refine .ite ?_ (.refl s [])
  rw [State.sendOut_of_sendsAtOnce (noted.sendsAtOnce (fun _ hx => nomatch hx) hs)]
  exact noted.trans (State.emit_served none)

theorem State.poisoned_served (hctx : ctx < 16) : s.Served (s.poisoned ctx) us := by
  unfold State.poisoned
  split
  · exact .refl s us
  · exact ((s.setBit_only _ _ _).served (by simpa using portKey_err hctx (by decide))).trans
      ((State.setFld_only _ _ _ _ _).served (by simpa using portKey_err hctx (by decide)))

theorem State.rxPoison_served (hctx : ctx < 16) : s.Served (s.rxPoison qy p ctx) us :=
  ((s.report_reported _ _ _ _).served hctx).trans (State.poisoned_served hctx)

/-- The units of a write land where its addresses lead, and bad ones are reported (R358, R363). -/
theorem State.landReq_served (ha : s.Awake) :
    s.Served (s.landReq qy p mask) (s.unitsLanded (s.qpCtx p.qp) (p.units.zipIdx.map fun x => wrOf p x.2 mask x.1)) := by
  have landed := State.landAll_served (own := none) ha (s.qpCtx_lt (n := p.qp)) (p.units.zipIdx.map fun x => wrOf p x.2 mask x.1)
  unfold State.landReq
  dsimp only
  split
  · exact landed
  · exact landed.trans (State.rxPoison_served s.qpCtx_lt)

/-- A word written to a queue pair's entry changes memory as a write of its bytes does, if the entry leads to memory. -/
theorem State.setQpWord_frame (s : State) (n i : Nat) (v : W64) :
    s.setQpWord n i v = { s with
      mem := (s.setQpWord n i v).mem, tags := (s.setQpWord n i v).tags, bases := (s.setQpWord n i v).bases,
      regs := (s.setQpWord n i v).regs } := by
  unfold State.setQpWord
  split
  · next pa _ =>
    obtain ⟨bs, x, e⟩ := s.writePart_eq pa (leBytes 8 v.toNat) false
    rw [e]
    exact s.writeUnitX_frame pa bs x
  · rfl

theorem State.setQpWord_served {i : Nat} {v : W64} (hi : i < 8) : s.Served (s.setQpWord n i v) (s.qpEntry n) := by
  unfold State.setQpWord
  rw [State.qpPlace_plus hi]
  cases hp : s.qpPlace n 0 with
  | mem pa =>
    obtain ⟨entry, align⟩ := State.qpEntry_eq hp
    exact State.writePart_served (by rw [entry, show (pa + 8 * i) / 64 * 64 = pa by omega]; exact .head [])
  | _ => exact .refl s _

/-- A word written to the entry of a queue pair reads back, where memory answers. -/
theorem State.qpWord_setQpWord {i : Nat} {v : W64} (hi : i < 8) (hp : s.qpPlace n 0 = .mem pa) (dead : s.deadAt pa = none) :
    (s.setQpWord n i v).qpWord n i = v := by
  have kept : s.Served (s.setQpWord n i v) (s.qpEntry n) := State.setQpWord_served hi
  obtain ⟨-, align⟩ := State.qpEntry_eq hp
  have live : s.deadAt (pa + 8 * i) = none := by rw [← dead]; exact State.deadAt_unit (by omega)
  have read : memRead (s.setQpWord n i v).mem (pa + 8 * i) 8 = leBytes 8 v.toNat := by
    have written := State.memRead_writePart (poison := false) (bs := leBytes 8 v.toNat) live (by rw [leBytes_length]; omega)
    rw [leBytes_length] at written
    simpa only [State.setQpWord, State.qpPlace_plus hi, hp, Place.plus] using written
  rw [State.qpWord_eq hi ((kept.qpPlace n 0).trans hp), kept.deadAt, if_pos dead, read, leNat_leBytes]
  have := v.isLt
  exact BitVec.eq_of_toNat_eq (by simpa using this)

/-- Memory answers for the entry of a queue pair that is READY: where it does not, STATE reads 0. -/
theorem State.deadAt_of_ready (hr : s.qpState n = 1) (hp : s.qpPlace n 0 = .mem pa) : s.deadAt pa = none := by
  by_contra dead
  rw [State.qpState, State.qpFld, State.qpWord_eq (by decide) hp, if_neg dead] at hr
  exact absurd hr (by decide)

theorem State.psnConsumed_frame (s : State) (p : Packet) :
    s.psnConsumed p = { s with
      mem := (s.psnConsumed p).mem, tags := (s.psnConsumed p).tags, bases := (s.psnConsumed p).bases,
      regs := (s.psnConsumed p).regs, qps := (s.psnConsumed p).qps } := by
  unfold State.psnConsumed State.setQpFld
  rw [State.setQpWord_frame]
  rfl

/-- Marking that no gap is open comes after EPSN has moved, and does not touch memory (R361). -/
theorem State.setQpFld_served_psnConsumed : (s.setQpFld p.qp 5 0 24 (s.epsn p.qp + 1)).Served (s.psnConsumed p) us :=
  State.setQp_served (by
    show (s.qp p.qp).waiting = ((s.setQpWord p.qp 5 _).qp p.qp).waiting
    rw [State.setQpWord_frame]
    rfl)

/-- Past a request, EPSN and the mark of its gap change in the queue pair (R361). -/
theorem State.psnConsumed_served : s.Served (s.psnConsumed p) (s.qpEntry p.qp) :=
  State.Served.trans (State.setQpWord_served (by decide)) State.setQpFld_served_psnConsumed

theorem State.epsn_psnConsumed (hp : s.qpPlace p.qp 0 = .mem pa) (dead : s.deadAt pa = none) :
    (s.psnConsumed p).epsn p.qp = (s.epsn p.qp + 1) % 2 ^ 24 := by
  rw [State.epsn, (State.setQpFld_served_psnConsumed (us := [])).qpFld (fun _ hx => nomatch hx) (by decide), State.qpFld, State.setQpFld,
    State.qpWord_setQpWord (by decide) hp dead, fld_putFld_self _ _ _ _ (by decide)]

theorem State.cache_psnConsumed : ((s.psnConsumed p).qp p.qp).cache = (s.qp p.qp).cache := by
  rw [State.psnConsumed, State.qp, State.setQp, tgetD_tset_self]

/-- An answer that is sent at once is the last thing that has left, and its request's PSN is consumed. -/
theorem State.Served.answered (h : u.Served r us) (clear : ∀ x ∈ us, x ∉ u.qpEntry p.qp) (hs : u.SendsAtOnce p.qp) (k : Packet) :
    u.Served ((r.sendOut p.qp (some k)).psnConsumed p) (us ++ u.qpEntry p.qp) ∧
      ∃ f, ((r.sendOut p.qp (some k)).psnConsumed p).tx.head? = some (.soxis (u.qpQuay p.qp) k f) := by
  have sent : r.Served (r.sendOut p.qp (some k)) [] := by
    rw [State.sendOut_of_sendsAtOnce (h.sendsAtOnce clear hs)]
    exact State.emit_served _
  have entry : (r.sendOut p.qp (some k)).qpEntry p.qp = u.qpEntry p.qp := by rw [sent.qpEntry, h.qpEntry]
  refine ⟨((h.mono fun x hx => List.mem_append_left _ hx).trans (sent.mono fun x hx => nomatch hx)).trans
    (State.psnConsumed_served.mono fun x hx => ?_), r.frameFor p.qp, ?_⟩
  · rw [entry] at hx
    exact List.mem_append_right _ hx
  · rw [State.psnConsumed_frame, State.sendOut_of_sendsAtOnce (h.sendsAtOnce clear hs), ← h.qpQuay clear]
    rfl

/-- Queues, accumulators and scalar registers are as before. -/
theorem State.Served.kept (h : s.Served t us) : t.queues = s.queues ∧ t.bufs = s.bufs ∧ s.ScalarsKept t :=
  ⟨h.queues, h.bufs, h.scalarsKept⟩

end Ports

section Requests

variable {s u r t : State} {qy : Fin 8} {p : Packet} {pa n : Nat} {op kind : BitVec 8}

/-- A packet that is taken and waits behind no other is served as it arrives (R347, R366). -/
theorem State.receive_of_takes (h : s.TakesPacket qy p) (hl : (carriesUnits kind && lengthBad p) = false) :
    s.receive qy kind p = (s.atPort qy p).serve qy kind p := by
  obtain ⟨up, awake, empty, -⟩ := h
  have awake' : (s.atPort qy p).Awake := (State.atPort_served (us := []) qy.isLt).awake awake
  have calm : (s.atPort qy p).woken ((s.atPort qy p).serve qy kind p) = [] := by
    rw [State.woken, List.filter_eq_nil_iff]
    intro g hg
    simp [show (s.atPort qy p).gate g = 0 from awake' ⟨g, List.mem_range.mp hg⟩]
  unfold State.receive
  rw [if_neg (by simp [up]), if_neg (by simp [hl])]
  exact (if_neg (not_not.mpr empty)).trans (if_pos calm)

/-- The request that its queue pair expects, accepted by every check of its header, is performed, and its PSN consumed if it was (R361). -/
theorem State.requested_of_next {f : Bool → State → Performed} (takes : s.qpTakes p = true) (order : (s.notify p).order p = .next)
    (epoch : (s.notify p).epochOk p = true) (head : (s.notify p).headReason p op = none) (done : (f false (s.notify p)).2 = true) :
    s.requested qy p op f = (f false (s.notify p)).1.psnConsumed p := by
  unfold State.requested State.taken
  rw [if_neg (by simp [takes])]
  simp only [order, epoch, head, done]
  rfl

/-- An address that passes its checks is aligned (R355, R360). -/
theorem State.offOf_aligned {m align : Nat} {imem : Bool} (h : s.targetReason p m align imem = none) : offOf p.addr.toNat % align = 0 := by
  by_contra hn
  unfold State.targetReason at h
  dsimp only at h
  rw [if_pos (by simp [hn])] at h
  cases h

/-- A packet that is taken is counted and its congestion notified; then all clusters are awake still, and its queue pair is READY and sends
at once (R346, R364). -/
theorem State.TakesPacket.notified (h : s.TakesPacket qy p) (hs : s.SendsAtOnce p.qp) :
    s.Served ((s.atPort qy p).notify p) [] ∧ ((s.atPort qy p).notify p).SendsAtOnce p.qp ∧ ((s.atPort qy p).notify p).Awake ∧
      ((s.atPort qy p).notify p).qpState p.qp = 1 := by
  obtain ⟨-, awake, -, takes⟩ := h
  have none_clear : ∀ {v : State}, ∀ x ∈ ([] : List Nat), x ∉ v.qpEntry p.qp := fun _ hx => nomatch hx
  have port : s.Served (s.atPort qy p) [] := State.atPort_served qy.isLt
  have noted : (s.atPort qy p).Served ((s.atPort qy p).notify p) [] := State.notify_served (port.sendsAtOnce none_clear hs)
  have both := port.trans noted
  refine ⟨both, both.sendsAtOnce none_clear hs, both.awake awake, ?_⟩
  rw [State.qpState, noted.qpFld none_clear (by decide)]
  simp only [State.qpTakes, Bool.and_eq_true, beq_iff_eq] at takes
  exact takes.1.2

/-- A request that its queue pair expects and that passes the checks of its header leaves what its performance leaves, with its PSN
consumed. `f`: its performance. -/
theorem State.TakesPacket.performed {f : Bool → State → Performed} (h : s.TakesPacket qy p)
    (hl : (carriesUnits kind && lengthBad p) = false) (order : ((s.atPort qy p).notify p).order p = .next)
    (epoch : ((s.atPort qy p).notify p).epochOk p = true) (serve : ∀ v : State, v.serve qy kind p = v.requested qy p op f)
    (head : ((s.atPort qy p).notify p).headReason p op = none) (hf : f false ((s.atPort qy p).notify p) = (r, true)) :
    s.receive qy kind p = r.psnConsumed p := by
  obtain ⟨-, -, -, takes⟩ := id h
  rw [State.receive_of_takes h hl, serve, State.requested_of_next takes order epoch head (by rw [hf]), hf]

end Requests

section Performances

variable {u r t : State} {qy : Fin 8} {p : Packet} {pa g : Nat} {cas : Bool}

theorem State.readReq_passed (ha : u.Awake) (hr : u.targetReason p p.nunits.toNat 64 true = none) :
    State.readReq qy p false u = (u.sendOut p.qp (some { u.answer p 0x41 with
      nunits := p.nunits, units := u.sendUnits (u.qpCtx p.qp) (offOf p.addr.toNat) p.nunits.toNat }), true) := by
  simp only [State.readReq, hr, ha.wakeAll]

theorem State.writeReq_passed (hr : u.targetReason p p.nunits.toNat 64 true = none) :
    State.writeReq qy p false u = (u.landReq qy p fullMask).ackReq p := by
  simp only [State.writeReq, hr]
  rfl

theorem State.maskedReq_passed (hn : p.nunits = 1) (hr : u.targetReason p 1 64 true = none) :
    State.maskedReq qy p false u = (u.landReq qy p (nibbleMask p.opa p.opb)).ackReq p := by
  simp only [State.maskedReq, hn, hr]
  rfl

/-- `u` with an atomic's old value kept beside its PSN (R360). -/
def State.keepOld (u : State) (p : Packet) (old : W64) : State :=
  u.setQp p.qp { u.qp p.qp with cache := ((p.psn, old) :: (u.qp p.qp).cache).take 16 }

/-- The answer of an atomic (R354). -/
def State.atomicResp (u : State) (p : Packet) (old : W64) : Packet := { u.answer p 0x44 with opa := old }

theorem State.mem_cache_keepOld (old : W64) : (p.psn, old) ∈ ((u.keepOld p old).qp p.qp).cache := by
  rw [State.keepOld, State.qp, State.setQp, tgetD_tset_self]
  exact .head _

/-- An atomic on a good word that its address leads to (R360). -/
theorem State.atomicReq_passed (ha : u.Awake) (hr : u.targetReason p 0 8 false = none)
    (hp : u.localPlace (u.qpCtx p.qp) (offOf p.addr.toNat) = .mem pa) (good : (u.readBytes pa 8).tag = .good) {old : W64}
    (hold : old = BitVec.ofNat 64 (leNat (u.readBytes pa 8).data)) :
    let v := (u.through none pa fun s => s.writePart pa (leBytes 8 (atomNew cas old p.opa p.opb).toNat)).keepOld p old
    State.atomicReq cas qy p false u = (v.sendOut p.qp (some (v.atomicResp p old)), true) := by
  have done : u.atomicAt cas pa p.opa p.opb =
      (u.through none pa fun s => s.writePart pa (leBytes 8 (atomNew cas old p.opa p.opb).toNat), old) := by
    rw [State.atomicAt, if_pos good, hold]
  simp only [State.atomicReq, hr, hp, ha.wakeFor (State.localPlace_mem hp).2, done]
  rfl

theorem State.ctrlReq_passed (form : ctrlFormOk p = true) (chan : u.ctrlChan p = some g) (room : u.mbFull g (fld p.addr 0 6) = false) :
    State.ctrlReq qy p false u = (u.ctrlDeliver qy p g (fld p.addr 0 6)).ackReq p := by
  simp only [State.ctrlReq, form, chan, room]
  simp

end Performances

section Effects

variable {s u r t : State} {qy : Fin 8} {p : Packet} {pa g ch k ctx : Nat} {us : List Nat} {y : SoxUnit}

/-- A whole unit that lands reads back. -/
theorem State.memRead_landReq (ha : u.Awake) (hy : p.units = [y]) (hp : u.place (u.qpCtx p.qp) p.addr.toNat = .mem pa)
    (align : pa % 64 = 0) (shut : u.shutCore none pa = none) (dead : u.deadAt pa = none) :
    memRead (u.landReq qy p fullMask).mem pa 64 = unitBytes y.data := by
  have landed : (u.landAll (u.qpCtx p.qp) none (p.units.zipIdx.map fun x => wrOf p x.2 fullMask x.1)).1 =
      u.writeUnit pa (unitBytes y.data) (!goodUnit y) := by
    rw [hy]
    show (u.landWrite (u.qpCtx p.qp) none (wrOf p 0 fullMask y)).1 = _
    simp only [State.landWrite, wrOf, Nat.mul_zero, Nat.add_zero, hp, ha.wakeFor (State.localPlace_mem (State.place_mem hp)).2,
      State.through_open _ shut, State.landUnit, if_pos]
    rfl
  have len : (unitBytes y.data).length = 64 := leBytes_length _ _
  have written : memRead (u.writeUnit pa (unitBytes y.data) (!goodUnit y)).mem pa 64 = unitBytes y.data := by
    rw [State.writeUnit, State.writeUnitX_mem dead, List.take_of_length_le (by omega), memRead_memWrite (by omega) (by omega),
      show pa - pa / 64 * 64 = 0 by omega, List.drop_zero, List.take_of_length_le (by omega)]
  unfold State.landReq
  dsimp only
  rw [landed]
  split
  · exact written
  · rw [(State.rxPoison_served (us := []) u.qpCtx_lt).units.memRead (by omega) (by simp), written]

/-- Mailboxes: messages and the registers of clusters are as before. -/
def State.MailKept (s t : State) : Prop := t.msgs = s.msgs ∧ ∀ k, 0x10000000 ≤ k → k < 0x20000000 → t.reg k = s.reg k

theorem State.MailKept.trans (h : s.MailKept t) (h' : t.MailKept u) : s.MailKept u :=
  ⟨h'.1.trans h.1, fun k hl hh => (h'.2 k hl hh).trans (h.2 k hl hh)⟩

theorem State.MailKept.mbFull (h : s.MailKept t) (hg : g < 16) (hc : ch < 64) : t.mbFull g ch = s.mbFull g ch := by
  rw [State.mbFull, State.regBit, h.2 _ (by unfold cluK; omega) (by unfold cluK; omega)]; rfl

theorem State.MailKept.msg (h : s.MailKept t) : t.msg g ch = s.msg g ch := by
  rw [State.msg, h.1]; rfl

theorem State.OnlyRegs.mailKept {ks : List Nat} (h : s.OnlyRegs t ks) (hk : ∀ j ∈ ks, j < 0x10000000 ∨ 0x20000000 ≤ j) : s.MailKept t :=
  ⟨by rw [h.1], fun k hl hh => h.2 k fun hm => by have := hk k hm; omega⟩

theorem State.rxPoison_mailKept (hctx : ctx < 16) : s.MailKept (s.rxPoison qy p ctx) := by
  obtain ⟨frame, regs⟩ : s.Reported (s.quayReport qy Code.FAB_RX_POISON ctx p.addr) ctx [] := s.report_reported _ _ _ _
  have reported : s.MailKept (s.quayReport qy Code.FAB_RX_POISON ctx p.addr) := by
    refine ⟨by rw [frame], fun k hl hh => regs k fun hm => ?_⟩
    simp only [List.nil_append, reportKeys, dieK, errK, List.mem_cons, List.not_mem_nil, or_false] at hm
    omega
  have err : ∀ j ∈ [errK ctx 0], j < 0x10000000 ∨ 0x20000000 ≤ j := by simp [errK]; omega
  unfold State.rxPoison State.poisoned
  split
  · exact reported
  · exact reported.trans (((State.setBit_only _ _ _ _).mailKept err).trans ((State.setFld_only _ _ _ _ _).mailKept err))

theorem State.emit_mailKept (n : Nat) (k : Packet) : s.MailKept (s.emit n (some k)) :=
  State.MailKept.trans ((State.count_only _ _ _).mailKept (by simp [quayK]; omega)) ⟨rfl, fun _ _ _ => rfl⟩

theorem State.setQpWord_reg {n i : Nat} {v : W64} (h : ∀ st, k ≠ stkK st 0x28) : (s.setQpWord n i v).reg k = s.reg k := by
  unfold State.setQpWord
  split
  · next pa _ =>
    obtain ⟨bs, x, e⟩ := s.writePart_eq pa (leBytes 8 v.toNat) false
    rw [e, State.writeUnitX_reg h]
  · rfl

theorem State.psnConsumed_mailKept : s.MailKept (s.psnConsumed p) :=
  ⟨by rw [State.psnConsumed_frame], fun k _ hh => State.setQpWord_reg fun st => by unfold stkK; omega⟩

theorem State.ring_served (hg : g < 16) (b : Nat) : s.Served (s.ring_ g b) us := by
  have rung : s.Served (s.setBit (cluK g 0x4400) b true) us :=
    (s.setBit_only _ _ _).served (by simpa using portKey_mail hg (by decide))
  exact .ite (rung.trans ⟨rfl, fun _ _ => rfl, fun _ _ => rfl, fun _ => rfl⟩) rung

theorem State.ring_reg (b : Nat) (h : k ≠ cluK g 0x4400) : (s.ring_ g b).reg k = s.reg k := by
  have rung : (s.setBit (cluK g 0x4400) b true).reg k = s.reg k := by rw [State.reg_setBit, if_neg h]
  unfold State.ring_
  dsimp only
  split
  · exact rung
  · exact rung

theorem State.ring_msgs (b : Nat) : (s.ring_ g b).msgs = s.msgs := by
  unfold State.ring_
  dsimp only
  split
  · rfl
  · rfl

/-- A channel that a message of a queue pair has reached is full, and holds the message (R310). -/
theorem State.deliver_mail {dev n len dbit : Nat} {msg : UnitData} {bad : Bool} (hc : ch < 64) :
    (s.deliver g ch (.qp dev ctx n) len dbit msg bad).mbFull g ch = true ∧
      (s.deliver g ch (.qp dev ctx n) len dbit msg bad).msg g ch = (msg, bad) := by
  have apart : cluK g (0x4200 + 8 * ch) ≠ cluK g 0x4400 := by unfold cluK; omega
  constructor
  · rw [State.mbFull, State.regBit, State.deliver, State.ring_reg _ apart]
    show bitAt ((s.setReg (cluK g (0x4200 + 8 * ch)) _).reg (cluK g (0x4200 + 8 * ch))) 63 = true
    rw [State.reg_setReg_self, mbStat]
    simp [bitAt_putFld_ne, bitAt_putBit_self]
  · rw [State.msg, State.deliver, State.ring_msgs]
    exact tgetD_tset_self _ _ _ _

theorem State.deliver_served {f : Sender} {len dbit : Nat} {msg : UnitData} {bad : Bool} (hg : g < 16) (hc : ch < 64) :
    s.Served (s.deliver g ch f len dbit msg bad) us := by
  have stat : s.Served (s.setReg (cluK g (0x4200 + 8 * ch)) (mbStat s.fuses.device f len dbit)) us :=
    (s.setReg_only _ _).served fun k hk => by
      rw [List.mem_singleton.mp hk]
      exact portKey_mail hg (by omega)
  have placed : s.Served { s.setReg (cluK g (0x4200 + 8 * ch)) (mbStat s.fuses.device f len dbit) with
      msgs := tset s.msgs (64 * g + ch) (msg, bad) } us := stat.trans ⟨rfl, fun _ _ => rfl, fun _ _ => rfl, fun _ => rfl⟩
  exact placed.trans (State.ring_served hg dbit)

/-- A CTRL_WRITE with a message fills its channel with it, whatever else it reports (R310, R357, R363). -/
theorem State.ctrlDeliver_served (hg : g < 16) (hc : ch < 64) (hl : fld p.opa 0 7 ≠ 0) :
    s.Served (s.ctrlDeliver qy p g ch) us ∧ (s.ctrlDeliver qy p g ch).mbFull g ch = true ∧
      (s.ctrlDeliver qy p g ch).msg g ch = (ctrlMsg p, !p.units.all goodUnit) := by
  unfold State.ctrlDeliver
  dsimp only
  rw [if_neg hl]
  split
  · exact ⟨State.deliver_served hg hc, State.deliver_mail hc⟩
  · have bad := State.rxPoison_mailKept (s := s.deliver g ch (.qp p.sdev.toNat (s.qpCtx p.qp) p.qp) (fld p.opa 0 7) (fld p.opa 8 5)
      (ctrlMsg p) (!p.units.all goodUnit)) (qy := qy) (p := p) (s.qpCtx_lt (n := p.qp))
    rw [bad.mbFull hg hc, bad.msg]
    exact ⟨(State.deliver_served hg hc).trans (State.rxPoison_served s.qpCtx_lt), State.deliver_mail hc⟩

theorem State.ctrlChan_lt (h : u.ctrlChan p = some g) : g < 16 := by
  unfold State.ctrlChan at h
  split at h
  · next hc =>
    dsimp only at h
    split at h
    · cases h; exact State.cluOf_lt hc
    · cases h
  · cases h

end Effects
section Clauses

variable {s u r : State} {us vs : List Nat} {qy : Fin 8} {p : Packet} {pa g : Nat} {cas : Bool}

/-- What an acknowledged request leaves: its answer has left last, memory changed where the request wrote and in the queue pair's entry, and
no queue, accumulator or scalar register did (R354, R358). -/
theorem State.Served.acknowledged (hu : s.Served u []) (hr : u.Served r us) (clear : ∀ x ∈ us, x ∉ u.qpEntry p.qp)
    (hs : u.SendsAtOnce p.qp) :
    (∃ k f, ((r.sendOut p.qp (some (r.answer p 0x42))).psnConsumed p).tx.head? = some (.soxis (u.qpQuay p.qp) k f) ∧
      k.op = 0x42 ∧ k.psn = p.psn ∧ k.status = 0) ∧
    s.Served ((r.sendOut p.qp (some (r.answer p 0x42))).psnConsumed p) (us ++ u.qpEntry p.qp) := by
  obtain ⟨done, f, sent⟩ := hr.answered clear hs (r.answer p 0x42)
  exact ⟨⟨_, f, sent, rfl, rfl, rfl⟩, (hu.mono fun x hx => nomatch hx).trans done⟩

/-- Memory outside the entry of a queue pair that its answer and its EPSN change reads as the request's performance left it. -/
theorem State.Served.memRead_answered {a n : Nat} (hr : u.Served r us) (clear : ∀ x ∈ us, x ∉ u.qpEntry p.qp) (hs : u.SendsAtOnce p.qp)
    (k : Packet) (hn : a % 64 + n ≤ 64) (ha : a / 64 * 64 ∈ us) :
    memRead ((r.sendOut p.qp (some k)).psnConsumed p).mem a n = memRead r.mem a n := by
  obtain ⟨done, -⟩ := (State.Served.refl r []).answered (fun _ hx => nomatch hx) (hr.sendsAtOnce clear hs) k
  refine done.units.memRead hn ?_
  rw [List.nil_append, hr.qpEntry]
  exact clear _ ha

/-- The answer of a READ carries its units, and EPSN moves on (R354, R361). -/
theorem State.Served.read_done (hu : s.Served u []) (hs : u.SendsAtOnce p.qp) (ready : u.qpState p.qp = 1) (k : Packet) :
    ((u.sendOut p.qp (some k)).psnConsumed p).tx = .soxis (u.qpQuay p.qp) k (u.frameFor p.qp) :: u.tx ∧
    s.Served ((u.sendOut p.qp (some k)).psnConsumed p) (u.qpEntry p.qp) ∧
    ∀ pa, u.qpPlace p.qp 0 = .mem pa → ((u.sendOut p.qp (some k)).psnConsumed p).epsn p.qp = (u.epsn p.qp + 1) % 2 ^ 24 := by
  have none_clear : ∀ x ∈ ([] : List Nat), x ∉ u.qpEntry p.qp := fun _ hx => nomatch hx
  obtain ⟨done, -⟩ := (State.Served.refl u []).answered none_clear hs k
  rw [State.sendOut_of_sendsAtOnce hs] at done ⊢
  have sent : u.Served (u.emit p.qp (some k)) [] := State.emit_served _
  refine ⟨?_, (hu.mono fun x hx => nomatch hx).trans done, fun pa hp => ?_⟩
  · rw [State.psnConsumed_frame]
    show _ :: ((u.count _ 1)).tx = _
    rw [(u.count_only _ _).tx]
  · rw [State.epsn_psnConsumed ((sent.qpPlace _ _).trans hp) ((sent.deadAt pa).trans (State.deadAt_of_ready ready hp)), State.epsn,
      sent.qpFld none_clear (by decide)]
    rfl

/-- What an atomic leaves at the target: its sum or swap where memory takes it, its answer and its old value kept (R360). -/
theorem State.Served.atomic_done {old new : W64} (hu : s.Served u []) (hs : u.SendsAtOnce p.qp) {ctx o : Nat}
    (hp : u.localPlace ctx o = .mem pa) (align : o % 8 = 0) (clear : ∀ x ∈ [pa / 64 * 64], x ∉ u.qpEntry p.qp)
    (hr : r = u.through none pa fun s => s.writePart pa (leBytes 8 new.toNat)) :
    let v := r.keepOld p old
    let t := (v.sendOut p.qp (some (v.atomicResp p old))).psnConsumed p
    (∃ k f, t.tx.head? = some (.soxis (u.qpQuay p.qp) k f) ∧ k.op = 0x44 ∧ k.opa = old) ∧
    s.Served t (pa / 64 * 64 :: u.qpEntry p.qp) ∧ (p.psn, old) ∈ (t.qp p.qp).cache ∧
    (u.deadAt pa = none → u.shutCore none pa = none → memRead t.mem pa 8 = leBytes 8 new.toNat) := by
  intro v t
  obtain ⟨place, window⟩ := State.localPlace_mem hp
  have wrote : u.Served r [pa / 64 * 64] := by
    rw [hr]
    exact State.through_served window (State.writePart_served (.head []))
  have cached : u.Served v [pa / 64 * 64] := wrote.trans (State.setQp_served rfl)
  obtain ⟨done, f, sent⟩ := cached.answered clear hs (v.atomicResp p old)
  refine ⟨⟨_, f, sent, rfl, rfl⟩, (hu.mono fun x hx => nomatch hx).trans done, ?_, fun dead shut => ?_⟩
  · rw [State.cache_psnConsumed, State.sendOut_of_sendsAtOnce (cached.sendsAtOnce clear hs), State.emit_qp]
    exact State.mem_cache_keepOld old
  · rw [cached.memRead_answered clear hs _ (by omega) (.head [])]
    show memRead r.mem pa 8 = _
    rw [hr, State.through_open _ shut]
    have written := State.memRead_writePart (poison := false) (bs := leBytes 8 new.toNat) dead (by rw [leBytes_length]; omega)
    rwa [leBytes_length] at written

/-- An answer that is sent and an EPSN that moves on leave the mailboxes alone. -/
theorem State.MailKept.answered (h : u.SendsAtOnce p.qp) (k : Packet) : u.MailKept ((u.sendOut p.qp (some k)).psnConsumed p) := by
  rw [State.sendOut_of_sendsAtOnce h]
  exact (State.emit_mailKept _ _).trans State.psnConsumed_mailKept

end Clauses

/-- Settles O36, clause by clause: what a request's performance leaves is followed by its answer and by EPSN moving on, which touch the
queue pair's entry only. -/
theorem targetPerformsRequests : Obligations.TargetPerformsRequests := by
  intro qy p s takes sends u ctx kept answers lands clear order epoch
  obtain ⟨noted, once, awake, ready⟩ := takes.notified sends
  refine ⟨fun head reason => ?_, fun head len reason hc => ?_, fun head len one reason hc => ?_,
    fun cas pa head reason place good hc => ?_, fun g head len form chan nonempty room => ?_⟩
  · have run := takes.performed (kind := 1) rfl order epoch (fun _ => rfl) head (State.readReq_passed awake reason)
    obtain ⟨tx, done, epsn⟩ := noted.read_done once ready _
    exact ⟨_, congrArg Host.Outcome.next run, tx, done.kept, done.units, epsn⟩
  · have run := takes.performed (kind := 2) (by rw [len]; rfl) order epoch (fun _ => rfl) head (State.writeReq_passed reason)
    have landed := State.landReq_served (qy := qy) (p := p) (mask := fullMask) awake
    obtain ⟨sent, done⟩ := noted.acknowledged landed hc once
    refine ⟨_, congrArg Host.Outcome.next run, sent, done.kept, done.units, fun pa y hy hp shut dead => ?_⟩
    have align : pa % 64 = 0 := by
      rw [(State.localPlace_mem (State.place_mem hp)).1]
      exact State.offOf_aligned reason
    have here : pa / 64 * 64 ∈ lands fullMask :=
      State.mem_unitsLanded (w := wrOf p 0 fullMask y) (by rw [hy]; exact .head []) hp
    rw [landed.memRead_answered hc once _ (by omega) here]
    exact State.memRead_landReq awake hy hp align shut dead
  · have run := takes.performed (kind := 3) (by rw [len]; rfl) order epoch (fun _ => rfl) head (State.maskedReq_passed one reason)
    obtain ⟨sent, done⟩ := noted.acknowledged (State.landReq_served (qy := qy) awake) hc once
    exact ⟨_, congrArg Host.Outcome.next run, sent, done.kept, done.units⟩
  · intro old
    have passed := State.atomicReq_passed (qy := qy) (cas := cas) awake reason place good (old := old) rfl
    obtain ⟨⟨k, f, sent, op, opa⟩, done, cache, value⟩ :=
      noted.atomic_done once place (State.offOf_aligned reason) hc (old := old) (new := atomNew cas old p.opa p.opb) rfl
    refine ⟨_, k, f, ?_, sent, op, opa, done.kept, done.units, cache, value⟩
    cases cas with
    | true => exact congrArg Host.Outcome.next (takes.performed (kind := 5) rfl order epoch (fun _ => rfl) head passed)
    | false => exact congrArg Host.Outcome.next (takes.performed (kind := 4) rfl order epoch (fun _ => rfl) head passed)
  · have run := takes.performed (kind := 6) (by rw [len]; rfl) order epoch (fun _ => rfl) head (State.ctrlReq_passed form chan room)
    have hg := State.ctrlChan_lt chan
    have hch : fld p.addr 0 6 < 64 := fld_lt _ _ _
    obtain ⟨delivered, full, message⟩ := State.ctrlDeliver_served (qy := qy) (us := []) hg hch nonempty (s := u)
    obtain ⟨sent, done⟩ := noted.acknowledged delivered (fun _ hx => nomatch hx) once
    have mail := State.MailKept.answered (p := p) (delivered.sendsAtOnce (fun _ hx => nomatch hx) once)
      ((u.ctrlDeliver qy p g (fld p.addr 0 6)).answer p 0x42)
    exact ⟨_, congrArg Host.Outcome.next run, sent, done.kept, (mail.mbFull hg hch).trans full, mail.msg.trans message, done.units⟩

end Sys2Proof.Machine

/-! SUPPORT. What issuing and completing MMA and MDRN leaves alone: their registers, their head's wait, and the steps of an issue that only
count, log and report (R104, R117, R127, R164, R333). -/

namespace Sys2Proof.Machine

section MxKeys

/-- The registers that issuing an MMA or MDRN may change beside its semaphore: those of `PortKey`, the counts of reports and of self-tests
lost (R396, R397), and a core's logs and counters below its queue banks and from CORE_MX_CHECK on (R104, R127, R176, R344). -/
def MxKey (k : Nat) : Prop :=
  PortKey k ∨ (0x8340000 ≤ k ∧ k ≤ 0x8350010) ∨ k = 0x9350008 ∨
  (0x20000000 ≤ k ∧ k < 0x20600000 ∧ (k % 0x10000 < 0x100 ∨ (0x900 ≤ k % 0x10000 ∧ k % 0x10000 < 0x1000)))

/-- The registers that hold the semaphores a wait may name (R293 to R295). -/
def HomeKey (k : Nat) : Prop :=
  (0x8200000 ≤ k ∧ k < 0x8204000) ∨ (0x9200000 ≤ k ∧ k < 0x9204000) ∨ (0x10000000 ≤ k ∧ k < 0x11000000) ∨
  (0x20000000 ≤ k ∧ k < 0x20600000 ∧ 0x1000 ≤ k % 0x10000)

variable {s : State} {c ctx d g k o : Nat} {q : Queue} {w : InstrWord}

theorem mxKey_core (hc : c < 96) (ho : o < 0x100 ∨ (0x900 ≤ o ∧ o < 0x1000)) : MxKey (coreK c o) := by
  unfold MxKey coreK; omega
theorem mxKey_tests (hd : d < 2) : MxKey (dieK d 0x350008) := by
  unfold MxKey dieK; omega
theorem mxKey_reports (hctx : ctx ≤ 0xFF) (hk : k ∈ reportKeys ctx) : MxKey k := by
  simp only [reportKeys, List.mem_cons, List.not_mem_nil, or_false] at hk
  unfold MxKey
  rcases hk with rfl | rfl
  · unfold dieK; omega
  · unfold errK; omega

theorem not_mxKey_sem (h : isSemKey k) : ¬MxKey k := by
  unfold MxKey PortKey
  obtain ⟨c, i, rfl⟩ | ⟨g, i, rfl⟩ | ⟨d, i, rfl⟩ := h
  · unfold coreK; omega
  · unfold cluK; omega
  · unfold dieK; omega
theorem not_mxKey_sreg (q : Queue) (hc : c < 96) (ho : 0x80 ≤ o ∧ o < 0x100) : ¬MxKey (qK c q o) := by
  have : qnum q < 6 := by cases q <;> decide
  unfold MxKey PortKey qK coreK; omega
theorem not_mxKey_gate (hg : g < 16) : ¬MxKey (gateK g) := by
  unfold MxKey PortKey gateK dieK; omega

theorem not_homeKey_sreg (q : Queue) (hc : c < 96) (ho : o < 0x100) : ¬HomeKey (qK c q o) := by
  have : qnum q < 6 := by cases q <;> decide
  unfold HomeKey qK coreK; omega
theorem not_homeKey_gate (hg : g < 16) : ¬HomeKey (gateK g) := by
  unfold HomeKey gateK dieK; omega

/-- The semaphores that identifiers name (R294, R295). -/
theorem State.semHome_homeKey {id : BitVec 12} {wait : Bool} (hc : c < 96) (h : s.semHome c id wait = .home k) : HomeKey k := by
  unfold State.semHome coreK cluK dieK at h
  dsimp only at h
  unfold HomeKey
  split at h
  · split at h
    · cases h
    · next hn =>
      simp only [Bool.or_eq_true, decide_eq_true_eq] at hn
      split at h <;> split at h <;> cases h <;> omega
  · split at h <;> cases h
    omega
  · have base : s.regFld (bindK (s.ctxOf c) (0x200 + 8 * (id.toNat / 512 % 2))) 0 9 < 512 := fld_lt _ _ _
    split at h <;> split at h <;> cases h <;> omega
  · cases h

theorem State.waitKeys_homeKey (hc : c < 96) (h : k ∈ s.waitKeys c w) : HomeKey k := by
  unfold State.waitKeys State.waitHome at h
  split at h
  · cases h
  · split at h
    · next hk =>
      simp only [Option.toList_some, List.mem_singleton] at h
      exact h ▸ State.semHome_homeKey hc hk
    · cases h

/-- Taking a wait leaves the scalar registers and the gates of clusters alone. -/
theorem State.takeWait_sreg {c' : Nat} (q' : Queue) (hc : c < 96) (hc' : c' < 96) {i : Nat} (hi : i < 16) :
    (s.takeWait c q w).sreg c' q' i = s.sreg c' q' i :=
  (s.takeWait_only c q w).2 _ fun h => not_homeKey_sreg q' hc' (by omega) (State.waitKeys_homeKey hc h)

theorem State.Awake.takeWait (h : s.Awake) (hc : c < 96) : (s.takeWait c q w).Awake := fun g => by
  rw [State.gate, State.regFld, (s.takeWait_only c q w).2 _ fun hk => not_homeKey_gate g.isLt (State.waitKeys_homeKey hc hk)]
  exact h g

theorem State.takeWait_bufs : (s.takeWait c q w).bufs = s.bufs := by rw [(s.takeWait_only c q w).1]
theorem State.takeWait_tags : (s.takeWait c q w).tags = s.tags := by rw [(s.takeWait_only c q w).1]
theorem State.takeWait_buf (c' i : Nat) : (s.takeWait c q w).buf c' i = s.buf c' i := by rw [State.buf, State.takeWait_bufs]; rfl
theorem State.takeWait_underTest (u : W16) : (s.takeWait c q w).underTest u = s.underTest u := by
  rw [(s.takeWait_only c q w).1]; rfl
theorem State.takeWait_offs (hc : c < 96) (n : Nat) : (s.takeWait c q w).offs c q w n = s.offs c q w n := by
  rw [State.offs, State.xr, State.takeWait_sreg q hc hc (by decide)]; rfl

end MxKeys

section MxSteps

variable {s t u : State} {c i ctx n k : Nat} {q : Queue} {ks us : List Nat}

/-- `t` follows `s` by a step of issuing an instruction of queue `q` of core `c` into logical buffer `i`: no register outside `MxKey`
differs, nor what the queue has in flight, nor another buffer of the core. -/
structure State.MxStep (s t : State) (c : Nat) (q : Queue) (i : Nat) : Prop where
  regs : ∀ k, ¬MxKey k → t.reg k = s.reg k
  flight : (t.queue c q).inflight = (s.queue c q).inflight
  others : ∀ j, j ≠ i → t.buf c j = s.buf c j

/-- Such a step that leaves memory and its tags alone. -/
structure State.MxKeeps (s t : State) (c : Nat) (q : Queue) (i : Nat) : Prop extends s.MxStep t c q i where
  mem : t.mem = s.mem
  tags : t.tags = s.tags

theorem State.MxStep.trans (h : s.MxStep t c q i) (h' : t.MxStep u c q i) : s.MxStep u c q i :=
  ⟨fun k hk => (h'.regs k hk).trans (h.regs k hk), h'.flight.trans h.flight, fun j hj => (h'.others j hj).trans (h.others j hj)⟩

/-- A step that changes other parts of the machine only. -/
theorem State.MxKeeps.of_parts (regs : t.regs = s.regs) (queues : t.queues = s.queues) (bufs : t.bufs = s.bufs) (mem : t.mem = s.mem)
    (tags : t.tags = s.tags) : s.MxKeeps t c q i := by
  refine ⟨⟨fun k _ => ?_, ?_, fun j _ => ?_⟩, mem, tags⟩
  · rw [State.reg, regs]; rfl
  · rw [State.queue, queues]; rfl
  · rw [State.buf, bufs]; rfl

theorem State.MxKeeps.refl (s : State) : s.MxKeeps s c q i := .of_parts rfl rfl rfl rfl rfl

theorem State.MxKeeps.trans (h : s.MxKeeps t c q i) (h' : t.MxKeeps u c q i) : s.MxKeeps u c q i :=
  ⟨h.toMxStep.trans h'.toMxStep, h'.mem.trans h.mem, h'.tags.trans h.tags⟩

theorem State.MxStep.awake (h : s.MxStep t c q i) (ha : s.Awake) : t.Awake := fun g => by
  rw [State.gate, State.regFld, h.regs _ (not_mxKey_gate g.isLt)]
  exact ha g

theorem State.OnlyRegs.mxKeeps (h : s.OnlyRegs t ks) (hk : ∀ k ∈ ks, MxKey k) : s.MxKeeps t c q i := by
  obtain ⟨frame, regs⟩ := h
  refine ⟨⟨fun k hn => regs k fun hm => hn (hk k hm), ?_, fun j _ => ?_⟩, ?_, ?_⟩ <;> rw [frame] <;> rfl

theorem State.Reported.mxKeeps (h : s.Reported t ctx []) (hctx : ctx ≤ 0xFF) : s.MxKeeps t c q i := by
  obtain ⟨frame, regs⟩ := h
  refine ⟨⟨fun k hn => regs k fun hm => hn (mxKey_reports hctx hm), ?_, fun j _ => ?_⟩, ?_, ?_⟩ <;> rw [frame] <;> rfl

theorem State.Served.mxStep (h : s.Served t us) : s.MxStep t c q i :=
  ⟨fun k hk => h.regs k fun hp => hk (.inl hp), by rw [State.queue, h.queues]; rfl, fun j _ => by rw [State.buf, h.bufs]; rfl⟩

theorem State.buf_setBuf_ne {j : Nat} (b : MxBuf) (hj : j ≠ i) : (s.setBuf c i b).buf c j = s.buf c j := by
  rw [State.buf_setBuf, if_neg (by omega)]
theorem State.buf_setBuf_self (b : MxBuf) : (s.setBuf c i b).buf c i = b := by
  rw [State.buf_setBuf, if_pos rfl]

theorem State.setBuf_mxKeeps (b : MxBuf) : s.MxKeeps (s.setBuf c i b) c q i :=
  ⟨⟨fun _ _ => rfl, rfl, fun _ hj => State.buf_setBuf_ne b hj⟩, rfl, rfl⟩

theorem State.count_mxKeeps (hk : MxKey k) : s.MxKeeps (s.count k n) c q i := (s.count_only k n).mxKeeps (by simpa using hk)

theorem State.report_mxKeeps (kind : Nat) (code source : W16) {x : RepInfo} (hx : x.context ≤ 0xFF) :
    s.MxKeeps (s.report kind code source x) c q i := (s.report_reported kind code source x).mxKeeps hx

/-- A self-test that is triggered queues, or is reported as not run (R397, R398). -/
theorem State.trigger_mxKeeps {y code : W16} {addr : Nat} (hd : dieOf y < 2) : s.MxKeeps (s.trigger y code addr) c q i := by
  have told : ∀ (r : State) (v : Nat), r.MxKeeps (r.verdict y v addr) c q i := fun r v => r.report_mxKeeps _ _ _ (le_refl 0xFF)
  have noted : ∀ r : State, r.MxKeeps (r.keepVerdict y) c q i := fun r => .of_parts rfl rfl rfl rfl rfl
  unfold State.trigger
  dsimp only
  split
  · exact told s 6
  split
  · exact .refl s
  split
  · exact (noted s).trans (told _ 5)
  split
  · exact (((s.countSat_only _ _ _ _).mxKeeps (by simpa using mxKey_tests hd)).trans (noted _)).trans (told _ 4)
  · exact .of_parts rfl rfl rfl rfl rfl

theorem State.memErr_mxKeeps {q' : Queue} {kind addr : Nat} {pc : BitVec 14} {optag : W16} (hc : c < 96) :
    s.MxKeeps (s.memErr c q' kind pc optag addr) c q i := by
  unfold State.memErr
  split
  · exact .refl s
  · exact ((State.setReg_only _ _ _).mxKeeps (by simpa using mxKey_core hc (by decide))).trans
      ((State.setReg_only _ _ _).mxKeeps (by simpa using mxKey_core hc (by decide)))

/-- A unit of a chamber implicates its core, which is one of the two dies' (R14, R397). -/
theorem dieOf_memSource_chamPa {o : Nat} (hc : c < 96) (ho : o < 0x400000) : dieOf (memSource (chamPa c o)) < 2 := by
  have core : (chamPa c o - chamBase) / 0x400000 = c := by unfold chamPa chamBase; omega
  have src : memSource (chamPa c o) = srcOf 6 c := by
    unfold memSource
    rw [if_neg (by unfold chamPa chamBase stackEnd; omega), if_neg (by unfold chamPa chamBase galEnd; omega),
      if_pos (by unfold chamPa chamBase chamEnd; omega), core]
  have typ : srcType (srcOf 6 c) = 6 := by simp [srcType, srcOf]; omega
  have idx : srcIndex (srcOf 6 c) = c := by simp [srcIndex, srcOf]; omega
  rw [src, dieOf, typ, idx]
  show c / 48 < 2
  omega

theorem State.tookTag_mxKeeps {optag : W16} {addr o : Nat} {x : TagSt} (hc : c < 96) (ho : o < 0x400000) :
    s.MxKeeps (s.tookTag c q optag addr (chamPa c o) x) c q i := by
  cases x with
  | good => exact .refl s
  | poisoned => exact State.memErr_mxKeeps hc
  | mismatch => exact (State.memErr_mxKeeps hc).trans (State.trigger_mxKeeps (dieOf_memSource_chamPa hc ho))

/-- While no cluster is gated, reading tables can only be logged (R23, R27). -/
theorem State.Awake.touchedAt_reported (h : s.Awake) (as : List Nat) : s.Reported (s.touchedAt ctx as) ctx [] := by
  unfold State.touchedAt
  rw [h.wakeAll]
  dsimp only
  split
  · exact s.report_reported _ _ _ _
  · exact ⟨rfl, fun _ _ => rfl⟩
  · exact .refl s ctx []

theorem State.Awake.woken (h : s.Awake) (t : State) : s.woken t = [] := by
  rw [State.woken, List.filter_eq_nil_iff]
  intro g hg
  simp [show s.gate g = 0 from h ⟨g, List.mem_range.mp hg⟩]

theorem State.binder_lt {lo hi len x slot : Nat} (h : s.binder lo hi len x = some (ctx, slot)) : ctx < 16 := by
  obtain ⟨p, -, hp⟩ := List.exists_of_findSome?_eq_some h
  dsimp only at hp
  split at hp
  · next hc =>
    simp only [Bool.and_eq_true, decide_eq_true_eq] at hc
    cases hp
    omega
  · cases hp

theorem State.ctxOf_lt (s : State) (c : Nat) : s.ctxOf c < 16 := by
  unfold State.ctxOf State.ctxOfClu
  cases h : s.binder 0 0x80 4 (c / 6) with
  | none => decide
  | some p => exact State.binder_lt h

end MxSteps

section MxIssue

variable {s : State} {c : Fin 96} {q : Queue} {o : Op} {w : InstrWord} {r : Issued} {i : Nat}

/-- `t` follows `s` by the issue of a matrix instruction at the head of queue `q` as the entry `f`, with the effects of `r` on memory and on
buffer `i`: the queue takes its address step, and every other buffer, scalar register and semaphore but the one waited on is as before
(R228, R230, R233). -/
structure State.MxIssued (s t : State) (c : Nat) (q : Queue) (o : Op) (w : InstrWord) (r : Issued) (i : Nat) (f : InFlight) :
    Prop where
  flight : (t.queue c q).inflight = (s.queue c q).inflight ++ [f]
  op : f.op = o
  pc : f.pc = (s.queue c q).pc
  work : f.work = r.work
  next : (t.queue c q).pc = (advance (s.queue c q).pc (s.queue c q).loops).1
  others : ∀ j, j ≠ i → t.buf c j = s.buf c j
  scalars : s.ScalarsKept t
  sems : s.SemsBut t (s.waitKeys c w)
  own : t.buf c i = r.st.buf c i
  mem : t.mem = r.st.mem
  tags : t.tags = r.st.tags

/-- Effects that keep to `State.MxStep` lead to such an issue. -/
theorem State.MxStep.issued (h : (s.takeWait c q w).MxStep r.st c q i) (hg : r.goto = none) :
    ∃ t f, s.issued c q o w r = t ∧ s.MxIssued t c q o w r i f := by
  have queue : (s.issued c q o w r).queue c q =
      { r.st.queue c q with mode := .running, wcause := .none, pc := (advance (s.queue c q).pc (s.queue c q).loops).1,
                            loops := (advance (s.queue c q).pc (s.queue c q).loops).2, fetched := none, lineWait := none, given := none,
                            inflight := (r.st.queue c q).inflight ++ [s.entry c (s.queue c q).pc o w r] } := by
    simp only [State.issued, hg, Option.getD_none]
    exact r.st.queue_setQueue_self _ _ _
  refine ⟨_, s.entry c (s.queue c q).pc o w r, rfl, ?_, rfl, rfl, rfl, by rw [queue], fun j hj => ?_, fun c' q' j => ?_,
    fun k hk hn => ?_, rfl, rfl, rfl⟩
  · rw [queue, h.flight, State.takeWait_queue]
  · exact (h.others j hj).trans (State.takeWait_buf _ _)
  · exact (h.regs _ (not_mxKey_sreg q' c'.isLt (by omega))).trans (State.takeWait_sreg q' c.isLt c'.isLt j.isLt)
  · exact (h.regs k (not_mxKey_sem hk)).trans ((s.takeWait_only c q w).2 k hn)

end MxIssue

end Sys2Proof.Machine

/-! SUPPORT. MMA: the pick scheduler's registers, what the engines leave in the buffer, and the issue as a whole (R106, R109, R111, R124,
R162 to R166, R333). -/

namespace Sys2Proof.Machine

section Pick

variable {s t u : State} {c i n : Nat} {q : Queue} {w : InstrWord}

/-- `t` is `s` with a pick of queue `q` counted (R163, R164, R176): the two counters of picks, the record of the last loser and the queues
differ, and of queue `q` not what it has in flight. -/
structure State.Picked (s t : State) (c : Nat) (q : Queue) : Prop where
  frame : t = { s with regs := t.regs, queues := t.queues, lastLoser := t.lastLoser }
  regs : s.RegsBut t [coreK c 0xA10, coreK c 0xA08]
  flight : (t.queue c q).inflight = (s.queue c q).inflight

theorem otherMx_ne (q : Queue) : q ≠ otherMx q := by
  cases q <;> decide

/-- The other matrix queue's state is no part of this queue's. -/
theorem State.setQueue_otherMx (x : QState) : (s.setQueue c (otherMx q) x).queue c q = s.queue c q := by
  rw [State.queue_setQueue, if_neg fun h => otherMx_ne q h.2]

theorem State.countPick_picked (conflict : Bool) : s.Picked (s.countPick c q conflict) c q := by
  cases conflict with
  | false => exact ⟨rfl, fun _ _ => rfl, by simp [State.countPick]⟩
  | true =>
    have counted : s.OnlyRegs ((if s.forcedWin c q then s.count (coreK c 0xA10) 1 else s).countSat (coreK c 0xA08)
        (if q = .mqb then 32 else 0) 32 1) [coreK c 0xA10, coreK c 0xA08] := by
      refine State.OnlyRegs.trans (ks := [coreK c 0xA10]) ?_ (State.countSat_only _ _ _ _ _)
      split
      · exact s.count_only _ _
      · exact .refl s _
    obtain ⟨frame, regs⟩ := counted
    simp only [State.countPick, if_true]
    generalize State.countSat _ _ _ _ _ = v at frame regs ⊢
    rw [frame]
    refine ⟨rfl, regs, ?_⟩
    rw [State.queue_setQueue_self, State.setQueue_otherMx]
    rfl

theorem State.Picked.leave (h : s.Picked t c q) (e : Option Bool) : s.Picked (t.leave c q e) c q := by
  obtain ⟨frame, regs, flight⟩ := h
  cases e with
  | none => exact ⟨frame, regs, flight⟩
  | some e =>
    refine ⟨?_, regs, ?_⟩
    · rw [frame]; rfl
    · rw [State.leave, State.setQueue_otherMx]; exact flight

theorem State.Picked.mxKeeps (h : s.Picked t c q) (hc : c < 96) : s.MxKeeps t c q i := by
  obtain ⟨frame, regs, flight⟩ := h
  refine ⟨⟨fun k hk => regs k fun hm => hk ?_, flight, fun j _ => by rw [frame]; rfl⟩, by rw [frame], by rw [frame]⟩
  simp only [List.mem_cons, List.not_mem_nil, or_false] at hm
  rcases hm with rfl | rfl
  · exact mxKey_core hc (by decide)
  · exact mxKey_core hc (by decide)

theorem State.Picked.buf (h : s.Picked t c q) (j : Nat) : t.buf c j = s.buf c j := by
  rw [h.frame]; rfl

/-- A pick decides neither whether memory answers nor where the operands of an MMA lie. -/
theorem State.Picked.deadAt (h : s.Picked t c q) (hc : c < 96) (pa : Nat) : t.deadAt pa = s.deadAt pa := by
  have stk : ∀ st o, t.reg (stkK st o) = s.reg (stkK st o) := fun st o => h.regs _ (by
    simp only [List.mem_cons, List.not_mem_nil, or_false]; unfold stkK coreK; omega)
  have off : ∀ x, t.isDisabled x = s.isDisabled x := fun x => by rw [h.frame]; rfl
  have up : ∀ g, t.cluUp g = s.cluUp g := fun g => by rw [h.frame]; rfl
  have core : ∀ g, t.coreUp g = s.coreUp g := fun g => by rw [h.frame]; rfl
  have faults : t.faults = s.faults := by rw [h.frame]
  simp only [State.deadAt, State.regBit, stk, off, up, core, faults]
  rfl

theorem State.Picked.hdrAt (h : s.Picked t c q) (hc : c < 96) (o : Nat) : t.hdrAt c o = s.hdrAt c o := by
  have mem : t.mem = s.mem := by rw [h.frame]
  simp only [State.hdrAt, State.readUnit_data, h.deadAt hc, mem]

theorem State.Picked.offs (h : s.Picked t c q) (hc : c < 96) : t.offs c q w n = s.offs c q w n := by
  have kept : t.sreg c q 15 = s.sreg c q 15 :=
    (h.mxKeeps (i := 0) hc).regs _ (not_mxKey_sreg q hc (by decide))
  simp only [State.offs, State.xr, kept]

end Pick

section Mma

variable {s t u : State} {c : Nat} {q : Queue} {w : InstrWord} {n : Nat} {x : TagSt}

/-- A bad unit of a chamber lies in the chamber. -/
theorem State.chamBad_lt {off len : Nat} (h : s.chamBad c off len = some (n, x)) : n < 0x400000 := by
  obtain ⟨y, hy, hx⟩ := List.exists_of_findSome?_eq_some h
  dsimp only at hx
  split at hx
  · cases hx
  · cases hx
    unfold unitsOf at hy
    split at hy
    · cases hy
    · obtain ⟨k, hk, rfl⟩ := List.mem_map.mp hy
      have := List.mem_range.mp hk
      omega

theorem State.tileBad_lt {a : TileAt} {fresh : Bool} {koff len : Nat} {side : List SideEnt}
    (h : s.tileBad a fresh koff len side = some (n, x)) : n < 0x400000 := by
  obtain ⟨p, -, hp⟩ := List.exists_of_findSome?_eq_some h
  exact State.chamBad_lt hp

/-- A bad unit that an MMA consumes is recorded, and may trigger a self-test (R333, R397). -/
theorem State.mmaBad_mxKeeps {optag : W16} {i : Nat} (hc : c < 96) {b : Option (Nat × TagSt)}
    (hb : ∀ n x, b = some (n, x) → n < 0x400000) : s.MxKeeps (s.mmaBad c q optag b) c q i := by
  cases b with
  | none => exact .refl s
  | some p => exact State.tookTag_mxKeeps hc (hb p.1 p.2 rfl)

/-- The buffer of an MMA that runs on an engine: open, with the shape of its tiles and its reduction length counted (R102, R109, R111). -/
structure MxRan (s : State) (c : Nat) (q : Queue) (w : InstrWord) (y : MxBuf) : Prop where
  mode : y.mode = if w.f0 then (s.buf c (bufOf q w)).mode else .open_
  used : y.used = (if w.f0 then (s.buf c (bufOf q w)).used else 0) + klen w
  shape : w.f0 = false → y.rows = (s.hdrAt c (s.tileA c q w)).lines ∧ y.cols = (s.hdrAt c (s.tileB c q w)).lines

theorem State.mmaRun_st (hc : c < 96) (e : Bool) :
    s.MxKeeps (s.mmaRun c q w e).st c q (bufOf q w) ∧ MxRan s c q w ((s.mmaRun c q w e).st.buf c (bufOf q w)) := by
  unfold State.mmaRun
  dsimp only
  refine ⟨(State.mmaBad_mxKeeps hc fun n x h => ?_).trans (State.setBuf_mxKeeps _), ?_⟩
  · rcases Option.or_eq_some_iff.mp h with h | ⟨-, h⟩
    · exact State.tileBad_lt h
    · exact State.tileBad_lt h
  · rw [State.buf_setBuf_self]
    refine ⟨?_, ?_, fun fresh => ?_⟩
    · cases w.f0 <;> rfl
    · cases w.f0 <;> rfl
    · rw [fresh]; exact ⟨rfl, rfl⟩

theorem State.mmaNull_st (hc : c < 96) :
    s.MxKeeps (s.mmaNull c q w).st c q (bufOf q w) ∧ (s.mmaNull c q w).goto = none ∧ (s.mmaNull c q w).work = .null (bufOf q w) ∧
      (w.f0 = false → ((s.mmaNull c q w).st.buf c (bufOf q w)).null = true ∧
        ((s.mmaNull c q w).st.buf c (bufOf q w)).mode = .open_) := by
  have counted : s.MxKeeps (s.count (coreK c 0xA18) 1) c q (bufOf q w) := State.count_mxKeeps (mxKey_core hc (by decide))
  unfold State.mmaNull
  dsimp only
  split
  · next cont => exact ⟨counted, rfl, rfl, fun fresh => nomatch fresh.symm.trans cont⟩
  · exact ⟨counted.trans (State.setBuf_mxKeeps _), rfl, rfl, fun _ => by rw [State.buf_setBuf_self]; exact ⟨rfl, rfl⟩⟩

/-- An MMA that no check refuses continues an open buffer or opens one (R109). -/
theorem State.mmaCheck_open (h : s.mmaCheck c q w = none) (hw : w.f0 = true) : (s.buf c (bufOf q w)).mode = .open_ := by
  by_contra hn
  have refused : need (!w.f0 || (s.buf c (bufOf q w)).mode == .open_) Code.ACC_NOT_OPEN = none :=
    List.findSome?_eq_none_iff.mp h _ (.tail _ (.tail _ (.head _)))
  simp [need, hw, hn] at refused

end Mma

section MmaIssue

variable {s : State} {c : Fin 96} {q : Queue} {w : InstrWord} {e : Option Bool} {k : Bool} {o : Option Bool}

/-- An issue with its readings of tables: while no cluster is gated they are logged at most. -/
def Issued.read (r : Issued) (ctx : Nat) (rs : List (Nat × Nat)) : Issued := { r with st := r.st.touchedAll ctx rs }

/-- An MMA that no check refuses and that the scheduler gives what it needs issues (R106, R162). -/
theorem exec_mma_take (hr : s.ready c q .mma w) (hm : s.mmaCheck c q w = none) (ha : s.Awake)
    (hp : (s.takeWait c q w).pick c q w = .take e k o) :
    exec (.mma c q w) s = .next (s.issued c q .mma w (((s.takeWait c q w).mmaIssue c q w e k o).read
      ((s.takeWait c q w).ctxOf c) ((s.takeWait c q w).mmaTables c q w))) := by
  have early : s.mmaEarly c q w = none := by rw [State.mmaEarly, hm]; rfl
  have verdict : mmaVerdict (s.takeWait c q w) c q w = .issue (((s.takeWait c q w).mmaIssue c q w e k o).read
      ((s.takeWait c q w).ctxOf c) ((s.takeWait c q w).mmaTables c q w)) := by
    simp only [mmaVerdict, hp, Verdict.reading, (ha.takeWait c.isLt).woken, if_true]
    rfl
  show Host.Outcome.next (s.runHead c q .mma w (fun s => mmaVerdict s c q w) (some fun s => s.mmaEarly c q w)) = _
  rw [State.runHead_ready_early s _ _ hr early, verdict]
  rfl

/-- While no cluster is gated, the readings of an issue leave what the issue does, and its own buffer. -/
theorem Issued.read_mxKeeps {u : State} {r : Issued} {i ctx : Nat} {rs : List (Nat × Nat)} (h : u.MxKeeps r.st c q i) (ha : u.Awake)
    (hctx : ctx < 16) : u.MxKeeps (r.read ctx rs).st c q i ∧ (r.read ctx rs).st.buf c i = r.st.buf c i := by
  have logged : r.st.Reported (r.read ctx rs).st ctx [] := (h.awake ha).touchedAt_reported _
  exact ⟨h.trans (logged.mxKeeps (by omega)), by rw [logged.1]; rfl⟩

/-- An MMA that the scheduler gives an engine runs there, whatever the pick has counted (R102, R109, R124). -/
theorem State.mmaIssue_engine (u : State) (e : Bool) :
    let r := u.mmaIssue c q w (some e) k o
    u.MxKeeps r.st c q (bufOf q w) ∧ MxRan u c q w (r.st.buf c (bufOf q w)) ∧ r.goto = none ∧
      r.work = .mma (bufOf q w) e (mmaCycles (u.hdrAt c (u.tileA c q w)).rung (klen w)) := by
  have picked : u.Picked ((u.countPick c q k).leave c q o) c q := (State.countPick_picked k).leave o
  obtain ⟨keeps, mode, used, shape⟩ := State.mmaRun_st (s := (u.countPick c q k).leave c q o) (q := q) (w := w) c.isLt e
  have tileA : ((u.countPick c q k).leave c q o).tileA c q w = u.tileA c q w := picked.offs c.isLt
  have tileB : ((u.countPick c q k).leave c q o).tileB c q w = u.tileB c q w := picked.offs c.isLt
  rw [picked.buf] at mode used
  rw [picked.hdrAt c.isLt, picked.hdrAt c.isLt, tileA, tileB] at shape
  refine ⟨(picked.mxKeeps c.isLt).trans keeps, ⟨mode, used, shape⟩, rfl, ?_⟩
  show Work.mma _ _ (mmaCycles (((u.countPick c q k).leave c q o).hdrAt c (((u.countPick c q k).leave c q o).tileA c q w)).rung _) = _
  rw [picked.hdrAt c.isLt, tileA]

/-- An MMA that takes no engine leaves a null buffer open (R166). -/
theorem State.mmaIssue_null (u : State) :
    let r := u.mmaIssue c q w none k o
    u.MxKeeps r.st c q (bufOf q w) ∧ r.goto = none ∧ r.work = .null (bufOf q w) ∧
      (w.f0 = false → (r.st.buf c (bufOf q w)).null = true ∧ (r.st.buf c (bufOf q w)).mode = .open_) := by
  have picked : u.Picked ((u.countPick c q k).leave c q o) c q := (State.countPick_picked k).leave o
  obtain ⟨keeps, rest⟩ := State.mmaNull_st (s := (u.countPick c q k).leave c q o) (q := q) (w := w) c.isLt
  exact ⟨(picked.mxKeeps c.isLt).trans keeps, rest⟩

end MmaIssue

section Completion

variable {s : State} {c : Fin 96} {q : Queue} {f : InFlight}

/-- Finishing an instruction's work changes its entry in flight and nothing else (R230). -/
theorem State.workDone_queue : (s.workDone c q f).queue c q = (s.queue c q).worked f.id [] := by
  simp only [State.workDone, State.mapFlight, State.queue_setQueue_self, QState.worked, List.append_nil]

theorem State.workDone_onlyQueue : s.OnlyQueue (s.workDone c q f) c q [] :=
  ⟨rfl, fun _ _ => rfl, fun _ _ h => (s.queue_setQueue _ _ _ _ _).trans (if_neg h)⟩

theorem exec_mmaComplete (hf : (s.queue c q).oldest Work.isMma = some f) :
    exec (.mmaComplete c q) s = if s.coreHung c then .next s else .next (s.workDone c q f) := by
  show execMmaComplete c q s = _
  simp only [execMmaComplete, hf]

end Completion

/-- Settles O15: the pick, the run and the readings of an MMA each keep what `State.MxKeeps` says, and its buffer is what the run left. -/
theorem matrixAccumulates : Obligations.MatrixAccumulates := by
  refine ⟨fun c q w s hr => ?_, fun c q s f hf => ⟨fun hung => ?_, fun runs => ?_⟩⟩
  · intro u i x hm ha
    have awake : u.Awake := ha.takeWait c.isLt
    refine ⟨fun e k o hp => ?_, fun k o hp => ?_⟩
    · obtain ⟨issue, ran, goto, work⟩ := State.mmaIssue_engine (c := c) (q := q) (w := w) (k := k) (o := o) u e
      obtain ⟨keeps, own⟩ := Issued.read_mxKeeps (rs := u.mmaTables c q w) issue awake (u.ctxOf_lt c)
      have run := exec_mma_take hr hm ha hp
      obtain ⟨t, f, ht, done⟩ := keeps.toMxStep.issued (o := .mma) goto
      rw [ht] at run
      rw [← own, ← done.own] at ran
      refine ⟨t, f, run, done.flight, done.op, done.pc, done.work.trans work, done.next, ran.mode.trans ?_, ran.used.trans ?_, ran.shape,
        done.others, ?_, ?_, done.scalars, done.sems⟩
      · split
        · next cont => exact (congrArg MxBuf.mode (State.takeWait_buf _ _)).trans (State.mmaCheck_open hm cont)
        · rfl
      · rw [State.takeWait_buf]
      · rw [done.mem, keeps.mem, State.takeWait_mem]
      · rw [done.tags, keeps.tags, State.takeWait_tags]
    · obtain ⟨issue, goto, work, null⟩ := State.mmaIssue_null (c := c) (q := q) (w := w) (k := k) (o := o) u
      obtain ⟨keeps, own⟩ := Issued.read_mxKeeps (rs := u.mmaTables c q w) issue awake (u.ctxOf_lt c)
      have run := exec_mma_take hr hm ha hp
      obtain ⟨t, f, ht, done⟩ := keeps.toMxStep.issued (o := .mma) goto
      rw [ht] at run
      rw [← own, ← done.own] at null
      refine ⟨t, f, run, done.flight, done.op, done.work.trans work, null, done.others, ?_, done.scalars, done.sems⟩
      rw [done.mem, keeps.mem, State.takeWait_mem]
  · rw [exec_mmaComplete hf, if_pos hung]
  · refine ⟨s.workDone c q f, ?_, State.workDone_onlyQueue, State.workDone_queue⟩
    rw [exec_mmaComplete hf, runs]
    rfl

end Sys2Proof.Machine

/-! SUPPORT. MDRN: the units that a drain writes, what its counters and its NaN trap change, its issue, and the slot table at its completion
(R109, R117 to R122, R166, R170). -/

namespace Sys2Proof.Machine

section Drain

variable {s t : State} {c i dst bytes n : Nat} {q : Queue} {w : InstrWord} {x : MxBuf} {ds : List Drained} {f : ResidueFinding}
  {us : List Nat}

/-- The units of a drained tile in the order of its rows, each with whether it is written poisoned (R119, R120, R122). -/
def drainUnits (bytes : Nat) (x : MxBuf) (ds : List Drained) (f : ResidueFinding) : List (List Byte × Bool) :=
  ((chunks x.cols ds).zipIdx.map fun r =>
    (chunks 64 (drainRow bytes r.1)).map fun u => (u, x.poisoned || findingMarks f r.2)).flatten

theorem chunks_length {α : Type} (n : Nat) (xs : List α) : (chunks n xs).length = (xs.length + n - 1) / n := by
  simp [chunks]

theorem length_le_of_mem_chunks {α : Type} {n : Nat} {xs ys : List α} (h : ys ∈ chunks n xs) : ys.length ≤ n := by
  obtain ⟨j, -, rfl⟩ := List.mem_map.mp h
  exact List.length_take_le _ _

theorem alignUp_mono {a b : Nat} (h : a ≤ b) : alignUp a 64 ≤ alignUp b 64 := by
  unfold alignUp; omega

/-- A row is padded to whole units (R119). -/
theorem drainRow_length : (drainRow bytes ds).length = alignUp (ds.length * bytes) 64 := by
  have row : (ds.map fun d => leBytes bytes d.pat).flatten.length = ds.length * bytes := by
    rw [List.length_flatten, List.map_map]
    simp [Function.comp_def, leBytes_length]
  have pad : ds.length * bytes ≤ alignUp (ds.length * bytes) 64 := by unfold alignUp; omega
  rw [drainRow, List.length_append, row, zeros, List.length_replicate]
  omega

/-- A drain writes no more units than its padded rows hold (R119). -/
theorem drainUnits_length_le :
    64 * (drainUnits bytes x ds f).length ≤ (ds.length + x.cols - 1) / x.cols * alignUp (x.cols * bytes) 64 := by
  have row : ∀ n ∈ (chunks x.cols ds).zipIdx.map fun r =>
      ((chunks 64 (drainRow bytes r.1)).map fun u => (u, x.poisoned || findingMarks f r.2)).length,
      n ≤ alignUp (x.cols * bytes) 64 / 64 := by
    intro n hn
    obtain ⟨r, hr, rfl⟩ := List.mem_map.mp hn
    have short : r.1.length ≤ x.cols := length_le_of_mem_chunks (List.fst_mem_of_mem_zipIdx hr)
    have fits := alignUp_mono (Nat.mul_le_mul_right bytes short)
    rw [List.length_map, chunks_length, drainRow_length]
    unfold alignUp at *
    omega
  have total := List.sum_le_card_nsmul _ _ row
  rw [List.length_map, List.length_zipIdx, chunks_length, smul_eq_mul] at total
  rw [drainUnits, List.length_flatten, List.map_map]
  have whole : alignUp (x.cols * bytes) 64 = 64 * (alignUp (x.cols * bytes) 64 / 64) := by unfold alignUp; omega
  calc _ ≤ 64 * ((ds.length + x.cols - 1) / x.cols * (alignUp (x.cols * bytes) 64 / 64)) := Nat.mul_le_mul_left 64 total
    _ = _ := by rw [Nat.mul_left_comm, ← whole]

/-- Whole units written one after another from a chamber offset change those units (R331). -/
theorem State.writeUnits_served (l : List ((List Byte × Bool) × Nat)) (hd : ∀ u ∈ l, chamPa c (dst + 64 * u.2) / 64 * 64 ∈ us) :
    s.Served (l.foldl (fun s u => s.writeUnit (chamPa c (dst + 64 * u.2)) u.1.1 u.1.2) s) us := by
  induction l generalizing s with
  | nil => exact .refl s us
  | cons u l ih => exact (State.writeUnitX_served (hd u (.head l))).trans (ih fun v hv => hd v (.tail u hv))

/-- Every byte outside consecutive units is outside the range that they make up. -/
theorem State.Served.bytesBut {a m : Nat} (h : s.Served t ((List.range n).map fun k => a + 64 * k)) (ha : a % 64 = 0) (hm : 64 * n ≤ m) :
    s.BytesBut t a m := by
  intro y hy
  refine h.units y fun hu => ?_
  obtain ⟨k, hk, e⟩ := List.mem_map.mp hu
  have := List.mem_range.mp hk
  omega

theorem State.poisoned_mxKeeps {ctx : Nat} (hctx : ctx < 16) : s.MxKeeps (s.poisoned ctx) c q i := by
  have key : MxKey (errK ctx 0) := .inl (portKey_err hctx (by decide))
  unfold State.poisoned
  split
  · exact .refl s
  · exact ((s.setBit_only _ _ _).mxKeeps (by simpa using key)).trans ((State.setFld_only _ _ _ _ _).mxKeeps (by simpa using key))

theorem State.wrotePoison_mxKeeps (hc : c < 96) : s.MxKeeps (s.wrotePoison c n) c q i := by
  unfold State.wrotePoison
  split
  · exact .refl s
  · exact (State.count_mxKeeps (mxKey_core hc (by decide))).trans (State.poisoned_mxKeeps (s.ctxOf_lt c))

/-- A drain writes its units from the chamber offset on, and counts (R119, R120, R333). -/
theorem State.drainWrite_served (hc : c < 96) (hd : dst % 64 = 0) :
    ∃ v, s.Served v ((List.range (drainUnits bytes x ds f).length).map fun k => chamPa c dst + 64 * k) ∧
      v.MxKeeps (s.drainWrite c dst bytes x ds f) c q i := by
  refine ⟨_, State.writeUnits_served (s := s) (c := c) (dst := dst)
    ((drainUnits bytes x ds f).take ((0x400000 - dst) / 64)).zipIdx fun u hu => ?_,
    (State.wrotePoison_mxKeeps hc).trans (State.count_mxKeeps (mxKey_core hc (by decide)))⟩
  have := (List.mem_zipIdx' hu).1
  refine List.mem_map.mpr ⟨u.2, List.mem_range.mpr ?_, ?_⟩
  · simp at this; omega
  · unfold chamPa chamBase; omega

theorem State.first_mxKeeps {k : Nat} {v : W64} (hk : MxKey k) : s.MxKeeps (s.first k v) c q i :=
  (s.first_only k v).mxKeeps (by simpa using hk)

/-- The counters of a drain and its statistics (R104, R121, R127, R141). -/
theorem State.drainCount_mxKeeps {j : Nat} (hc : c < 96) : s.MxKeeps (s.drainCount c j q w dst x ds f) c q i := by
  have counted : ∀ (r : State) (o n : Nat), 0x900 ≤ o ∧ o < 0x1000 → r.MxKeeps (r.count (coreK c o) n) c q i := fun r o n ho =>
    State.count_mxKeeps (mxKey_core hc (.inr ho))
  unfold State.drainCount
  extract_lets inexact drained checked found
  have counts : s.MxKeeps checked c q i :=
    ((counted s 0x910 _ (by decide)).trans (counted _ 0x918 _ (by decide))).trans (counted _ 0x920 _ (by decide))
  have logged : checked.MxKeeps found c q i := by
    unfold found
    split
    · exact (counted _ 0x928 _ (by decide)).trans (State.first_mxKeeps (mxKey_core hc (by decide)))
    · exact .refl _
  exact (counts.trans logged).trans (.of_parts rfl rfl rfl rfl rfl)

theorem State.nanTrap_only {source origin coord : Nat} {pc : BitVec 14} {optag : W16} :
    s.OnlyRegs (s.nanTrap c q source origin pc optag coord) [coreK c 0x20, coreK c 0x10, coreK c 0x18] := by
  unfold State.nanTrap
  split
  · exact (s.count_only _ _).mono (by simp)
  · exact ((s.setReg_only _ _).trans (State.setReg_only _ _ _)).mono (by simp)

theorem State.nanTrap_mxKeeps {source origin coord : Nat} {pc : BitVec 14} {optag : W16} (hc : c < 96) :
    s.MxKeeps (s.nanTrap c q source origin pc optag coord) c q i :=
  State.nanTrap_only.mxKeeps fun k hk => by
    simp only [List.mem_cons, List.not_mem_nil, or_false] at hk
    rcases hk with rfl | rfl | rfl <;> exact mxKey_core hc (by decide)

theorem State.nanTrap_bufs {source origin coord : Nat} {pc : BitVec 14} {optag : W16} :
    (s.nanTrap c q source origin pc optag coord).bufs = s.bufs := by rw [State.nanTrap_only.1]

theorem drainCells_length {fm : Fmt} {mode : Rnd} {seed : W64} {tag : W16} : (drainCells fm mode seed tag x).length = x.cells.length := by
  simp [drainCells]

/-- The bytes that a drain of a buffer writes: its rows, each padded to whole units (R119). -/
def MxBuf.drained (x : MxBuf) (bytes : Nat) : Nat := (x.cells.length + x.cols - 1) / x.cols * alignUp (x.cols * bytes) 64

/-- What a drain leaves before its completion: `t` differs from `s` in memory only in the buffer's rows from its chamber offset on, and the
buffer is draining (R109, R119). -/
structure State.Drains (s t : State) (c : Nat) (q : Queue) (w : InstrWord) : Prop where
  step : s.MxStep t c q (bufOf q w)
  mode : (t.buf c (bufOf q w)).mode = .draining
  bytes : s.BytesBut t (chamPa c (s.offs c q w (opnd w 15 0 * 64)))
    ((s.buf c (bufOf q w)).drained (((fmtOf (opnd w 63 60)).getD .fp32).bits / 8))

theorem State.Drains.keeps {u : State} (h : s.Drains t c q w) (h' : t.MxKeeps u c q (bufOf q w)) (own : u.bufs = t.bufs) :
    s.Drains u c q w := by
  obtain ⟨step, mode, bytes⟩ := h
  refine ⟨step.trans h'.toMxStep, ?_, fun y hy => ?_⟩
  · rw [State.buf, own]; exact mode
  · rw [h'.mem]; exact bytes y hy

theorem State.mdrnRun_drains {found : ResidueFinding} (hc : c < 96) (hd : s.offs c q w (opnd w 15 0 * 64) % 64 = 0) :
    s.Drains (s.mdrnRun c q w found).st c q w ∧ (s.mdrnRun c q w found).goto = none ∧
      (s.mdrnRun c q w found).work = .mdrn (bufOf q w) := by
  unfold State.mdrnRun
  extract_lets i x dst fm ds f step t u err
  obtain ⟨v, wrote, rest⟩ :=
    State.drainWrite_served (s := s) (bytes := fm.bits / 8) (x := x) (ds := ds) (f := f) (i := i) (q := q) hc hd
  have counted : v.MxKeeps u c q i := (rest.trans (State.drainCount_mxKeeps hc)).trans (State.setBuf_mxKeeps _)
  have drains : s.Drains u c q w := by
    refine ⟨wrote.mxStep.trans counted.toMxStep, congrArg MxBuf.mode (State.buf_setBuf_self _), fun y hy => ?_⟩
    rw [counted.mem]
    refine wrote.bytesBut (by unfold chamPa chamBase; omega) (drainUnits_length_le.trans ?_) y hy
    rw [drainCells_length]
    exact le_refl _
  split
  · exact ⟨drains, rfl, rfl⟩
  · exact ⟨drains.keeps (State.nanTrap_mxKeeps hc) State.nanTrap_bufs, rfl, rfl⟩

theorem State.mdrnNull_drains (hc : c < 96) :
    s.Drains (s.mdrnNull c (bufOf q w)).st c q w ∧ (s.mdrnNull c (bufOf q w)).st.mem = s.mem := by
  have keeps : s.MxKeeps (s.mdrnNull c (bufOf q w)).st c q (bufOf q w) :=
    (State.count_mxKeeps (mxKey_core hc (by decide))).trans (State.setBuf_mxKeeps _)
  exact ⟨⟨keeps.toMxStep, congrArg MxBuf.mode (State.buf_setBuf_self _), fun y _ => by rw [keeps.mem]⟩, keeps.mem⟩

/-- A drain that issues, of a null buffer or one with contents (R115, R166). -/
theorem State.mdrnIssue_drains {found : ResidueFinding} (hc : c < 96) (hd : s.offs c q w (opnd w 15 0 * 64) % 64 = 0) :
    let r := s.mdrnIssue c q w found
    s.Drains r.st c q w ∧ r.goto = none ∧ r.work = .mdrn (bufOf q w) ∧ ((s.buf c (bufOf q w)).null = true → r.st.mem = s.mem) := by
  unfold State.mdrnIssue
  split
  · obtain ⟨drains, mem⟩ := State.mdrnNull_drains (s := s) (q := q) (w := w) hc
    exact ⟨drains, rfl, rfl, fun _ => mem⟩
  · next full =>
    obtain ⟨drains, goto, work⟩ := State.mdrnRun_drains (found := found) hc hd
    exact ⟨drains, goto, work, fun null => absurd null full⟩

end Drain

section MdrnIssue

variable {s : State} {c : Fin 96} {q : Queue} {w : InstrWord} {found : ResidueFinding}

/-- The chamber offset of an MDRN that the frame's checks pass is that of a unit (R249). -/
theorem State.frameCheck_mdrn (h : s.frameCheck c q .mdrn w = none) : s.offs c q w (opnd w 15 0 * 64) % 64 = 0 := by
  have ok : s.chamOk c q .mdrn w = true := by
    by_contra hn
    unfold State.frameCheck at h
    split at h
    · cases h
    split at h
    · cases h
    · rw [if_pos (by simpa using hn)] at h
      cases h
  simp only [State.chamOk, chamFields, List.all_cons, List.all_nil, Bool.and_true, Bool.and_eq_true, beq_iff_eq] at ok
  exact ok.2

/-- An MDRN that no check refuses issues once its buffer's last MMA has completed, and its engine is not under test (R162, R397). -/
theorem exec_mdrn (hr : s.ready c q .mdrn w) (idle : (s.queue c q).mmaRuns (bufOf q w) = false) (hm : s.mdrnCheck c q w = none)
    (ht : (s.buf c (bufOf q w)).null = true ∨ s.underTest (engineUnit c (s.buf c (bufOf q w)).engine) = false) :
    exec (.mdrn c q w found) s = .next (s.issued c q .mdrn w ((s.takeWait c q w).mdrnIssue c q w found)) := by
  have early : s.mdrnEarly c q w = none := by rw [State.mdrnEarly, if_neg (by simp [idle]), hm]
  have verdict : mdrnVerdict (s.takeWait c q w) c q w found = .issue ((s.takeWait c q w).mdrnIssue c q w found) := by
    refine if_neg ?_
    rw [State.takeWait_queue, State.takeWait_buf, State.takeWait_underTest, idle]
    rcases ht with null | free
    · simp [null]
    · simp [free]
  show Host.Outcome.next (s.runHead c q .mdrn w (fun s => mdrnVerdict s c q w found) (some fun s => s.mdrnEarly c q w)) = _
  rw [State.runHead_ready_early s _ _ hr early, verdict]
  rfl

end MdrnIssue

section SlotTable

variable {s t : State} {ctx pa i : Nat} {bs : List Byte} {poison : Bool} {x : MxBuf}

/-- A byte of a patched list outside the patch is the list's (R332). -/
theorem getElem_patch_out {l : List Byte} {j : Nat} (h : i + bs.length ≤ l.length) (hj : j < i ∨ i + bs.length ≤ j)
    (h1 : j < (patch l i bs).length) (h2 : j < l.length) : (patch l i bs)[j] = l[j] := by
  have front : (l.take i).length = i := by simp; omega
  simp only [patch, List.append_assoc]
  rcases hj with low | high
  · rw [List.getElem_append_left (by omega), List.getElem_take]
  · rw [List.getElem_append_right (by omega), List.getElem_append_right (by omega), List.getElem_drop]
    congr 1
    omega

theorem State.writeUnitX_mem_dead {v : W16} (h : s.deadAt pa ≠ none) : (s.writeUnitX pa bs v).mem = s.mem := by
  unfold State.writeUnitX
  split
  · exact (s.count_only _ _).mem
  · rfl
  · next alive => exact absurd alive h

/-- A write of part of a unit changes those bytes alone (R332). -/
theorem State.writePart_bytesBut (h : pa % 64 + bs.length ≤ 64) : s.BytesBut (s.writePart pa bs poison) pa bs.length := by
  intro y hy
  by_cases inside : y / 64 * 64 = pa / 64 * 64
  · unfold State.writePart
    split
    · next whole =>
      obtain ⟨align, len⟩ : pa % 64 = 0 ∧ bs.length = 64 := by simpa using whole
      omega
    · have len : (patch (s.readUnit pa).data (pa % 64) bs).length = 64 := by
        rw [patch_length (by rw [State.readUnit_length]; exact h), State.readUnit_length]
      by_cases dead : s.deadAt pa = none
      · obtain ⟨j, hj, rfl⟩ : ∃ j, j < 64 ∧ y = pa / 64 * 64 + j := ⟨y % 64, by omega, by omega⟩
        simp only [State.writeUnit, State.writeUnitX_mem dead, List.take_of_length_le len.le]
        rw [memByte_memWrite_in _ _ _ _ (by omega),
          getElem_patch_out (by rw [State.readUnit_length]; exact h) (by omega) _ (by rw [State.readUnit_length]; exact hj)]
        simp only [State.readUnit_data, if_pos dead, memRead_eq, List.getElem_map, List.getElem_range]
      · exact congrArg (memByte · y) (State.writeUnitX_mem_dead dead)
  · exact (State.writePart_served (List.mem_singleton.mpr rfl)).units y (by simpa using inside)

theorem State.through_bytesBut {own : Option Nat} {g : State → State} {a n : Nat} (h : s.BytesBut (g s) a n) :
    s.BytesBut (s.through own pa g) a n := by
  cases shut : s.shutCore own pa with
  | none => rwa [State.through_open g shut]
  | some c =>
    rw [State.through_shut g shut]
    exact fun y _ => by rw [(s.count_only _ _).mem]

/-- A write of a context's table that lies in one unit lands where the unit's address leads, or is discarded (R27, R32). -/
theorem State.tableWrite_mem {addr : Nat} (hb : bs ≠ []) (h : addr % 64 + bs.length ≤ 64) (hp : s.localPlace ctx addr = .mem pa) :
    s.tableWrite ctx addr bs = s.through none pa fun s => s.writePart pa bs := by
  have all : bs.take (64 - addr % 64) = bs := List.take_of_length_le (by omega)
  have rest : bs.drop (64 - addr % 64) = [] := List.drop_eq_nil_of_le (by omega)
  simp only [State.tableWrite, State.tableWriteN, if_neg hb, all, rest, hp, if_true]

theorem State.tableWrite_nowhere {addr : Nat} (h : addr % 64 + bs.length ≤ 64) (hp : ∀ pa, s.localPlace ctx addr ≠ .mem pa) :
    s.tableWrite ctx addr bs = s := by
  have rest : bs.drop (64 - addr % 64) = [] := List.drop_eq_nil_of_le (by omega)
  by_cases hb : bs = []
  · exact if_pos hb
  · cases place : s.localPlace ctx addr with
    | mem pa => exact absurd place (hp pa)
    | _ => simp only [State.tableWrite, State.tableWriteN, if_neg hb, place, rest, if_true]

/-- The slot table's update is off unless PIPE_SLBASE.EN is 1 (R170). -/
theorem State.slotUpdate_off (h : s.regBit (pipeK ctx 0) 0 = false) : s.slotUpdate ctx x = s := if_neg (by simp [h])

/-- Words 2 and 3 of the entry of a buffer's slot (R170). -/
def State.slotAddr (s : State) (ctx : Nat) (x : MxBuf) : Nat := tableAddr (s.reg (pipeK ctx 0)) + 32 * x.slot.toNat + 16

theorem State.slotAddr_mod : s.slotAddr ctx x % 64 ≤ 48 := by
  unfold State.slotAddr tableAddr; omega

/-- The slot table's update changes words 2 and 3 of the slot's entry, where they lead to memory (R27, R170). -/
theorem State.slotUpdate_served (ha : s.Awake) (hctx : ctx < 16) :
    (∃ us, s.Served (s.slotUpdate ctx x) us) ∧
      ∀ pa, s.localPlace ctx (s.slotAddr ctx x) = .mem pa → s.BytesBut (s.slotUpdate ctx x) pa 16 := by
  by_cases en : s.regBit (pipeK ctx 0) 0 = true
  · obtain ⟨bs, len, e⟩ : ∃ bs : List Byte, bs.length = 16 ∧
        s.slotUpdate ctx x = (s.touched ctx (s.slotAddr ctx x) 16).tableWrite ctx (s.slotAddr ctx x) bs :=
      ⟨_, by rw [List.length_append, leBytes_length, leBytes_length], if_pos en⟩
    have low : s.slotAddr ctx x % 64 + bs.length ≤ 64 := by have := State.slotAddr_mod (s := s) (ctx := ctx) (x := x); omega
    have touched : ∀ us, s.Served (s.touched ctx (s.slotAddr ctx x) 16) us := fun us => (ha.touchedAt_reported _).served hctx
    rw [e]
    have leads := (touched []).localPlace hctx (s.slotAddr ctx x)
    cases place : s.localPlace ctx (s.slotAddr ctx x) with
    | mem pa =>
      obtain ⟨same, window⟩ := State.localPlace_mem place
      rw [State.tableWrite_mem (by rintro rfl; cases len) low (leads.trans place)]
      refine ⟨⟨[pa / 64 * 64], (touched _).trans (State.through_served window (State.writePart_served (.head [])))⟩,
        fun pa' h y hy => ?_⟩
      cases h
      rw [← len] at hy
      exact (State.through_bytesBut (State.writePart_bytesBut (by omega)) y hy).trans ((touched []).units y List.not_mem_nil)
    | _ =>
      rw [State.tableWrite_nowhere low fun pa h => nomatch place.symm.trans (leads.symm.trans h)]
      exact ⟨⟨[], touched []⟩, fun _ h => nomatch h⟩
  · rw [State.slotUpdate_off (by simpa using en)]
    exact ⟨⟨[], .refl s []⟩, fun _ _ _ _ => rfl⟩

end SlotTable

section MdrnCompletion

variable {s : State} {c : Fin 96} {q : Queue} {f : InFlight} {i : Nat}

/-- `s` after an MDRN's completion: its buffer is free and its entry has done its work (R109, R112, R170). -/
def State.mdrnDone (s : State) (c : Nat) (q : Queue) (f : InFlight) (i : Nat) : State :=
  ((s.slotUpdate (s.ctxOf c) (s.buf c i)).setBuf c i {}).workDone c q f

theorem exec_mdrnComplete (hf : (s.queue c q).oldest Work.isMdrn = some f) (hw : f.work = .mdrn i) (hc : s.coreHung c = false)
    (ha : s.Awake) : exec (.mdrnComplete c q) s = .next (s.mdrnDone c q f i) := by
  show execMdrnComplete c q s = _
  simp only [execMdrnComplete, hf, hw, hc, ha.unlessGated]
  rfl

end MdrnCompletion

/-- Settles O16: a drain's units are the rows of its buffer, and what follows them at issue and at the completion is off memory or in the
slot's entry. -/
theorem matrixDrains : Obligations.MatrixDrains := by
  refine ⟨fun c q w found s hr => ?_, fun c q s f i hf hw hc ha => ?_⟩
  · intro u i b x dst bytes idle hm ht
    have align : u.offs c q w (opnd w 15 0 * 64) % 64 = 0 := by
      obtain ⟨-, -, -, -, framed⟩ := hr
      rw [State.takeWait_offs c.isLt]
      exact State.frameCheck_mdrn framed
    obtain ⟨drains, goto, work, null⟩ := State.mdrnIssue_drains (s := u) (found := found) c.isLt align
    have run := exec_mdrn (found := found) hr idle hm ht
    obtain ⟨t, f, e, done⟩ := drains.step.issued (o := .mdrn) goto
    rw [e] at run
    have own : u.buf c i = b := State.takeWait_buf _ _
    refine ⟨t, f, run, done.flight, done.op, done.pc, done.work.trans work, done.next, ?_, done.others, fun hb => ?_, done.scalars,
      done.sems, fun y hy => ?_⟩
    · rw [done.own]; exact drains.mode
    · rw [done.mem, null (own ▸ hb), State.takeWait_mem]
    · rw [done.mem, drains.bytes y (by rw [own]; exact hy), State.takeWait_mem]
  · obtain ⟨⟨us, served⟩, bytes⟩ := State.slotUpdate_served (x := s.buf c i) ha (s.ctxOf_lt c)
    refine ⟨_, exec_mdrnComplete hf hw hc ha, State.buf_setBuf_self _, fun j hj => ?_, fun off => ?_, bytes, ?_⟩
    · exact (State.buf_setBuf_ne _ hj).trans (congrArg (tgetD · _ _) served.bufs)
    · rw [State.mdrnDone, State.slotUpdate_off off]
      exact ⟨rfl, rfl⟩
    · rw [State.mdrnDone, State.workDone_queue]
      exact congrArg (QState.worked · f.id []) (congrArg (tgetD · _ _) served.queues)

end Sys2Proof.Machine

/-! SUPPORT. The ladder's decision: what its escalations cost and which layers they move (R136, R152). -/

namespace Sys2Proof.Machine

section Ladder

variable {ls : List Lay} {l m : Lay} {d : Decision} {o : List Nat} {budget used i : Nat}

/-- What layers cost at their rungs (R136, R152). -/
def ladderCost (ls : List Lay) : Nat := (ls.map fun x => x.cost * rungMult x.rung).sum

/-- A layer one rung up, and a layer one rung down where it wants that (R152). -/
def Lay.raised (l : Lay) : Lay := { l with rung := l.rung + 1, hold := 0, quiet := 0 }
def Lay.lowered (l : Lay) : Lay := if l.want < 0 then { l with rung := l.rung - 1, hold := 0, quiet := 0 } else l

/-- The layers that ask for a higher rung, in the order in which they are served (R152). -/
def requests (ls : List Lay) : List Nat :=
  (List.range ls.length).foldl (fun o i => if ((ls[i]?).map Lay.want).getD 0 = 1 then insertReq ls i o else o) []

theorem rungMult_mono {a b : Nat} (h : a ≤ b) : rungMult a ≤ rungMult b := by
  unfold rungMult; split_ifs <;> omega

theorem Lay.lowered_of_not_neg (h : ¬l.want < 0) : l.lowered = l := if_neg h

theorem Lay.lowered_want : l.lowered.want = l.want := by
  unfold Lay.lowered; split <;> rfl

theorem Lay.lowered_rung : l.lowered.rung ≤ l.rung ∧ l.rung ≤ l.lowered.rung + 1 := by
  unfold Lay.lowered; split <;> simp; omega

theorem Lay.lowered_cost_le : l.lowered.cost * rungMult l.lowered.rung ≤ l.cost * rungMult l.rung := by
  have same : l.lowered.cost = l.cost := by unfold Lay.lowered; split <;> rfl
  rw [same]
  exact Nat.mul_le_mul_left _ (rungMult_mono Lay.lowered_rung.1)

theorem ladderCost_lowered_le : ladderCost (ls.map Lay.lowered) ≤ ladderCost ls := by
  rw [ladderCost, List.map_map]
  exact List.sum_le_sum fun l _ => Lay.lowered_cost_le

theorem ladderCost_set (h : ls[i]? = some l) :
    ladderCost (ls.set i m) + l.cost * rungMult l.rung = ladderCost ls + m.cost * rungMult m.rung := by
  induction ls generalizing i with
  | nil => cases h
  | cons a ls ih =>
    cases i with
    | zero => cases h; simp only [ladderCost, List.set_cons_zero, List.map_cons, List.sum_cons]; omega
    | succ i =>
      have := ih h
      simp only [ladderCost, List.set_cons_succ, List.map_cons, List.sum_cons] at this ⊢
      omega

/-- A request is placed among the others. -/
theorem insertReq_perm : (insertReq ls i o).Perm (i :: o) := by
  induction o with
  | nil => exact .refl _
  | cons j o ih =>
    unfold insertReq
    split
    · exact .refl _
    · exact (ih.cons j).trans (.swap i j o)

/-- The layers served are those that ask, each once. -/
theorem requests_perm : (requests ls).Perm ((List.range ls.length).filter fun i => ((ls[i]?).map Lay.want).getD 0 = 1) := by
  have placed : ∀ (is o : List Nat), (is.foldl (fun o i => if ((ls[i]?).map Lay.want).getD 0 = 1 then insertReq ls i o else o) o).Perm
      ((is.filter fun i => ((ls[i]?).map Lay.want).getD 0 = 1) ++ o) := by
    intro is
    induction is with
    | nil => exact fun o => .refl o
    | cons i is ih =>
      intro o
      by_cases asks : ((ls[i]?).map Lay.want).getD 0 = 1
      · rw [List.foldl_cons, if_pos asks, List.filter_cons_of_pos (by simpa using asks)]
        exact (ih _).trans ((insertReq_perm.append_left _).trans List.perm_middle)
      · rw [List.foldl_cons, if_neg asks, List.filter_cons_of_neg (by simpa using asks)]
        exact ih o
  rw [← List.append_nil (List.filter _ _)]
  exact placed (List.range ls.length) []

theorem requests_nodup : (requests ls).Nodup := requests_perm.nodup_iff.mpr (List.nodup_range.filter _)

theorem want_of_mem_requests (h : i ∈ requests ls) (hl : ls[i]? = some l) : l.want = 1 := by
  have asks := (List.mem_filter.mp (requests_perm.mem_iff.mp h)).2
  simpa [hl] using asks

/-- One request: its layer is raised where the cost stays within the budget, and otherwise no layer moves (R152). -/
theorem escalate_cons (budget : Nat) (d : Decision) (used i : Nat) (o : List Nat) :
    ∃ d' used', escalate budget d used (i :: o) = escalate budget d' used' o ∧ d'.frozen = d.frozen ∧
      (d'.layers = d.layers ∧ used' = used ∨
        ∃ l, d.layers[i]? = some l ∧ d'.layers = d.layers.set i l.raised ∧ used' ≤ budget ∧
          used' = used + l.cost * (rungMult (l.rung + 1) - rungMult l.rung)) := by
  cases hl : d.layers[i]? with
  | none => exact ⟨d, used, by rw [escalate, hl], rfl, .inl ⟨rfl, rfl⟩⟩
  | some l =>
    by_cases fits : used + l.cost * (rungMult (l.rung + 1) - rungMult l.rung) ≤ budget
    · exact ⟨{ d with layers := d.layers.set i l.raised, moved := d.moved + 1 }, _, by simp only [escalate, hl, if_pos fits]; rfl, rfl,
        .inr ⟨l, rfl, rfl, fits, rfl⟩⟩
    · exact ⟨{ d with denied := d.denied + 1 }, used, by simp only [escalate, hl, if_neg fits], rfl, .inl ⟨rfl, rfl⟩⟩

theorem escalate_frozen : (escalate budget d used o).frozen = d.frozen := by
  induction o generalizing d used with
  | nil => rfl
  | cons i o ih =>
    obtain ⟨d', used', step, frozen, -⟩ := escalate_cons budget d used i o
    rw [step, ih, frozen]

theorem escalate_length : (escalate budget d used o).layers.length = d.layers.length := by
  induction o generalizing d used with
  | nil => rfl
  | cons i o ih =>
    obtain ⟨d', used', step, -, ⟨layers, -⟩ | ⟨l, -, layers, -⟩⟩ := escalate_cons budget d used i o
    · rw [step, ih, layers]
    · rw [step, ih, layers, List.length_set]

/-- What has been used is what the layers cost, so escalations stay within the budget (R152). -/
theorem escalate_cost (h : ladderCost d.layers = used) : ladderCost (escalate budget d used o).layers ≤ max budget used := by
  induction o generalizing d used with
  | nil => exact h.le.trans (Nat.le_max_right _ _)
  | cons i o ih =>
    obtain ⟨d', used', step, -, ⟨layers, same⟩ | ⟨l, hl, layers, fits, more⟩⟩ := escalate_cons budget d used i o
    · rw [step, ← same]
      exact ih (by rw [layers, h, same])
    · have cost : ladderCost d'.layers = used' := by
        have raised := ladderCost_set (m := l.raised) hl
        have : rungMult l.rung ≤ rungMult (l.rung + 1) := rungMult_mono (Nat.le_succ _)
        have : l.cost * rungMult l.rung ≤ l.cost * rungMult (l.rung + 1) := Nat.mul_le_mul_left _ this
        rw [Nat.mul_sub] at more
        simp only [Lay.raised, Lay.cost] at raised more this
        rw [layers]
        simp only [Lay.raised]
        omega
      have := ih cost
      rw [step]
      omega

/-- Where each layer asks once, it rises by one rung at most, and the others stay (R152). -/
theorem escalate_layer (h : o.Nodup) : (escalate budget d used o).layers[i]? = d.layers[i]? ∨
    i ∈ o ∧ (escalate budget d used o).layers[i]? = (d.layers[i]?).map Lay.raised := by
  induction o generalizing d used with
  | nil => exact .inl rfl
  | cons j o ih =>
    obtain ⟨fresh, rest⟩ := List.nodup_cons.mp h
    obtain ⟨d', used', step, -, ⟨layers, -⟩ | ⟨l, hl, layers, -⟩⟩ := escalate_cons budget d used j o
    · rw [step, ← layers]
      exact (ih rest).imp_right fun ⟨hm, e⟩ => ⟨.tail j hm, e⟩
    · rw [step]
      by_cases hj : j = i
      · subst hj
        have once : d'.layers[j]? = (d.layers[j]?).map Lay.raised := by
          obtain ⟨hlt, -⟩ := List.getElem?_eq_some_iff.mp hl
          rw [layers, List.getElem?_set_self hlt, hl]; rfl
        refine .inr ⟨.head o, ?_⟩
        rcases ih (d := d') (used := used') rest with e | ⟨hm, -⟩
        · rw [e, once]
        · exact absurd hm fresh
      · have other : d'.layers[i]? = d.layers[i]? := by rw [layers, List.getElem?_set_ne hj]
        rw [← other]
        exact (ih rest).imp_right fun ⟨hm, e⟩ => ⟨.tail j hm, e⟩

/-- A decision is frozen and keeps the layers, or it lowers the layers that want it and then serves the requests (R152). -/
theorem decideMoves_cases (k : KerbSample) (frozen : Bool) (ls : List Lay) :
    (∃ stormed, decideMoves k frozen ls = { layers := ls, frozen := true, stormed := stormed }) ∨
    ∃ moved, decideMoves k frozen ls =
      escalate k.budget.toNat { layers := ls.map Lay.lowered, moved := moved, frozen := false } (ladderCost (ls.map Lay.lowered))
        (requests (ls.map Lay.lowered)) := by
  unfold decideMoves
  dsimp only
  split
  · exact .inl ⟨false, rfl⟩
  · split
    · exact .inl ⟨true, rfl⟩
    · exact .inr ⟨_, rfl⟩

theorem decideMoves_length (k : KerbSample) (frozen : Bool) (ls : List Lay) : (decideMoves k frozen ls).layers.length = ls.length := by
  rcases decideMoves_cases k frozen ls with ⟨stormed, e⟩ | ⟨moved, e⟩
  · rw [e]
  · rw [e, escalate_length, List.length_map]

end Ladder

/-- Settles O28: lowering raises no cost, and each escalation is checked against what the layers cost by then. -/
theorem ladderKeepsToItsBudget : Obligations.LadderKeepsToItsBudget := by
  intro k frozen ls
  dsimp only
  have length := decideMoves_length k frozen ls
  rcases decideMoves_cases k frozen ls with ⟨stormed, e⟩ | ⟨moved, e⟩
  · rw [e] at length ⊢
    refine ⟨Nat.le_max_right _ _, length, fun _ => ⟨rfl, rfl, rfl⟩, fun i a b ha hb => ?_⟩
    cases ha.symm.trans hb
    exact ⟨fun _ => rfl, Nat.le_succ _, Nat.le_succ _⟩
  · rw [e] at length ⊢
    refine ⟨(escalate_cost rfl).trans (max_le_max le_rfl ladderCost_lowered_le), length, fun h => ?_, fun i a b ha hb => ?_⟩
    · rw [escalate_frozen] at h
      cases h
    · have start : (ls.map Lay.lowered)[i]? = some a.lowered := by rw [List.getElem?_map, ha]; rfl
      obtain ⟨down, up⟩ := a.lowered_rung
      rcases escalate_layer (budget := k.budget.toNat) (used := ladderCost (ls.map Lay.lowered)) (i := i) requests_nodup with
        same | ⟨asks, raised⟩
      · rw [same, start] at hb
        cases hb
        exact ⟨fun h => Lay.lowered_of_not_neg (by omega), by omega, up⟩
      · rw [raised, start] at hb
        cases hb
        have want : a.want = 1 := Lay.lowered_want.symm.trans (want_of_mem_requests asks start)
        rw [Lay.lowered_of_not_neg (by omega)]
        exact ⟨fun h => by omega, le_rfl, by simp only [Lay.raised]; omega⟩

end Sys2Proof.Machine

/-! SUPPORT. What the kerb monitor stores in a context's local memory: which units, bytes and registers a write of a table, a record or a
layer entry may change (R23 to R27, R32, R137, R148, R150). -/

namespace Sys2Proof.Machine

section Units

variable {s : State} {ctx a a' n n' o pa x : Nat}

/-- The units that a range touches are those between its first and its last byte. -/
theorem mem_unitsOf : x ∈ unitsOf a n ↔ 0 < n ∧ x % 64 = 0 ∧ a / 64 ≤ x / 64 ∧ x / 64 ≤ (a + n - 1) / 64 := by
  unfold unitsOf
  split
  · next h => simp [h]
  · next h =>
    simp only [List.mem_map, List.mem_range]
    constructor
    · rintro ⟨i, hi, rfl⟩
      omega
    · rintro ⟨hn, hx, hl, hr⟩
      exact ⟨x / 64 - a / 64, by omega, by omega⟩

theorem unit_mem_unitsOf (hl : a ≤ x) (hr : x < a + n) : x / 64 * 64 ∈ unitsOf a n := by
  rw [mem_unitsOf]; omega

theorem unitsOf_mono (hl : a ≤ a') (hr : a' + n' ≤ a + n) (hx : x ∈ unitsOf a' n') : x ∈ unitsOf a n := by
  rw [mem_unitsOf] at hx ⊢; omega

/-- A byte lies in the unit where its address's unit leads (R32). -/
theorem State.localPlace_unit (h : s.localPlace ctx o = .mem pa) : s.localPlace ctx (o / 64 * 64) = .mem (pa / 64 * 64) := by
  have split : s.localPlace ctx (o / 64 * 64 + o % 64) = (s.localPlace ctx (o / 64 * 64)).plus (o % 64) :=
    State.localPlace_plus (by omega) (by omega)
  rw [show o / 64 * 64 + o % 64 = o by omega, h] at split
  cases place : s.localPlace ctx (o / 64 * 64) with
  | mem q =>
    have := (State.localPlace_mem place).1
    rw [place, Place.plus, Place.mem.injEq] at split
    rw [show q = pa / 64 * 64 by omega]
  | _ => rw [place] at split; cases split

theorem State.mem_rangeUnits (hx : x ∈ unitsOf a n) (h : s.localPlace ctx x = .mem pa) : pa / 64 * 64 ∈ s.rangeUnits ctx a n :=
  List.mem_filterMap.mpr ⟨x, hx, by rw [h]⟩

theorem State.unit_mem_rangeUnits (hl : a ≤ x) (hr : x < a + n) (h : s.localPlace ctx x = .mem pa) :
    pa / 64 * 64 ∈ s.rangeUnits ctx a n := by
  simpa using State.mem_rangeUnits (unit_mem_unitsOf hl hr) (State.localPlace_unit h)

/-- A word of a table that lies in one unit. -/
theorem State.rangeUnits_word (h : a % 64 + 8 ≤ 64) : s.rangeUnits ctx a 8 = s.wordUnits ctx a := by
  have whole : s.localPlace ctx a = (s.localPlace ctx (a / 64 * 64)).plus (a % 64) := by
    rw [← State.localPlace_plus (by omega) (by omega), show a / 64 * 64 + a % 64 = a by omega]
  simp only [State.rangeUnits, State.wordUnits, unitsOf_one (by decide : 0 < 8) h, whole]
  cases place : s.localPlace ctx (a / 64 * 64) with
  | mem q =>
    have := (State.localPlace_mem place).1
    simp only [List.filterMap_cons, place, List.filterMap_nil, Place.plus,
      unitsOf_one (by decide : 0 < 8) (show (q + a % 64) % 64 + 8 ≤ 64 by omega), List.cons.injEq, and_true]
    omega
  | _ => simp only [List.filterMap_cons, place, List.filterMap_nil, Place.plus]

end Units

section Stored

variable {s t u : State} {us vs ks : List Nat} {ctx a addr k n m pa y : Nat} {bs : List Byte} {poison : Bool} {f : State → State}

/-- `t` follows `s` by stores of context `ctx`: memory differs at most in the units `us`, and registers at most in the counters of stores
that do not land and in those that count the context's reports. -/
structure State.Stored (s t : State) (ctx : Nat) (us : List Nat) : Prop extends s.Served t us where
  keys : s.RegsBut t (storeKeys ++ reportKeys ctx)

theorem State.Stored.refl (s : State) (ctx : Nat) (us : List Nat) : s.Stored s ctx us := ⟨.refl s us, fun _ _ => rfl⟩

theorem State.Stored.trans (h : s.Stored t ctx us) (h' : t.Stored u ctx us) : s.Stored u ctx us :=
  ⟨h.toServed.trans h'.toServed, fun k hk => (h'.keys k hk).trans (h.keys k hk)⟩

theorem State.Stored.mono (h : s.Stored t ctx us) (hs : ∀ x ∈ us, x ∈ vs) : s.Stored t ctx vs := ⟨h.toServed.mono hs, h.keys⟩

theorem State.Served.rangeUnits (h : s.Served t us) (hctx : ctx < 16) (a n : Nat) : t.rangeUnits ctx a n = s.rangeUnits ctx a n := by
  simp only [State.rangeUnits, h.localPlace hctx]

theorem State.Reported.stored (h : s.Reported t ctx []) (hctx : ctx < 16) : s.Stored t ctx us :=
  ⟨h.served hctx, fun k hk => h.2 k fun hm => hk (List.mem_append_right _ hm)⟩

theorem portKey_of_mem_storeKeys (h : k ∈ storeKeys) : PortKey k := by
  simp only [storeKeys, List.mem_append, List.mem_map, List.mem_range] at h
  obtain ⟨st, hst, rfl⟩ | ⟨c, hc, rfl⟩ := h
  · exact portKey_uncorr hst
  · exact portKey_windrop hc

theorem State.count_stored (hk : k ∈ storeKeys) (n : Nat) : s.Stored (s.count k n) ctx us :=
  ⟨State.count_served (portKey_of_mem_storeKeys hk) n, fun j hj => (s.count_only k n).2 j fun hm => hj (by
    rw [List.mem_singleton.mp hm]; exact List.mem_append_left _ hk)⟩

theorem State.writePart_stored (hu : pa / 64 * 64 ∈ us) : s.Stored (s.writePart pa bs poison) ctx us := by
  obtain ⟨bs', x, e⟩ := s.writePart_eq pa bs poison
  rw [e]
  refine ⟨State.writeUnitX_served hu, fun k hk => ?_⟩
  unfold State.writeUnitX
  split
  · next dead =>
    have st : pa / 0x1000000000 < 12 := by have := State.deadAt_offline dead; unfold stackEnd at this; omega
    have mem : stkK (pa / 0x1000000000) 0x28 ∈ storeKeys := List.mem_append_left _ (List.mem_map.mpr ⟨_, List.mem_range.mpr st, rfl⟩)
    exact (State.count_stored (us := us) mem 1).keys k hk
  · rfl
  · rfl

/-- A write through a window is performed, or counted as discarded (R26). -/
theorem State.through_stored {own : Option Nat} (hw : chamBase ≤ pa → windowCore pa < 96) (hf : s.Stored (f s) ctx us) :
    s.Stored (s.through own pa f) ctx us := by
  cases shut : s.shutCore own pa with
  | none => rwa [State.through_open f shut]
  | some c =>
    obtain ⟨high, rfl⟩ := State.shutCore_some shut
    rw [State.through_shut f shut]
    exact State.count_stored (List.mem_append_right _ (List.mem_map.mpr ⟨_, List.mem_range.mpr (hw high), rfl⟩)) 1

/-- A write in one unit changes no byte but those to which its addresses lead (R32). -/
theorem State.through_byte {own : Option Nat} (place : s.localPlace ctx addr = .mem pa) (h : addr % 64 + bs.length ≤ 64)
    (hy : ∀ x, addr ≤ x → x < addr + bs.length → s.localPlace ctx x ≠ .mem y) :
    memByte (s.through own pa fun s => s.writePart pa bs poison).mem y = memByte s.mem y := by
  have same := (State.localPlace_mem place).1
  refine State.through_bytesBut (State.writePart_bytesBut (by omega)) y ?_
  by_contra inside
  refine hy (addr + (y - pa)) (by omega) (by omega) ?_
  rw [show addr + (y - pa) = addr / 64 * 64 + (addr % 64 + (y - pa)) by omega, State.localPlace_plus (by omega) (by omega),
    State.localPlace_unit place]
  exact congrArg Place.mem (by omega)

/-- The units of a table's write, one after another: a byte to which no address written leads is as before (R27, R32). -/
theorem State.tableWriteN_stored (hctx : ctx < 16) (n : Nat) (s : State) (addr : Nat) (bs : List Byte) :
    (∃ us, s.Stored (s.tableWriteN ctx addr bs n) ctx us) ∧
      ∀ y, (∀ x, addr ≤ x → x < addr + bs.length → s.localPlace ctx x ≠ .mem y) →
        memByte (s.tableWriteN ctx addr bs n).mem y = memByte s.mem y := by
  induction n generalizing s addr bs with
  | zero => exact ⟨⟨[], .refl s ctx []⟩, fun _ _ => rfl⟩
  | succ n ih =>
    unfold State.tableWriteN
    split
    · exact ⟨⟨[], .refl s ctx []⟩, fun _ _ => rfl⟩
    · extract_lets k t
      have first : (bs.take k).length ≤ k := List.length_take_le _ _
      have len : bs.length = (bs.take k).length + (bs.drop k).length := by simp only [List.length_take, List.length_drop]; omega
      have whole : (bs.drop k).length = 0 ∨ (bs.take k).length = k := by simp only [List.length_take, List.length_drop]; omega
      have hk : k = 64 - addr % 64 := rfl
      obtain ⟨⟨vs, unit⟩, bytes⟩ : (∃ us, s.Stored t ctx us) ∧
          ∀ y, (∀ x, addr ≤ x → x < addr + bs.length → s.localPlace ctx x ≠ .mem y) → memByte t.mem y = memByte s.mem y := by
        subst t
        cases place : s.localPlace ctx addr with
        | mem pa =>
          exact ⟨⟨[pa / 64 * 64], State.through_stored (State.localPlace_mem place).2 (State.writePart_stored (.head []))⟩,
            fun y hy => State.through_byte place (by omega) fun x hl hr => hy x hl (by omega)⟩
        | _ => exact ⟨⟨[], .refl s ctx []⟩, fun _ _ => rfl⟩
      obtain ⟨⟨ws, rest⟩, bytes'⟩ := ih t (addr + k) (bs.drop k)
      refine ⟨⟨vs ++ ws, (unit.mono fun _ h => List.mem_append_left _ h).trans (rest.mono fun _ h => List.mem_append_right _ h)⟩,
        fun y hy => ?_⟩
      rw [bytes' y fun x hl hr => ?_, bytes y hy]
      rw [unit.toServed.localPlace hctx]
      exact hy x (by omega) (by omega)

theorem State.tableWrite_byte (hctx : ctx < 16) (h : ∀ x, addr ≤ x → x < addr + bs.length → s.localPlace ctx x ≠ .mem y) :
    memByte (s.tableWrite ctx addr bs).mem y = memByte s.mem y := (State.tableWriteN_stored hctx _ s addr bs).2 y h

/-- A write within a range of a context's table changes the units of the range (R32). -/
theorem State.tableWrite_stored (hctx : ctx < 16) (hl : a ≤ addr) (hr : addr + bs.length ≤ a + n) :
    s.Stored (s.tableWrite ctx addr bs) ctx (s.rangeUnits ctx a n) := by
  obtain ⟨⟨us, stored⟩, bytes⟩ := State.tableWriteN_stored hctx (bs.length / 64 + 2) s addr bs
  exact ⟨⟨stored.frame, stored.regs, fun y hy => bytes y fun x hx hx' place =>
    hy (State.unit_mem_rangeUnits (hl.trans hx) (by omega) place), stored.waits⟩, stored.keys⟩

/-- Accesses log at most one violation, beside the clusters that they wake (R23, R27, R429). -/
theorem State.touchedAt_reported (as : List Nat) : (s.wakeAll ctx as).Reported (s.touchedAt ctx as) ctx [] := by
  unfold State.touchedAt
  dsimp only
  split
  · exact State.report_reported _ _ _ _ _
  · exact ⟨rfl, fun _ _ => rfl⟩
  · exact .refl _ ctx []

/-- A record's bytes, less the word ARRIVE, change the units of its place (R148, R150). -/
theorem State.putRecord_stored (hctx : ctx < 16) (low : 0x20 ≤ n) (len : bs.length ≤ n) :
    (s.wakeAll ctx (unitsOf a bs.length)).Stored (s.putRecord ctx a bs) ctx
      ((s.wakeAll ctx (unitsOf a bs.length)).rangeUnits ctx a n) := by
  have touched := (State.touchedAt_reported (s := s) (ctx := ctx) (unitsOf a bs.length)).stored
    (us := (s.wakeAll ctx (unitsOf a bs.length)).rangeUnits ctx a n) hctx
  have head := State.tableWrite_stored (s := s.touchedAt ctx (unitsOf a bs.length)) (addr := a) (bs := bs.take 0x18) (n := n) hctx le_rfl
    (by simp only [List.length_take]; omega)
  rw [touched.toServed.rangeUnits hctx] at head
  have tail := State.tableWrite_stored (s := (s.touchedAt ctx (unitsOf a bs.length)).tableWrite ctx a (bs.take 0x18)) (addr := a + 0x20)
    (bs := bs.drop 0x20) (a := a) (n := n) hctx (by omega) (by simp only [List.length_drop]; omega)
  rw [(touched.trans head).toServed.rangeUnits hctx] at tail
  exact (touched.trans head).trans tail

theorem State.Awake.putRecord_stored (h : s.Awake) (a : Nat) (hctx : ctx < 16) (low : 0x20 ≤ bs.length) :
    s.Stored (s.putRecord ctx a bs) ctx (s.rangeUnits ctx a bs.length) := by
  have stored := State.putRecord_stored (s := s) (a := a) hctx low le_rfl
  rwa [h.wakeAll] at stored

end Stored

end Sys2Proof.Machine

/-! SUPPORT. KSTEP and the close of a step: what its issue, its refusal, the local record and the timeout change (R144, R145, R149, R151,
R231). -/

namespace Sys2Proof.Machine

section KerbKeys

variable {s t : State} {c ctx b k n o : Nat} {q : Queue} {w : InstrWord}

theorem kerbK_notMem_reportKeys (hb : b < 16) (ho : o < 0x100) : kerbK b o ∉ reportKeys ctx := by
  simp only [reportKeys, List.mem_cons, List.not_mem_nil, or_false]
  unfold kerbK dieK errK
  omega

theorem not_portKey_kerb (hb : b < 16) (ho : o < 0x100) : ¬PortKey (kerbK b o) := by
  unfold PortKey kerbK; omega

theorem not_homeKey_kerb (hb : b < 16) (ho : o < 0x100) : ¬HomeKey (kerbK b o) := by
  unfold HomeKey kerbK; omega

/-- Reports leave the kerb registers, memory, the queues and the kerb monitors alone. -/
theorem State.Reported.reg_kerb (h : s.Reported t ctx []) (hb : b < 16) (ho : o < 0x100) : t.reg (kerbK b o) = s.reg (kerbK b o) :=
  h.2 _ (kerbK_notMem_reportKeys hb ho)

theorem State.OnlyRegs.coresKept {ks : List Nat} (h : s.OnlyRegs t ks) : s.CoresKept t := by
  rw [h.1]; exact ⟨rfl, rfl, rfl, rfl⟩

theorem State.CoresKept.trans {u : State} (h : s.CoresKept t) (h' : t.CoresKept u) : s.CoresKept u := by
  obtain ⟨mem, tags, queues, bufs⟩ := h
  obtain ⟨mem', tags', queues', bufs'⟩ := h'
  exact ⟨mem'.trans mem, tags'.trans tags, queues'.trans queues, bufs'.trans bufs⟩

theorem State.Reported.coresKept (h : s.Reported t ctx []) : s.CoresKept t := by
  rw [h.1]; exact ⟨rfl, rfl, rfl, rfl⟩

theorem State.Reported.kerbOf (h : s.Reported t ctx []) (n : Nat) : t.kerbOf n = s.kerbOf n := by
  rw [h.1]; rfl

theorem State.Served.kerbOf {us : List Nat} (h : s.Served t us) (n : Nat) : t.kerbOf n = s.kerbOf n := by
  rw [h.frame]; rfl

theorem State.takeWait_kerbOf (n : Nat) : (s.takeWait c q w).kerbOf n = s.kerbOf n := by
  rw [(s.takeWait_only c q w).1]; rfl

theorem State.takeWait_reg_kerb (hc : c < 96) (hb : b < 16) (ho : o < 0x100) :
    (s.takeWait c q w).reg (kerbK b o) = s.reg (kerbK b o) :=
  (s.takeWait_only c q w).2 _ fun h => not_homeKey_kerb hb ho (State.waitKeys_homeKey hc h)

/-- The sampled registers are the first seven of a kerb bank (R145, R155). -/
theorem State.kerbRegs_congr (h : ∀ o, o ≤ 0x30 → t.reg (kerbK b o) = s.reg (kerbK b o)) : t.kerbRegs b = s.kerbRegs b := by
  simp only [State.kerbRegs, h 0 (by decide), h 0x8 (by decide), h 0x10 (by decide), h 0x18 (by decide), h 0x20 (by decide),
    h 0x28 (by decide), h 0x30 (by decide)]

theorem State.takeWait_kerbRegs (hc : c < 96) (hb : b < 16) : (s.takeWait c q w).kerbRegs b = s.kerbRegs b :=
  State.kerbRegs_congr fun _ ho => State.takeWait_reg_kerb hc hb (by omega)

@[simp] theorem State.kerbOf_setKerb_self (n : Nat) (x : KerbSt) : (s.setKerb n x).kerbOf n = x := by
  rw [State.kerbOf_setKerb, if_pos rfl]

/-- The oldest closing replaced, the later ones stay. -/
theorem State.closings_setClosing (x : Closing) : ((s.setClosing n x).kerbOf n).closings = x :: (s.kerbOf n).closings.tail := by
  rw [State.setClosing, State.kerbOf_setKerb_self]

end KerbKeys

section KerbOnly

variable {s t u : State} {ctx n : Nat} {x : Closing}

/-- `t` is `s` but for the kerb monitors. -/
def State.KerbOnly (s t : State) : Prop := t = { s with kerb := t.kerb }

theorem State.KerbOnly.refl (s : State) : s.KerbOnly s := rfl

theorem State.KerbOnly.trans (h : s.KerbOnly t) (h' : t.KerbOnly u) : s.KerbOnly u := by
  unfold State.KerbOnly at *
  rw [h] at h'
  exact h'

theorem State.setKerb_kerbOnly (x : KerbSt) : s.KerbOnly (s.setKerb n x) := rfl

theorem State.setClosing_kerbOnly (x : Closing) : s.KerbOnly (s.setClosing n x) := rfl

theorem State.KerbOnly.regs (h : s.KerbOnly t) : t.regs = s.regs := by rw [h]
theorem State.KerbOnly.mem (h : s.KerbOnly t) : t.mem = s.mem := by rw [h]
theorem State.KerbOnly.queues (h : s.KerbOnly t) : t.queues = s.queues := by rw [h]
theorem State.KerbOnly.bufs (h : s.KerbOnly t) : t.bufs = s.bufs := by rw [h]
theorem State.KerbOnly.reg (h : s.KerbOnly t) (k : Nat) : t.reg k = s.reg k := by rw [h]; rfl
theorem State.KerbOnly.awake (h : s.KerbOnly t) (ha : s.Awake) : t.Awake := by rw [h]; exact ha
theorem State.KerbOnly.rangeUnits (h : s.KerbOnly t) (ctx a n : Nat) : t.rangeUnits ctx a n = s.rangeUnits ctx a n := by rw [h]; rfl
theorem State.KerbOnly.coresKept (h : s.KerbOnly t) : s.CoresKept t := by rw [h]; exact ⟨rfl, rfl, rfl, rfl⟩

end KerbOnly

section Refusals

variable {s : State} {c : Nat} {q : Queue} {qs : List Queue} {code optag : W16}

theorem State.stopQueues_mem : (s.stopQueues c qs).mem = s.mem := by
  unfold State.stopQueues
  induction qs generalizing s with
  | nil => rfl
  | cons p qs ih => exact ih

theorem State.stopQueues_queue (h : q ∉ qs) : (s.stopQueues c qs).queue c q = s.queue c q := by
  unfold State.stopQueues
  induction qs generalizing s with
  | nil => rfl
  | cons p qs ih =>
    obtain ⟨hp, hqs⟩ := not_or.mp fun hm => h (List.mem_cons.mpr hm)
    refine (ih hqs).trans ?_
    rw [State.queue_setQueue, if_neg fun e => hp e.2]

/-- A queue that enters FAULTED is FAULTED, whatever queues stop with it, and memory is as before (R231). -/
theorem State.enterFault_faulted {det : Bool} {pc : BitVec 14} {addr : W64} {unit : Option (W16 × W64)} :
    ((s.enterFault c q det code optag pc addr unit).queue c q).mode = .faulted ∧
      (s.enterFault c q det code optag pc addr unit).mem = s.mem := by
  unfold State.enterFault
  extract_lets x u v w
  obtain ⟨mem, -, queues, -⟩ := (w.report_reported 0x01 code ((unit.map (·.1)).getD (srcOf (unitType q) c))
    { context := w.ctxOf c, queue := qnum q, pc := pc, optag := optag, addr := addr,
      detail := (unit.map (·.2)).getD (w.reg (qK c q 0x08)) }).coresKept
  have first : v.queues = u.queues ∧ v.mem = u.mem := by
    have only := u.first_only (qK c q 0x08) (faultWord det code optag pc)
    exact ⟨only.queues, only.mem⟩
  have stopped : w.queue c q = v.queue c q ∧ w.mem = v.mem := by
    subst w
    split
    · exact ⟨State.stopQueues_queue (by simp), State.stopQueues_mem⟩
    · exact ⟨rfl, rfl⟩
  refine ⟨?_, mem.trans (stopped.2.trans first.2)⟩
  rw [State.queue, queues, ← State.queue, stopped.1, State.queue, first.1, ← State.queue, State.queue_setQueue_self]

/-- A refusal that reads no table and names no bad unit turns its head down at once (R231, R429). -/
theorem State.turnDown_code (code : W16) : s.turnDown c q { code := code } optag = s.refuse c q code optag := by
  have wakes : s.wakeAll (s.ctxOf c) [] = s := by unfold State.wakeAll; split <;> rfl
  have reads : s.touchedAll (s.ctxOf c) [] = s := by
    simp only [State.touchedAll, List.map_nil, List.flatten_nil, State.touchedAt, wakes, State.badPlace, List.findSome?_nil]
  have none : s.woken s = [] := by
    rw [State.woken, List.filter_eq_nil_iff]
    intro g _
    cases h : s.gate g == 0 <;> simp [bne, h]
  simp only [State.turnDown, reads, none, if_true, State.refuseRef]

end Refusals

section Kstep

variable {s u : State} {c : Fin 96} {q : Queue} {w : InstrWord} {o : Op} {i : Issued}

/-- An issue whose effects leave the queues alone steps its own queue and no other (R228, R233). -/
theorem State.issued_queues (hq : i.st.queues = s.queues) (hg : i.goto = none) :
    (s.issued c q o w i).queue c q = (s.queue c q).afterIssue (s.entry c (s.queue c q).pc o w i)
        (advance (s.queue c q).pc (s.queue c q).loops).1 (advance (s.queue c q).pc (s.queue c q).loops).2 ∧
      s.QueuesBut (s.issued c q o w i) c q := by
  have same : ∀ c' q', i.st.queue c' q' = s.queue c' q' := fun c' q' => by rw [State.queue, hq]; rfl
  simp only [State.issued, hg, Option.getD_none, same]
  refine ⟨i.st.queue_setQueue_self _ _ _, fun c' q' h => ?_⟩
  exact (i.st.queue_setQueue _ _ _ _ _).trans ((if_neg h).trans (same c' q'))

/-- An issue whose effects change registers only leaves memory and the rest alone. -/
theorem State.issued_coreOnly {ks : List Nat} (h : s.OnlyRegs i.st ks) : s.CoreOnly (s.issued c q o w i) := by
  obtain ⟨frame, -⟩ := h
  unfold State.CoreOnly State.issued
  generalize i.st = v at frame ⊢
  rw [frame]
  rfl

theorem exec_kstep_issue (hr : s.ready c q .kstep w) (hk : (s.takeWait c q w).kstepCheck c q w = none) :
    exec (.kstep c q w) s = .next (s.issued c q .kstep w ((s.takeWait c q w).kstepIssue c q w)) := by
  show execKstep c q w s = _
  rw [execKstep, s.runHead_ready _ hr]
  simp only [hk]
  rfl

theorem exec_kstep_refuse {r : Ref} (hr : s.ready c q .kstep w) (hk : (s.takeWait c q w).kstepCheck c q w = some r) :
    exec (.kstep c q w) s = .next (s.turnDown c q r w.optag) := by
  show execKstep c q w s = _
  rw [execKstep, s.runHead_ready _ hr]
  simp only [hk]
  rfl

/-- KSTEP names the closed step or the next one, or it is refused (R144). -/
theorem State.kstepCheck_none (h : u.stepField c q w = BitVec.ofNat 32 (u.kstepNow (u.ctxOf c)) ∨
      u.stepField c q w = BitVec.ofNat 32 (u.kstepNow (u.ctxOf c)) + 1) :
    u.kstepCheck c q w = none := by
  simp only [State.kstepCheck, need, Bool.or_eq_true, beq_iff_eq, if_pos h.symm]

theorem State.kstepCheck_some (h : u.stepField c q w ≠ BitVec.ofNat 32 (u.kstepNow (u.ctxOf c)))
    (h' : u.stepField c q w ≠ BitVec.ofNat 32 (u.kstepNow (u.ctxOf c)) + 1) :
    u.kstepCheck c q w = some { code := Code.KSTEP_ORDER } := by
  simp only [State.kstepCheck, need, Bool.or_eq_true, beq_iff_eq, h, h', or_self, if_false]

theorem State.kstepIssue_joins (h : u.stepField c q w = BitVec.ofNat 32 (u.kstepNow (u.ctxOf c))) : (u.kstepIssue c q w).st = u :=
  if_pos h

theorem State.kstepIssue_closes (h : u.stepField c q w ≠ BitVec.ofNat 32 (u.kstepNow (u.ctxOf c))) :
    (u.kstepIssue c q w).st = u.closeStep (u.ctxOf c) (u.stepField c q w) := if_neg h

/-- KSTEP works until the decision that it needs is made (R145). -/
def State.kstepWork (s : State) (ctx : Nat) (n : BitVec 32) : Work :=
  if (s.kerbOf ctx).closings.any (·.step == n) then .kstep ctx n else .done

theorem State.kstepIssue_work {policy : W64} (h : ((u.kstepIssue c q w).st.kerbNow (u.ctxOf c)).policy = policy) :
    (u.kstepIssue c q w).work =
      (u.kstepIssue c q w).st.kstepWork (u.ctxOf c) (if bitAt policy 29 then u.stepField c q w - 1 else u.stepField c q w) := by
  rw [← h]; rfl

/-- `t` is `s` with the KSTEP at the head of queue `q` issued as `f`, which works until step `n` is decided (R145, R228). -/
def State.KstepIssues (s t : State) (c : Fin 96) (q : Queue) (w : InstrWord) (f : InFlight) (n : BitVec 32) : Prop :=
  t.queue c q = (s.queue c q).afterIssue f (advance (s.queue c q).pc (s.queue c q).loops).1
      (advance (s.queue c q).pc (s.queue c q).loops).2 ∧
    s.QueuesBut t c q ∧ f.op = .kstep ∧ f.pc = (s.queue c q).pc ∧ f.step = (s.takeWait c q w).stepField c q w ∧
    f.work = t.kstepWork ((s.takeWait c q w).ctxOf c) n ∧ t.mem = s.mem ∧ t.bufs = s.bufs

/-- An issue that leaves queues, memory and accumulators alone issues the KSTEP at its queue's head. -/
theorem State.kstepIssues_of {policy : W64} (kept : s.CoresKept ((s.takeWait c q w).kstepIssue c q w).st)
    (h : (((s.takeWait c q w).kstepIssue c q w).st.kerbNow ((s.takeWait c q w).ctxOf c)).policy = policy) :
    ∃ f, s.KstepIssues (s.issued c q .kstep w ((s.takeWait c q w).kstepIssue c q w)) c q w f
      (if bitAt policy 29 then (s.takeWait c q w).stepField c q w - 1 else (s.takeWait c q w).stepField c q w) := by
  obtain ⟨mem, -, queues, bufs⟩ := kept
  obtain ⟨own, others⟩ := State.issued_queues (s := s) (c := c) (q := q) (o := .kstep) (w := w)
    (i := (s.takeWait c q w).kstepIssue c q w) queues rfl
  exact ⟨_, own, others, rfl, rfl, rfl, State.kstepIssue_work h, mem, bufs⟩

/-- Closing a step sets KERB_STATUS.STEP, and the kerb monitor samples the registers and has one closing more (R145). -/
theorem State.closeStep_only (ctx : Nat) (n : BitVec 32) : s.RegsBut (s.closeStep ctx n) [kerbK ctx 0x38] :=
  (s.setFld_only _ _ _ _).2

theorem State.closeStep_coresKept (ctx : Nat) (n : BitVec 32) : s.CoresKept (s.closeStep ctx n) := ⟨rfl, rfl, rfl, rfl⟩

theorem State.closeStep_kstepNow (ctx : Nat) (n : BitVec 32) : (s.closeStep ctx n).kstepNow ctx = n.toNat :=
  (s.regFld_setFld_self _ _ _ _ (by decide)).trans (Nat.mod_eq_of_lt n.isLt)

theorem State.closeStep_kerbOf (ctx : Nat) (n : BitVec 32) : (s.closeStep ctx n).kerbOf ctx = { s.kerbOf ctx with
    sample := some (s.kerbRegs ctx)
    closings := (s.kerbOf ctx).closings ++ [{ step := n, sample := s.kerbRegs ctx, stage := .waitWork }] } := by
  rw [State.closeStep, State.kerbOf_setKerb_self]

theorem State.closeStep_policy (ctx : Nat) (n : BitVec 32) : ((s.closeStep ctx n).kerbNow ctx).policy = s.reg (kerbK ctx 0) := by
  rw [State.kerbNow, State.closeStep_kerbOf]
  rfl

end Kstep

section CloseMerge

variable {s : State} {ctx : Fin 16} {k : Closing} {r : List Closing} {bs : List Byte} {i j : Nat}

theorem KHdr.bytes_length (h : KHdr) : h.bytes.length = 64 := by
  simp [KHdr.bytes, leBytes_length, zeros]

theorem State.localRecord_length : 64 ≤ (s.localRecord ctx k).length := by
  simp only [State.localRecord, List.length_append, KHdr.bytes_length]
  omega

/-- `s` with a step's statistics and the records sent before forgotten (R145, R406). -/
def State.stepForgotten (s : State) (ctx : Nat) (n : BitVec 32) : State :=
  let t := s.dropStats ctx n
  t.setKerb ctx { t.kerbOf ctx with merged := [], sent := [], sentStep := n }

theorem State.stepForgotten_kerbOnly (n : BitVec 32) : s.KerbOnly (s.stepForgotten ctx n) :=
  (State.setKerb_kerbOnly _).trans (State.setKerb_kerbOnly _)

theorem State.stepForgotten_closings (n : BitVec 32) : ((s.stepForgotten ctx n).kerbOf ctx).closings = (s.kerbOf ctx).closings := by
  simp only [State.stepForgotten, State.dropStats, State.kerbOf_setKerb_self]

/-- `s` with the local record of a closing at its place (R148). -/
def State.recordStored (s : State) (ctx : Nat) (k : Closing) : State :=
  (s.touchedAll ctx k.tables).putRecord ctx (k.sample.at_ localOff) (s.localRecord ctx k)

/-- `s` with the local record of a closing stored and the step's statistics forgotten (R145, R148). -/
def State.recordFormed (s : State) (ctx : Nat) (k : Closing) : State := (s.recordStored ctx k).stepForgotten ctx k.step

theorem exec_kerbCloseMerge (hk : (s.kerbOf ctx).closings = k :: r) (stage : k.stage = .waitWork)
    (idle : s.quantising ctx k.step = false) (ha : s.Awake) :
    exec (.kerbCloseMerge ctx) s =
      .next ((s.recordFormed ctx k).reduceFrom ctx k 0 (s.localRecord ctx k)) := by
  show execKerbCloseMerge ctx s = _
  simp only [execKerbCloseMerge, hk, stage, idle, ne_eq, not_true_eq_false, decide_false, Bool.or_self, Bool.false_eq_true, if_false,
    ha.unlessGated]
  rfl

theorem State.recordStored_stored (ha : s.Awake) :
    s.Stored (s.recordStored ctx k) ctx (s.rangeUnits ctx (k.sample.at_ localOff) (s.localRecord ctx k).length) := by
  have reads : ∀ us, s.Stored (s.touchedAll ctx k.tables) ctx us := fun us => (ha.touchedAt_reported _).stored ctx.isLt
  have put := ((reads []).toServed.awake ha).putRecord_stored (k.sample.at_ localOff) ctx.isLt
    ((by decide : 0x20 ≤ 64).trans (State.localRecord_length (s := s) (ctx := ctx) (k := k)))
  rw [(reads []).toServed.rangeUnits ctx.isLt] at put
  exact (reads _).trans put

/-- A replica alone stores its record as the reduced one and is ready for the decision (R149). -/
theorem State.reduceFrom_alone (h : k.sample.g = 1) :
    s.reduceFrom ctx k 0 bs = (s.putRecord ctx (k.sample.at_ (slotOff 16)) bs).setClosing ctx { k with stage := .ready, own := bs } := by
  have none : rounds 1 = 0 := by decide
  simp only [State.reduceFrom, h, none, redNext, decide_true, Bool.or_true, if_true, State.holdReduced, bcastRounds, List.range_zero,
    Nat.sub_self, List.reverse_nil, List.filter_nil, List.foldl_nil]

theorem State.reduceFrom_wait (h : redNext k.sample.g k.sample.self (rounds k.sample.g - j) j = .wait i) :
    s.reduceFrom ctx k j bs = s.setClosing ctx { k with stage := .reduce i, own := bs } := by
  simp only [State.reduceFrom, h]

theorem exec_kerbReduceTimeout (hk : (s.kerbOf ctx).closings = k :: r) (stage : k.stage ≠ .ready) (once : k.timeout = false)
    (ticks : s.regFld (kerbK ctx 0x40) 0 32 ≠ 0) :
    exec (.kerbReduceTimeout ctx) s = .next (((s.setClosing ctx { k with timeout := true }).setBit (kerbK ctx 0x38) 6 true).report 0x02
      Code.KERB_REDUCE_TIMEOUT 0 { context := ctx }) := by
  show execKerbReduceTimeout ctx s = _
  simp only [execKerbReduceTimeout, hk, stage, once, ticks, decide_false, Bool.or_self, Bool.false_eq_true, if_false]

/-- `t` follows `s` by records stored in the units `us` and by changes of the kerb monitors. -/
structure State.Recorded (s t : State) (ctx : Nat) (us : List Nat) : Prop where
  queues : t.queues = s.queues
  bufs : t.bufs = s.bufs
  keys : s.RegsBut t (storeKeys ++ reportKeys ctx)
  units : s.UnitsBut t us

theorem State.Recorded.trans {t u : State} {us vs : List Nat} (h : s.Recorded t ctx us) (h' : t.Recorded u ctx vs) :
    s.Recorded u ctx (us ++ vs) := by
  refine ⟨h'.queues.trans h.queues, h'.bufs.trans h.bufs, fun j hj => (h'.keys j hj).trans (h.keys j hj), fun y hy => ?_⟩
  obtain ⟨front, back⟩ := not_or.mp fun hm => hy (List.mem_append.mpr hm)
  exact (h'.units y back).trans (h.units y front)

theorem State.Stored.recorded {t : State} {us : List Nat} (h : s.Stored t ctx us) : s.Recorded t ctx us :=
  ⟨h.toServed.queues, h.toServed.bufs, h.keys, h.toServed.units⟩

theorem State.KerbOnly.recorded {t : State} (h : s.KerbOnly t) : s.Recorded t ctx [] :=
  ⟨h.queues, h.bufs, fun j _ => h.reg j, fun y _ => by rw [h.mem]⟩

theorem State.recordFormed_recorded (ha : s.Awake) : s.Recorded (s.recordFormed ctx k) ctx
    (s.rangeUnits ctx (k.sample.at_ localOff) (s.localRecord ctx k).length) := by
  have forgets := State.stepForgotten_kerbOnly (s := s.recordStored ctx k) (ctx := ctx) k.step
  have recorded := (State.recordStored_stored (k := k) ha).recorded.trans forgets.recorded
  rwa [List.append_nil] at recorded

theorem State.recordFormed_closings (ha : s.Awake) : ((s.recordFormed ctx k).kerbOf ctx).closings = (s.kerbOf ctx).closings := by
  rw [State.recordFormed, State.stepForgotten_closings, (State.recordStored_stored ha).toServed.kerbOf]

/-- Once the local record is formed, the record of a replica alone is stored as the reduced one (R149). -/
theorem State.recordFormed_putReduced (ha : s.Awake) :
    (s.recordFormed ctx k).Stored ((s.recordFormed ctx k).putRecord ctx (k.sample.at_ (slotOff 16)) (s.localRecord ctx k)) ctx
      (s.rangeUnits ctx (k.sample.at_ (slotOff 16)) (s.localRecord ctx k).length) := by
  have stored := State.recordStored_stored (ctx := ctx) (k := k) ha
  have forgets := State.stepForgotten_kerbOnly (s := s.recordStored ctx k) (ctx := ctx) k.step
  have put := (forgets.awake (stored.toServed.awake ha)).putRecord_stored (k.sample.at_ (slotOff 16)) ctx.isLt
    ((by decide : 0x20 ≤ 64).trans (State.localRecord_length (s := s) (ctx := ctx) (k := k)))
  rwa [forgets.rangeUnits, stored.toServed.rangeUnits ctx.isLt] at put

end CloseMerge

/-- Settles O25: KSTEP issues by its check's cases, the local record is stored in its own units, and the reduction's first act decides what
the close waits for. -/
theorem kerbStepsClose : Obligations.KerbStepsClose := by
  refine ⟨fun c q w s hr => ?_, fun ctx s k r hk => ⟨fun stage idle ha alone => ?_, fun j stage idle ha waits => ?_,
    fun stage once ticks => ?_⟩⟩
  · intro u x ctx n k issues
    have hctx : ctx < 16 := u.ctxOf_lt c
    have taken := s.takeWait_only c q w
    refine ⟨fun h => ?_, fun h => ?_, fun h h' idle => ?_⟩
    · have st : (u.kstepIssue c q w).st = u := State.kstepIssue_joins h
      obtain ⟨f, issued⟩ := State.kstepIssues_of (s := s) (c := c) (q := q) (w := w) (by rw [st]; exact taken.coresKept)
        (congrArg (fun v => (v.kerbNow ctx).policy) st)
      refine ⟨_, f, exec_kstep_issue hr (State.kstepCheck_none (.inl h)), State.issued_coreOnly (by rw [st]; exact taken), fun j hj => ?_,
        issued⟩
      exact (congrArg (fun v => v.reg j) st).trans (taken.2 j hj)
    · have ne : n ≠ k := by rw [h]; simp
      have st : (u.kstepIssue c q w).st = u.closeStep ctx n := State.kstepIssue_closes ne
      have policy : ((u.kstepIssue c q w).st.kerbNow ctx).policy = s.reg (kerbK ctx 0) := by
        rw [st, State.closeStep_policy, State.takeWait_reg_kerb c.isLt hctx (by decide)]
      obtain ⟨f, issued⟩ := State.kstepIssues_of (s := s) (c := c) (q := q) (w := w)
        (by rw [st]; exact taken.coresKept.trans (State.closeStep_coresKept ctx n)) policy
      refine ⟨_, f, exec_kstep_issue hr (State.kstepCheck_none (.inr h)), fun j hj => ?_, ?_, issued, ?_⟩
      · obtain ⟨status, waited⟩ := not_or.mp fun hm => hj (List.mem_cons.mpr hm)
        exact (congrArg (fun v => v.reg j) st).trans ((State.closeStep_only ctx n j (by simpa using status)).trans (taken.2 j waited))
      · exact (congrArg (fun v => v.kstepNow ctx) st).trans (State.closeStep_kstepNow ctx n)
      · refine (congrArg (fun v => v.kerbOf ctx) st).trans ?_
        rw [State.closeStep_kerbOf, State.takeWait_kerbOf, State.takeWait_kerbRegs c.isLt hctx]
    · refine ⟨_, exec_kstep_refuse hr (State.kstepCheck_some h h'), ?_⟩
      rw [State.turnDown_code, State.refuse, if_pos idle]
      exact State.enterFault_faulted
  · have put := State.recordFormed_putReduced (ctx := ctx) (k := k) ha
    have ready := State.setClosing_kerbOnly (n := ctx) (s := (s.recordFormed ctx k).putRecord ctx
      (k.sample.at_ (slotOff 16)) (s.localRecord ctx k)) { k with stage := .ready, own := s.localRecord ctx k }
    have recorded := (State.recordFormed_recorded ha).trans (put.recorded.trans ready.recorded)
    rw [List.append_nil] at recorded
    have run := exec_kerbCloseMerge hk stage idle ha
    rw [State.reduceFrom_alone alone] at run
    refine ⟨_, run, ?_, recorded.queues, recorded.bufs, recorded.keys, recorded.units⟩
    rw [State.closings_setClosing, put.toServed.kerbOf, State.recordFormed_closings ha, hk]
    rfl
  · have formed := State.recordFormed_recorded (ctx := ctx) (k := k) ha
    have waiting := State.setClosing_kerbOnly (s := s.recordFormed ctx k) (n := ctx)
      { k with stage := .reduce j, own := s.localRecord ctx k }
    have recorded := formed.trans waiting.recorded
    have run := exec_kerbCloseMerge hk stage idle ha
    rw [State.reduceFrom_wait (by rwa [Nat.sub_zero])] at run
    refine ⟨_, run, ?_, recorded.queues, recorded.keys⟩
    rw [State.closings_setClosing, State.recordFormed_closings ha, hk]
    rfl
  · have marked := State.setClosing_kerbOnly (s := s) (n := ctx) { k with timeout := true }
    have told := ((s.setClosing ctx { k with timeout := true }).setBit (kerbK ctx 0x38) 6 true).report_reported 0x02
      Code.KERB_REDUCE_TIMEOUT 0 { context := ctx }
    refine ⟨_, exec_kerbReduceTimeout hk stage once ticks, ?_, told.coresKept, ?_, fun j hj => ?_⟩
    · rw [State.regBit, told.reg_kerb ctx.isLt (by decide)]
      exact State.regBit_setBit_self _ _ _ _ (by decide)
    · rw [told.kerbOf]
      exact (State.closings_setClosing _).trans (by rw [hk]; rfl)
    · obtain ⟨status, counts⟩ := not_or.mp fun hm => hj (List.mem_cons.mpr hm)
      rw [told.2 j counts, State.reg_setBit, if_neg status, marked.reg]

end Sys2Proof.Machine

/-! SUPPORT. The arrival of a kerb record: while no cluster is gated it changes the kerb monitor and what reports count (R149, R150,
R406). -/

namespace Sys2Proof.Machine

section Arrivals

variable {s : State} {ctx : Fin 16} {slot : Fin 17} {k : Closing}

/-- `s` with one arrival more seen in a slot (R150). -/
def State.arrivalSeen (s : State) (ctx slot : Nat) : State :=
  s.setKerb ctx { s.kerbOf ctx with seen := tset (s.kerbOf ctx).seen slot (tgetD (s.kerbOf ctx).seen slot 0 + 1) }

/-- The place of a slot, and the step of the record in it (R147, R148). -/
def State.slotPlace (s : State) (ctx slot : Nat) : Nat := (s.reduceRegs ctx).at_ (slotOff slot)
def State.slotStep (s : State) (ctx slot : Nat) : BitVec 32 :=
  BitVec.ofNat 32 (khdrOf (s.getRecord ctx (s.slotPlace ctx slot) 0)).step

/-- `s` with a record read from a slot whose arrival has been seen (R149). -/
def State.recordTaken (s : State) (ctx slot layers : Nat) : State :=
  (s.arrivalSeen ctx slot).touched ctx (s.slotPlace ctx slot) (s.getRecord ctx (s.slotPlace ctx slot) layers).length

/-- A slot's ARRIVE has risen above what was seen (R150). -/
def State.ArrivedMore (s : State) (ctx slot : Nat) : Prop :=
  (tgetD (s.kerbOf ctx).seen slot 0).toNat < (s.arriveAt ctx (s.slotPlace ctx slot)).toNat

/-- Reading a record is at most logged, beside the kerb monitor (R23, R27). -/
theorem State.recordTaken_reported (ha : s.Awake) (layers : Nat) :
    (s.arrivalSeen ctx slot).Reported (s.recordTaken ctx slot layers) ctx [] :=
  ((State.setKerb_kerbOnly _).awake ha : (s.arrivalSeen ctx slot).Awake).touchedAt_reported _

theorem State.recordTaken_closings (ha : s.Awake) (layers : Nat) :
    ((s.recordTaken ctx slot layers).kerbOf ctx).closings = (s.kerbOf ctx).closings := by
  rw [(State.recordTaken_reported ha layers).kerbOf, State.arrivalSeen, State.kerbOf_setKerb_self]

/-- A change of the kerb monitors after a report changes registers that count reports only. -/
theorem State.Reported.kerbOnly {u v t : State} {ctx : Nat} (h : s.KerbOnly u) (h' : u.Reported v ctx []) (h'' : v.KerbOnly t) :
    s.CoresKept t ∧ s.RegsBut t (reportKeys ctx) := by
  refine ⟨(h.coresKept.trans h'.coresKept).trans h''.coresKept, fun j hj => ?_⟩
  rw [h''.reg, h'.2 j hj, h.reg]

/-- `s` with the record of a round read and the round merged (R406). -/
def State.roundMerged (s : State) (ctx slot layers : Nat) : State :=
  let m := (s.arrivalSeen ctx slot).kerbOf ctx
  (s.recordTaken ctx slot layers).setKerb ctx { m with merged := slot :: m.merged }

theorem State.roundMerged_kerbOnly (layers : Nat) : (s.recordTaken ctx slot layers).KerbOnly (s.roundMerged ctx slot layers) :=
  State.setKerb_kerbOnly _

theorem State.roundMerged_closings (layers : Nat) : ((s.roundMerged ctx slot layers).kerbOf ctx).closings = (s.kerbOf ctx).closings := by
  rw [State.roundMerged, State.kerbOf_setKerb_self, State.arrivalSeen, State.kerbOf_setKerb_self]

/-- `s` after an arrival that calls for `a` (R149, R150, R406). -/
def State.arrivalTaken (s : State) (ctx slot : Nat) : Arrival → State
  | .early => s
  | .refuse => (s.arrivalSeen ctx slot).refuseRecord ctx
  | .merge k =>
    (s.roundMerged ctx slot (layersOf k.sample.policy)).reduceFrom ctx k (slot + 1)
      (mergeRecords (layersOf k.sample.policy) k.own (s.getRecord ctx (s.slotPlace ctx slot) (layersOf k.sample.policy)))
  | .reduced k =>
    (s.recordTaken ctx slot (layersOf k.sample.policy)).holdReduced ctx k
      (s.getRecord ctx (s.slotPlace ctx slot) (layersOf k.sample.policy))

/-- One arrival more than was seen is looked at (R150). -/
theorem exec_kerbRecordArrival {a : Arrival} (ha : s.Awake) (more : s.ArrivedMore ctx slot)
    (h : s.arrival ctx slot (s.slotStep ctx slot) = a) : exec (.kerbRecordArrival ctx slot) s = .next (s.arrivalTaken ctx slot a) := by
  show execKerbRecordArrival ctx slot s = _
  rw [execKerbRecordArrival, ha.wakeAll, ha.unlessGated, State.recordArrived]
  refine congrArg _ ((if_neg (Nat.not_le.mpr more)).trans ?_)
  subst h
  unfold State.slotStep State.slotPlace
  cases s.arrival ctx slot _ <;> rfl

theorem State.holdReduced_leaf {bs : List Byte} (h : bcastRounds k.sample.g k.sample.self = []) :
    s.holdReduced ctx k bs = s.setClosing ctx { k with stage := .ready, own := bs } := by
  simp only [State.holdReduced, h, List.foldl_nil]

end Arrivals

/-- Settles O26: each of the four cases of an arrival is a change of the kerb monitor with at most a report in between. -/
theorem kerbTakesRecords : Obligations.KerbTakesRecords := by
  intro ctx slot s a last n ha more
  have more : s.ArrivedMore ctx slot := more
  have seen : s.KerbOnly (s.arrivalSeen ctx slot) := State.setKerb_kerbOnly _
  refine ⟨fun h => ?_, fun h => exec_kerbRecordArrival ha more h, fun k i h waits => ?_, fun k h leaf => ?_⟩
  · have told := (s.arrivalSeen ctx slot).report_reported 0x02 Code.KERB_RECV_REFUSED 0 { context := ctx }
    obtain ⟨cores, regs⟩ := told.kerbOnly seen (.refl _)
    refine ⟨_, exec_kerbRecordArrival ha more h, cores, ?_, regs⟩
    rw [State.arrivalTaken, State.refuseRecord, told.kerbOf, State.arrivalSeen, State.kerbOf_setKerb_self]
  · have run := exec_kerbRecordArrival ha more h
    rw [State.arrivalTaken, State.reduceFrom_wait waits] at run
    obtain ⟨cores, regs⟩ := (State.recordTaken_reported ha (layersOf k.sample.policy)).kerbOnly seen
      ((State.roundMerged_kerbOnly _).trans (State.setClosing_kerbOnly (n := ctx) _))
    refine ⟨_, run, cores, regs, ?_⟩
    rw [State.closings_setClosing, State.roundMerged_closings]
    rfl
  · have run := exec_kerbRecordArrival ha more h
    rw [State.arrivalTaken, State.holdReduced_leaf leaf] at run
    obtain ⟨cores, regs⟩ := (State.recordTaken_reported ha (layersOf k.sample.policy)).kerbOnly seen
      (State.setClosing_kerbOnly (n := ctx) _)
    refine ⟨_, run, cores, regs, ?_⟩
    rw [State.closings_setClosing, State.recordTaken_closings ha]
    rfl

end Sys2Proof.Machine

/-! SUPPORT. The decision on a reduced record: the layer entries that it writes, and what it notes in the kerb registers (R137, R139, R152,
R154). -/

namespace Sys2Proof.Machine

section Layers

variable {s t : State} {us : List Nat} {ctx i n : Nat} {ls : List Lay} {v : W64}

theorem State.Served.kerbRegs (h : s.Served t us) (hctx : ctx < 16) : t.kerbRegs ctx = s.kerbRegs ctx :=
  State.kerbRegs_congr fun _ ho => h.regs _ (not_portKey_kerb hctx (by omega))

/-- Stores move no layer entry (R137). -/
theorem State.Served.layerAddr (h : s.Served t us) (hctx : ctx < 16) (i : Nat) : t.layerAddr ctx i = s.layerAddr ctx i := by
  simp only [State.layerAddr, State.kerbNow, h.kerbOf, h.kerbRegs hctx]

theorem State.layerAddr_mod : s.layerAddr ctx i % 16 = 0 := by
  unfold State.layerAddr tableAddr; omega

theorem State.Served.wordUnits (h : s.Served t us) (hctx : ctx < 16) (a : Nat) : t.wordUnits ctx a = s.wordUnits ctx a := by
  simp only [State.wordUnits, h.localPlace hctx]

/-- The units of the entries of `n` layers (R137). -/
def State.layerUnits (s : State) (ctx n : Nat) : List Nat :=
  (List.range n).flatMap fun i => s.wordUnits ctx (s.layerAddr ctx i) ++ s.wordUnits ctx (s.layerAddr ctx i + 8)

theorem State.Served.layerUnits (h : s.Served t us) (hctx : ctx < 16) : t.layerUnits ctx n = s.layerUnits ctx n := by
  simp only [State.layerUnits, h.layerAddr hctx, h.wordUnits hctx]

/-- A word of a layer's entry is stored in the entry's units. -/
theorem State.writeLayer_served (hctx : ctx < 16) (hi : i < n) (h : s.Served t (s.layerUnits ctx n)) (second : Bool) :
    s.Served (t.tableWrite ctx (t.layerAddr ctx i + if second then 8 else 0) (leBytes 8 v.toNat)) (s.layerUnits ctx n) := by
  have stored := State.tableWrite_stored (s := t) (addr := s.layerAddr ctx i + if second then 8 else 0) (n := 8) (bs := leBytes 8 v.toNat)
    hctx le_rfl (by rw [leBytes_length])
  have align := State.layerAddr_mod (s := s) (ctx := ctx) (i := i)
  rw [State.rangeUnits_word (by split <;> omega), h.wordUnits hctx] at stored
  rw [h.layerAddr hctx]
  refine h.trans (stored.toServed.mono fun x hx => List.mem_flatMap.mpr ⟨i, List.mem_range.mpr hi, ?_⟩)
  cases second with
  | false => exact List.mem_append_left _ hx
  | true => exact List.mem_append_right _ hx

/-- Writing layers back changes the units of their entries (R139). -/
theorem State.putLayers_served (hctx : ctx < 16) : s.Served (s.putLayers ctx ls) (s.layerUnits ctx ls.length) := by
  refine List.foldlRecOn ls.zipIdx _ (motive := fun t => s.Served t (s.layerUnits ctx ls.length)) (.refl s _) fun t before p hp => ?_
  have inside : p.2 < ls.length := by simpa using List.snd_lt_of_mem_zipIdx hp
  dsimp only
  split
  · exact before
  · have first : s.Served (if p.1.words.1 = p.1.w0 then t
        else t.tableWrite ctx (t.layerAddr ctx p.2) (leBytes 8 p.1.words.1.toNat)) (s.layerUnits ctx ls.length) :=
      .ite before (State.writeLayer_served hctx inside before false)
    have second := State.writeLayer_served (v := p.1.words.2) hctx inside first true
    rwa [first.layerAddr hctx, ← before.layerAddr hctx] at second

theorem State.layerEntries_length (k : KerbSample) : (s.layerEntries ctx k).length = layersOf k.policy := by
  simp only [State.layerEntries, List.length_map, List.length_range]

theorem State.decision_length (k : Closing) : (s.decision ctx k).layers.length = layersOf k.sample.policy := by
  simp only [State.decision, decideMoves_length, List.length_map, List.length_zipIdx, State.layerEntries_length]

end Layers

section Notes

variable {s t u : State} {ctx n o : Nat} {k : Closing} {d : Decision} {us ks : List Nat}

/-- The registers that a decision may change beside those of `PortKey`: the kerb registers. -/
def LadderKey (k : Nat) : Prop := PortKey k ∨ 0x8300000 ≤ k ∧ k < 0x8301000

theorem ladderKey_kerb (hctx : ctx < 16) (ho : o < 0x100) : LadderKey (kerbK ctx o) := by
  unfold LadderKey kerbK; omega
theorem not_ladderKey_sem {k : Nat} (h : isSemKey k) : ¬LadderKey k := by
  refine fun hk => hk.elim (fun port => not_mxKey_sem h (.inl port)) fun kerb => ?_
  obtain ⟨c, i, rfl⟩ | ⟨g, i, rfl⟩ | ⟨d, i, rfl⟩ := h
  · unfold coreK at kerb; omega
  · unfold cluK at kerb; omega
  · unfold dieK at kerb; omega
theorem not_ladderKey_sreg {c : Nat} (q : Queue) (hc : c < 96) (ho : 0x80 ≤ o ∧ o < 0x100) : ¬LadderKey (qK c q o) := by
  refine fun hk => hk.elim (not_portKey_sreg q hc ho) fun kerb => ?_
  unfold qK coreK at kerb; omega

/-- `t` follows `s` by a part of a decision: no register outside `LadderKey` differs, and the accumulators are as before. -/
structure State.LadderStep (s t : State) : Prop where
  regs : ∀ k, ¬LadderKey k → t.reg k = s.reg k
  bufs : t.bufs = s.bufs

theorem State.LadderStep.trans (h : s.LadderStep t) (h' : t.LadderStep u) : s.LadderStep u :=
  ⟨fun k hk => (h'.regs k hk).trans (h.regs k hk), h'.bufs.trans h.bufs⟩

theorem State.Served.ladderStep (h : s.Served t us) : s.LadderStep t := ⟨fun k hk => h.regs k fun port => hk (.inl port), h.bufs⟩

/-- The kerb registers that note a decision (R155). -/
def ladderKeys (ctx : Nat) : List Nat :=
  [kerbK ctx 0x30, kerbK ctx 0x38, kerbK ctx 0x50, kerbK ctx 0x58, kerbK ctx 0x60, kerbK ctx 0x68]

theorem State.Reported.ladderStep (h : s.Reported t ctx (ladderKeys ctx)) (hctx : ctx < 16) : s.LadderStep t := by
  obtain ⟨frame, regs⟩ := h
  refine ⟨fun j hj => regs j fun hm => hj ?_, by rw [frame]⟩
  rcases List.mem_append.mp hm with kerb | report
  · simp only [ladderKeys, List.mem_cons, List.not_mem_nil, or_false] at kerb
    rcases kerb with rfl | rfl | rfl | rfl | rfl | rfl <;> exact ladderKey_kerb hctx (by decide)
  · simp only [reportKeys, List.mem_cons, List.not_mem_nil, or_false] at report
    rcases report with rfl | rfl
    · exact .inl portKey_report
    · exact .inl (portKey_err hctx (by decide))

theorem State.Reported.of_report (h : s.Reported t ctx []) : s.Reported t ctx ks :=
  ⟨h.1, fun j hj => h.2 j fun hm => hj (List.mem_append_right _ hm)⟩

theorem State.OnlyRegs.noted {j : Nat} (h : s.OnlyRegs t [j]) (hj : j ∈ ks) : s.Reported t ctx ks :=
  h.reported fun _ hk => List.mem_append_left _ (List.mem_singleton.mp hk ▸ hj)

@[simp] theorem kerbK_inj {o' : Nat} : kerbK ctx o = kerbK ctx o' ↔ o = o' := by
  unfold kerbK; omega

/-- `s` with a storm, the moves and the denials of a decision noted (R152, R153). -/
def State.noteStorm (s : State) (ctx : Nat) (k : Closing) (d : Decision) : State :=
  if d.stormed then
    ((s.setFld (kerbK ctx 0x30) 32 32 k.step.toNat).count (kerbK ctx 0x60) 1).report 0x02 Code.LADDER_STORM 0 { context := ctx }
  else s
def State.noteMoves (s : State) (ctx n : Nat) : State :=
  if n = 0 then s else (s.count (kerbK ctx 0x50) n).report 0x02 Code.LADDER_MOVED 0 { context := ctx }
def State.noteDenials (s : State) (ctx n : Nat) : State :=
  if n = 0 then s
  else ((s.count (kerbK ctx 0x58) n).setBit (kerbK ctx 0x38) 4 true).report 0x02 Code.LADDER_BUDGET_DENIED 0 { context := ctx }

theorem State.applyDecision_eq : s.applyDecision ctx k d =
    ((((s.putLayers ctx d.layers).setBit (kerbK ctx 0x30) 31 d.frozen).noteStorm ctx k d).noteMoves ctx d.moved).noteDenials ctx
      d.denied := rfl

theorem State.noteStorm_reported : s.Reported (s.noteStorm ctx k d) ctx (ladderKeys ctx) := by
  unfold State.noteStorm
  split
  · exact (((s.setFld_only _ _ _ _).noted (by simp [ladderKeys])).trans ((State.count_only _ _ _).noted (by simp [ladderKeys]))).trans
      (State.report_reported _ _ _ _ _).of_report
  · exact .refl s _ _

theorem State.noteMoves_reported : s.Reported (s.noteMoves ctx n) ctx (ladderKeys ctx) := by
  unfold State.noteMoves
  split
  · exact .refl s _ _
  · exact ((s.count_only _ _).noted (by simp [ladderKeys])).trans (State.report_reported _ _ _ _ _).of_report

theorem State.noteDenials_reported : s.Reported (s.noteDenials ctx n) ctx (ladderKeys ctx) := by
  unfold State.noteDenials
  split
  · exact .refl s _ _
  · exact (((s.count_only _ _).noted (by simp [ladderKeys])).trans ((State.setBit_only _ _ _ _).noted (by simp [ladderKeys]))).trans
      (State.report_reported _ _ _ _ _).of_report

/-- Reports about a context leave the kerb registers alone. -/
theorem State.reg_report_kerb (hctx : ctx < 16) (ho : o < 0x100) (kind : Nat) (code source : W16) :
    (s.report kind code source { context := ctx }).reg (kerbK ctx o) = s.reg (kerbK ctx o) :=
  (s.report_reported kind code source { context := ctx }).reg_kerb hctx ho

theorem State.noteStorm_reg (hctx : ctx < 16) (ho : o < 0x60) (hne : o ≠ 0x30) :
    (s.noteStorm ctx k d).reg (kerbK ctx o) = s.reg (kerbK ctx o) := by
  unfold State.noteStorm
  split
  · rw [State.reg_report_kerb hctx (by omega), State.reg_count, if_neg (by simp; omega), State.reg_setFld, if_neg (by simpa using hne)]
  · rfl

theorem State.noteStorm_storm (hctx : ctx < 16) : (s.noteStorm ctx k d).regBit (kerbK ctx 0x30) 31 = s.regBit (kerbK ctx 0x30) 31 ∧
    (d.stormed = true → (s.noteStorm ctx k d).regFld (kerbK ctx 0x30) 32 32 = k.step.toNat) := by
  unfold State.noteStorm
  split
  · have kept : (((s.setFld (kerbK ctx 0x30) 32 32 k.step.toNat).count (kerbK ctx 0x60) 1).report 0x02 Code.LADDER_STORM 0
        { context := ctx }).reg (kerbK ctx 0x30) = (s.setFld (kerbK ctx 0x30) 32 32 k.step.toNat).reg (kerbK ctx 0x30) := by
      rw [State.reg_report_kerb hctx (by decide), State.reg_count, if_neg (by simp)]
    refine ⟨?_, fun _ => ?_⟩
    · rw [State.regBit, kept]
      exact s.regBit_setFld_ne _ _ _ _ _ _ (by decide) (.inr (.inl (by decide)))
    · rw [State.regFld, kept]
      exact (s.regFld_setFld_self _ _ _ _ (by decide)).trans (Nat.mod_eq_of_lt k.step.isLt)
  · next calm => exact ⟨rfl, fun h => absurd h calm⟩

theorem State.noteMoves_reg (hctx : ctx < 16) (ho : o < 0x100) : (s.noteMoves ctx n).reg (kerbK ctx o) =
    if o = 0x50 then s.reg (kerbK ctx 0x50) + BitVec.ofNat 64 n else s.reg (kerbK ctx o) := by
  unfold State.noteMoves
  split
  · next none =>
    split
    · next e => rw [e, none]; simp
    · rfl
  · rw [State.reg_report_kerb hctx ho, State.reg_count]
    simp only [kerbK_inj]

theorem State.noteDenials_reg (hctx : ctx < 16) (ho : o < 0x100) (hne : o ≠ 0x38) : (s.noteDenials ctx n).reg (kerbK ctx o) =
    if o = 0x58 then s.reg (kerbK ctx 0x58) + BitVec.ofNat 64 n else s.reg (kerbK ctx o) := by
  unfold State.noteDenials
  split
  · next none =>
    split
    · next e => rw [e, none]; simp
    · rfl
  · rw [State.reg_report_kerb hctx ho, State.reg_setBit, if_neg (by simpa using hne), State.reg_count]
    simp only [kerbK_inj]

/-- The notes of a decision after its layers are written (R139, R152). -/
theorem State.applyDecision_reported : (s.putLayers ctx d.layers).Reported (s.applyDecision ctx k d) ctx (ladderKeys ctx) := by
  rw [State.applyDecision_eq]
  exact (((State.setBit_only _ _ _ _).noted (by simp [ladderKeys])).trans State.noteStorm_reported).trans
    (State.noteMoves_reported.trans State.noteDenials_reported)

theorem State.applyDecision_ladderStep (hctx : ctx < 16) : s.LadderStep (s.applyDecision ctx k d) :=
  (State.putLayers_served hctx).ladderStep.trans (State.applyDecision_reported.ladderStep hctx)

theorem State.applyDecision_mem : (s.applyDecision ctx k d).mem = (s.putLayers ctx d.layers).mem := by
  rw [State.applyDecision_reported.1]

/-- FROZEN and the storm's step as a decision leaves them (R152). -/
theorem State.applyDecision_storm (hctx : ctx < 16) : (s.applyDecision ctx k d).regBit (kerbK ctx 0x30) 31 = d.frozen ∧
    (d.stormed = true → (s.applyDecision ctx k d).regFld (kerbK ctx 0x30) 32 32 = k.step.toNat) := by
  obtain ⟨frozen, stormed⟩ := State.noteStorm_storm (s := (s.putLayers ctx d.layers).setBit (kerbK ctx 0x30) 31 d.frozen) (k := k)
    (d := d) hctx
  rw [State.applyDecision_eq, State.regBit, State.regFld, State.noteDenials_reg hctx (by decide) (by decide), if_neg (by decide),
    State.noteMoves_reg hctx (by decide), if_neg (by decide)]
  exact ⟨frozen.trans (State.regBit_setBit_self _ _ _ _ (by decide)), stormed⟩

/-- A decision's counts of moves and denials (R152). -/
theorem State.applyDecision_counts (hctx : ctx < 16) :
    (s.applyDecision ctx k d).reg (kerbK ctx 0x50) = s.reg (kerbK ctx 0x50) + BitVec.ofNat 64 d.moved ∧
    (s.applyDecision ctx k d).reg (kerbK ctx 0x58) = s.reg (kerbK ctx 0x58) + BitVec.ofNat 64 d.denied := by
  have before : ∀ o, o < 0x60 → o ≠ 0x30 → (((s.putLayers ctx d.layers).setBit (kerbK ctx 0x30) 31 d.frozen).noteStorm ctx k d).reg
      (kerbK ctx o) = s.reg (kerbK ctx o) := fun o ho hne => by
    rw [State.noteStorm_reg hctx ho hne, State.reg_setBit, if_neg (by simpa using hne),
      (State.putLayers_served hctx).regs _ (not_portKey_kerb hctx (by omega))]
  rw [State.applyDecision_eq]
  constructor
  · rw [State.noteDenials_reg hctx (by decide) (by decide), if_neg (by decide), State.noteMoves_reg hctx (by decide), if_pos rfl,
      before _ (by decide) (by decide)]
  · rw [State.noteDenials_reg hctx (by decide) (by decide), if_pos rfl, State.noteMoves_reg hctx (by decide), if_neg (by decide),
      before _ (by decide) (by decide)]

end Notes

section Decide

variable {s u : State} {ctx : Fin 16} {k : Closing} {r : List Closing}

/-! The cases of a decision (R152, R154). -/

theorem State.kerbDecide_mismatch (h : (khdrOf k.own).crcMin ≠ (khdrOf k.own).crcMax ∨ (khdrOf k.own).nrep ≠ k.sample.g) :
    s.kerbDecide ctx k = (s.setBit (kerbK ctx 0x38) 5 true).report 0x02 Code.KERB_REPLICA_MISMATCH 0 { context := ctx } :=
  if_pos (by simpa using h)

variable (crc : (khdrOf k.own).crcMin = (khdrOf k.own).crcMax) (all : (khdrOf k.own).nrep = k.sample.g)
include crc all

theorem State.kerbDecide_off (mode : (khdrOf k.own).mode = 0 ∨ 3 ≤ (khdrOf k.own).mode) : s.kerbDecide ctx k = s := by
  rw [State.kerbDecide, if_neg (by simp [crc, all]), if_pos (by simpa using mode)]

theorem State.kerbDecide_observe (mode : (khdrOf k.own).mode = 1) :
    s.kerbDecide ctx k = (s.touchedAll ctx (s.decisionTables ctx k)).count (kerbK ctx 0x68) (s.decision ctx k).moved := by
  rw [State.kerbDecide, if_neg (by simp [crc, all]), if_neg (by simp [mode]), if_pos mode]

theorem State.kerbDecide_active (mode : (khdrOf k.own).mode = 2) :
    s.kerbDecide ctx k = (s.touchedAll ctx (s.decisionTables ctx k)).applyDecision ctx k (s.decision ctx k) := by
  rw [State.kerbDecide, if_neg (by simp [crc, all]), if_neg (by simp [mode]), if_neg (by simp [mode])]

omit crc all

/-- Reading the decision's tables is at most logged (R23, R27). -/
theorem State.Awake.tablesRead_reported (ha : s.Awake) (ctx : Fin 16) (k : Closing) :
    s.Reported (s.touchedAll ctx (s.decisionTables ctx k)) ctx [] := ha.touchedAt_reported _

/-- A decision changes kerb registers and what stores and reports count, and the accumulators are as before. -/
theorem State.kerbDecide_ladderStep (ha : s.Awake) : s.LadderStep (s.kerbDecide ctx k) := by
  have reads : s.LadderStep (s.touchedAll ctx (s.decisionTables ctx k)) :=
    ((ha.tablesRead_reported ctx k).served (us := []) ctx.isLt).ladderStep
  by_cases apart : (khdrOf k.own).crcMin ≠ (khdrOf k.own).crcMax ∨ (khdrOf k.own).nrep ≠ k.sample.g
  · rw [State.kerbDecide_mismatch apart]
    exact State.Reported.ladderStep (ctx := ctx) (((s.setBit_only _ _ _).noted (by simp [ladderKeys])).trans
      (State.report_reported _ _ _ _ _).of_report) ctx.isLt
  · obtain ⟨crc, all⟩ : _ = _ ∧ _ = _ := by simpa only [not_or, not_not] using apart
    by_cases off : (khdrOf k.own).mode = 0 ∨ 3 ≤ (khdrOf k.own).mode
    · rw [State.kerbDecide_off crc all off]
      exact ⟨fun _ _ => rfl, rfl⟩
    · obtain mode | mode : (khdrOf k.own).mode = 1 ∨ (khdrOf k.own).mode = 2 := by omega
      · rw [State.kerbDecide_observe crc all mode]
        exact reads.trans (State.Reported.ladderStep (ctx := ctx) ((State.count_only _ _ _).noted (by simp [ladderKeys])) ctx.isLt)
      · rw [State.kerbDecide_active crc all mode]
        exact reads.trans (State.applyDecision_ladderStep ctx.isLt)

/-- `s` with its oldest closing decided, and the KSTEPs that waited for it released (R145). -/
def State.closingEnded (s : State) (ctx : Nat) (r : List Closing) (n : BitVec 32) : State :=
  (s.setKerb ctx { s.kerbOf ctx with closings := r, decided := n }).releaseKsteps ctx

theorem exec_kerbDecide (hk : (s.kerbOf ctx).closings = k :: r) (stage : k.stage = .ready) (ha : s.Awake) :
    exec (.kerbDecide ctx) s = .next ((s.kerbDecide ctx k).closingEnded ctx r k.step) := by
  show execKerbDecide ctx s = _
  simp only [execKerbDecide, hk, stage, ne_eq, not_true_eq_false, if_false, ha.unlessGated]
  rfl

theorem State.releaseKsteps_frame (s : State) (ctx : Nat) : s.releaseKsteps ctx = { s with queues := (s.releaseKsteps ctx).queues } := by
  unfold State.releaseKsteps
  generalize (s.kerbOf ctx).closings = cs
  generalize s.inflightOf ctx = fs
  induction fs generalizing s with
  | nil => rfl
  | cons f fs ih =>
    rw [List.foldl_cons, ih]
    split
    · split <;> rfl
    · rfl

theorem State.closingEnded_kerbOf (n : BitVec 32) :
    (s.closingEnded ctx r n).kerbOf ctx = { s.kerbOf ctx with closings := r, decided := n } := by
  rw [State.closingEnded, State.releaseKsteps_frame]
  exact State.kerbOf_setKerb_self _ _

/-- Ending a closing changes the kerb monitor and the queues. -/
theorem State.closingEnded_frame (n : BitVec 32) :
    s.closingEnded ctx r n = { s with kerb := (s.closingEnded ctx r n).kerb, queues := (s.closingEnded ctx r n).queues } := by
  unfold State.closingEnded
  rw [State.releaseKsteps_frame]
  rfl

end Decide

/-- Settles O27: a decision ends its closing, and its case says what it writes and notes before. -/
theorem kerbDecides : Obligations.KerbDecides := by
  intro ctx s k r hk stage ha h d
  have step := State.kerbDecide_ladderStep (ctx := ctx) (k := k) ha
  have run := exec_kerbDecide hk stage ha
  have frame := State.closingEnded_frame (s := s.kerbDecide ctx k) (ctx := ctx) (r := r) k.step
  have kerb := State.closingEnded_kerbOf (s := s.kerbDecide ctx k) (ctx := ctx) (r := r) k.step
  have reads := ha.tablesRead_reported ctx k
  generalize (s.kerbDecide ctx k).closingEnded ctx r k.step = t at run frame kerb
  have regs : t.regs = (s.kerbDecide ctx k).regs := by rw [frame]
  have mem : t.mem = (s.kerbDecide ctx k).mem := by rw [frame]
  have bufs : t.bufs = (s.kerbDecide ctx k).bufs := by rw [frame]
  have reg : ∀ j, t.reg j = (s.kerbDecide ctx k).reg j := fun j => by rw [State.reg, regs]; rfl
  refine ⟨t, run, by rw [kerb], by rw [kerb], bufs.trans step.bufs,
    fun c q i => (reg _).trans (step.regs _ (not_ladderKey_sreg q c.isLt (by omega))),
    fun j hj _ => (reg j).trans (step.regs j (not_ladderKey_sem hj)), fun apart => ?_, fun crc all mode => ?_, fun crc all mode => ?_,
    fun crc all mode => ?_⟩
  · have told := (s.setBit (kerbK ctx 0x38) 5 true).report_reported 0x02 Code.KERB_REPLICA_MISMATCH 0 { context := ctx }
    rw [← State.kerbDecide_mismatch apart] at told
    refine ⟨?_, mem.trans told.coresKept.1, fun j hj => ?_⟩
    · rw [State.regBit, reg, told.reg_kerb ctx.isLt (by decide)]
      exact State.regBit_setBit_self _ _ _ _ (by decide)
    · obtain ⟨status, counts⟩ := not_or.mp fun hm => hj (List.mem_cons.mpr hm)
      rw [reg, told.2 j counts, State.reg_setBit, if_neg status]
  · have off := State.kerbDecide_off (s := s) (ctx := ctx) crc all mode
    exact ⟨by rw [mem, off], by rw [regs, off]⟩
  · have observe := State.kerbDecide_observe (s := s) (ctx := ctx) crc all mode
    refine ⟨?_, fun j hj => ?_, ?_⟩
    · rw [mem, observe, (State.count_only _ _ _).mem]
      exact reads.coresKept.1
    · obtain ⟨moves, counts⟩ := not_or.mp fun hm => hj (List.mem_cons.mpr hm)
      rw [reg, observe, State.reg_count, if_neg moves, reads.2 j counts]
    · rw [reg, observe, State.reg_count, if_pos rfl, reads.reg_kerb ctx.isLt (by decide)]
  · have active := State.kerbDecide_active (s := s) (ctx := ctx) crc all mode
    have served := reads.served (us := s.layerUnits ctx d.layers.length) ctx.isLt
    have written := served.trans ((State.putLayers_served ctx.isLt).mono (fun x hx => by
      rwa [served.layerUnits ctx.isLt] at hx))
    obtain ⟨frozen, stormed⟩ := State.applyDecision_storm (s := s.touchedAll ctx (s.decisionTables ctx k)) (k := k) (d := d) ctx.isLt
    obtain ⟨moved, denied⟩ := State.applyDecision_counts (s := s.touchedAll ctx (s.decisionTables ctx k)) (k := k) (d := d) ctx.isLt
    rw [reads.reg_kerb ctx.isLt (by decide)] at moved denied
    refine ⟨?_, fun storm => ?_, ?_, ?_, fun y hy => ?_⟩
    · rw [State.regBit, reg, active]; exact frozen
    · rw [State.regFld, reg, active]; exact stormed storm
    · rw [reg, active]; exact moved
    · rw [reg, active]; exact denied
    · rw [mem, active, State.applyDecision_mem]
      refine written.units y ?_
      rw [State.decision_length]
      exact hy

end Sys2Proof.Machine

/-! SUPPORT. A write of KERB_STATUS, DISCARD_KSTAT and KRESEND: what they clear, drop, refuse and send again (R155, R406). -/

namespace Sys2Proof.Machine

section Status

variable {s : State} {ctx b c k : Nat} {v : W64}

theorem bankFor_lt {ctx bank : Fin 16} (h : bankFor ctx bank = some b) : b < 16 := by
  unfold bankFor at h
  split_ifs at h
  · cases h; exact bank.isLt
  · cases h; exact ctx.isLt

theorem State.bankWrite_eq {f : Nat → State} {bank : Nat} (h : bankFor ctx bank = some b) : s.bankWrite ctx bank k f = f b := by
  simp only [State.bankWrite, h]

/-- A key that a search passes over does not decide it. -/
theorem findSome?_tset {α β : Type} {f : Nat × α → Option β} (h : ∀ w, f (k, w) = none) (t : Tbl α) (x : α) :
    (tset t k x).findSome? f = t.findSome? f := by
  induction t with
  | nil => simp [tset, h]
  | cons p r ih =>
    obtain ⟨j, w⟩ := p
    unfold tset
    split
    · rw [List.findSome?_cons, h]
    · split
      · next e => subst e; rw [List.findSome?_cons, List.findSome?_cons, h, h]
      · rw [List.findSome?_cons, List.findSome?_cons, ih]

/-- Registers behind the binding banks do not decide whom a core works for (R377). -/
theorem State.setReg_ctxOf (hk : 0x200000 ≤ k) (x : W64) : (s.setReg k x).ctxOf c = s.ctxOf c := by
  unfold State.ctxOf State.ctxOfClu State.binder State.setReg
  rw [findSome?_tset]
  intro w
  simp [show ¬k < 0x200000 by omega]

theorem State.setReg_inflightOf (hk : 0x200000 ≤ k) (x : W64) : (s.setReg k x).inflightOf b = s.inflightOf b := by
  simp only [State.inflightOf, State.setReg_ctxOf hk]
  rfl

theorem kerbK_behind_binds (b o : Nat) : 0x200000 ≤ kerbK b o := by
  unfold kerbK; omega

/-- `s` with the bits of KERB_STATUS cleared that a write of `v` names (R155). -/
def State.statusCleared (s : State) (b : Nat) (v : W64) : State :=
  s.setFld (kerbK b 0x38) 4 3 (s.regFld (kerbK b 0x38) 4 3 - (s.regFld (kerbK b 0x38) 4 3 &&& fld v 4 3))

/-- Three bits less those of a mask. -/
theorem testBit_sub_and : ∀ x < 8, ∀ y < 8, ∀ j < 3, ((x - (x &&& y)) % 8).testBit j = (x.testBit j && !y.testBit j) := by
  decide

theorem bitAt_eq_testBit_fld {lo len i : Nat} (h : i < len) (x : W64) : bitAt x (lo + i) = (fld x lo len).testBit i := by
  simp [fld_testBit, h, bitAt]

theorem State.statusCleared_bit {i : Nat} (hl : 4 ≤ i) (hr : i < 7) :
    (s.statusCleared b v).regBit (kerbK b 0x38) i = (s.regBit (kerbK b 0x38) i && !bitAt v i) := by
  obtain ⟨j, rfl⟩ := Nat.exists_eq_add_of_le hl
  have hj : j < 3 := by omega
  have field : fld ((s.statusCleared b v).reg (kerbK b 0x38)) 4 3 = _ := s.regFld_setFld_self _ _ _ _ (by decide)
  simp only [State.regBit, bitAt_eq_testBit_fld hj, field]
  exact testBit_sub_and _ (fld_lt _ _ _) _ (fld_lt _ _ _) _ hj

theorem State.statusCleared_kstepNow : (s.statusCleared b v).kstepNow b = s.kstepNow b :=
  s.regFld_setFld_ne _ _ _ _ _ _ _ (by decide) (.inr (.inr (by decide)))

theorem State.statusCleared_ladderBusy : (s.statusCleared b v).ladderBusy b = s.ladderBusy b := by
  have regs : (s.statusCleared b v).kerbRegs b = s.kerbRegs b := State.kerbRegs_congr fun o ho => by
    rw [State.statusCleared, State.reg_setFld, if_neg (by simp; omega)]
  have mon : (s.statusCleared b v).kerbOf b = s.kerbOf b := rfl
  simp only [State.ladderBusy, State.lagNow, State.kerbNow, regs, mon, State.statusCleared_kstepNow]

/-- STEP is held: a KSTEP or a decision is outstanding (R155). -/
def State.stepHeld (s : State) (b : Nat) : Bool := s.ladderBusy b || (s.inflightOf b).any fun p => p.2.2.op == .kstep

theorem State.statusCleared_stepHeld : (s.statusCleared b v).stepHeld b = s.stepHeld b := by
  have flight : (s.statusCleared b v).inflightOf b = s.inflightOf b := State.setReg_inflightOf (kerbK_behind_binds _ _) _
  rw [State.stepHeld, State.statusCleared_ladderBusy, flight]
  rfl

theorem State.kerbStatusWrite_held (h : s.stepHeld b = true) : s.kerbStatusWrite b v = s.statusCleared b v :=
  if_pos (State.statusCleared_stepHeld.trans h)

/-- A write that sets STEP empties the list of closings (R155). -/
theorem State.kerbStatusWrite_free (h : s.stepHeld b = false) : ∃ m : KerbSt, m.closings = [] ∧
    s.kerbStatusWrite b v = ((s.statusCleared b v).setFld (kerbK b 0x38) 32 32 (BitVec.ofNat 32 (fld v 32 32)).toNat).setKerb b m :=
  ⟨_, rfl, if_neg (Bool.not_eq_true _ ▸ State.statusCleared_stepHeld.trans h)⟩

end Status

section Discard

variable {s : State} {b : Nat}

theorem statKey_inRange {n : BitVec 32} {d l : Nat} (hd : d < 2) (hl : l < 65536) (m : BitVec 32) :
    (statKey m 0 0 ≤ statKey n d l ∧ statKey n d l < statKey m 0 0 + 131072) ↔ n = m := by
  rw [← BitVec.toNat_inj]
  unfold statKey
  omega

/-- Dropping a step's statistics drops those of the step alone (R406). -/
theorem State.dropStats_stats (m n : BitVec 32) {d l : Nat} (hd : d < 2) (hl : l < 65536) :
    tget ((s.dropStats b m).kerbOf b).stats (statKey n d l) =
      if n = m then none else tget (s.kerbOf b).stats (statKey n d l) := by
  have range := statKey_inRange (n := n) hd hl m
  rw [State.dropStats, State.kerbOf_setKerb_self, tget_tdelRange]
  split
  · next outside => rw [if_neg fun e => by have := range.mpr e; simp at outside; omega]
  · next inside => rw [if_pos (range.mp (by simpa using inside))]

theorem State.errBit_set (s : State) (b : Nat) :
    s.OnlyRegs (s.setBit (errK b 8) 61 true) [errK b 8] ∧ (s.setBit (errK b 8) 61 true).regBit (errK b 8) 61 = true :=
  ⟨s.setBit_only _ _ _, s.regBit_setBit_self _ _ _ (by decide)⟩

end Discard

end Sys2Proof.Machine

/-! SUPPORT. A record sent again to a slot of this device: whom its access wakes, and where its words land (R150, R406, R429). -/

namespace Sys2Proof.Machine

section Woken

variable {s w : State} {ks : List Nat} {ctx g o pa : Nat}

theorem gateK_mem_gateKeys (hg : g < 16) : gateK g ∈ gateKeys := by
  unfold gateK
  obtain die | die : g / 8 = 0 ∨ g / 8 = 1 := by omega
  all_goals rw [die]; simp [gateKeys]

theorem not_gateKey_bind (hctx : ctx < 16) (ho : o < 0x10000) : bindK ctx o ∉ gateKeys := by
  simp only [gateKeys, List.mem_cons, List.not_mem_nil, or_false]
  unfold bindK dieK; omega

theorem not_gateKey_stk (st o : Nat) : stkK st o ∉ gateKeys := by
  simp only [gateKeys, List.mem_cons, List.not_mem_nil, or_false]
  unfold stkK dieK; omega

theorem State.toRun_only (hg : g < 16) : s.OnlyRegs (s.toRun g) gateKeys :=
  ((s.setFld_only _ _ _ _).trans (State.setFld_only _ _ _ _ _)).mono (by simpa using gateK_mem_gateKeys hg)

/-- An access wakes clusters by their gate registers alone (R429). -/
theorem State.wakeFor_only (hw : chamBase ≤ pa → windowCore pa < 96) : s.OnlyRegs (s.wakeFor pa) gateKeys := by
  unfold State.wakeFor
  split
  · exact .refl s _
  · next h =>
    have high : chamBase ≤ pa := by simp at h; omega
    exact State.toRun_only (by have := hw high; omega)

theorem State.wakeAll_only (as : List Nat) : s.OnlyRegs (s.wakeAll ctx as) gateKeys := by
  unfold State.wakeAll
  split
  · exact .refl s _
  · refine List.foldlRecOn as _ (motive := fun t => s.OnlyRegs t gateKeys) (.refl s _) fun t before a _ => ?_
    split
    · next place => exact (before.trans (State.wakeFor_only (State.localPlace_mem (State.place_mem place)).2)).mono (by simp)
    · exact before

/-! What waking does not decide: where addresses lead, whether memory answers, and which windows are shut. -/

theorem State.OnlyRegs.localPlace (h : s.OnlyRegs w ks) (hb : ∀ o, o < 0x10000 → bindK ctx o ∉ ks) (o : Nat) :
    w.localPlace ctx o = s.localPlace ctx o := by
  have bound : ∀ v, v < 0x10000 → w.reg (bindK ctx v) = s.reg (bindK ctx v) := fun v hv => h.2 _ (hb v hv)
  have clu : ∀ v, w.cluOf ctx v = s.cluOf ctx v := fun v => by
    by_cases hv : v < 16
    · simp only [State.cluOf, State.regBit, State.regFld, bound (8 * v) (by omega)]; rfl
    · simp [State.cluOf, hv]
  have share : ∀ v, w.shareOf ctx v = s.shareOf ctx v := fun v => by
    by_cases hv : v < 16
    · simp only [State.shareOf, State.regBit, State.regFld, bound (0x100 + 8 * v) (by omega)]; rfl
    · simp [State.shareOf, hv]
  have gran : ∀ v, w.granOf ctx v = s.granOf ctx v := fun v => by
    by_cases hv : v < 768
    · simp only [State.granOf, State.regBit, State.regFld, State.short, h.fuses, bound (0x800 + 8 * v) (by omega)]; rfl
    · simp [State.granOf, hv]
  simp only [State.localPlace, clu, share, gran]

theorem State.OnlyRegs.deadAt (h : s.OnlyRegs w ks) (hk : ∀ st o, o < 0x28 → stkK st o ∉ ks) (pa : Nat) :
    w.deadAt pa = s.deadAt pa := by
  obtain ⟨frame, regs⟩ := h
  have off : ∀ x, w.isDisabled x = s.isDisabled x := fun x => by rw [frame]; rfl
  have clu : ∀ g, w.cluUp g = s.cluUp g := fun g => by rw [frame]; rfl
  have core : ∀ c, w.coreUp c = s.coreUp c := fun c => by rw [frame]; rfl
  have faults : w.faults = s.faults := by rw [frame]
  simp only [State.deadAt, State.regBit, regs _ (hk _ 0 (by decide)), regs _ (hk _ 8 (by decide)), off, clu, core, faults]
  rfl

theorem State.OnlyRegs.shutCore (h : s.OnlyRegs w ks) (own : Option Nat) (pa : Nat) : w.shutCore own pa = s.shutCore own pa := by
  simp only [State.shutCore, State.coreStopped, State.queue, h.queues]
  rfl

theorem State.wakeAll_localPlace {b : Nat} (hb : b < 16) (as : List Nat) (o : Nat) :
    (s.wakeAll ctx as).localPlace b o = s.localPlace b o :=
  (State.wakeAll_only as).localPlace (fun _ => not_gateKey_bind hb) o

/-- A unit lies behind one window (R26). -/
theorem State.shutCore_unit {own : Option Nat} {j : Nat} (h : j / 64 = pa / 64) : s.shutCore own j = s.shutCore own pa := by
  have cham : j < chamBase ↔ pa < chamBase := by unfold chamBase; omega
  have imem : j < imemBase ↔ pa < imemBase := by unfold imemBase; omega
  have core : windowCore j = windowCore pa := by
    have inCham : (j - chamBase) / 0x400000 = (pa - chamBase) / 0x400000 := by unfold chamBase; omega
    have inImem : (j - imemBase) / 0x40000 = (pa - imemBase) / 0x40000 := by unfold imemBase; omega
    simp only [windowCore, imem, inCham, inImem]
  simp only [State.shutCore, cham, imem, core]

end Woken

section Resend

variable {s t : State} {ctx a n pa x y : Nat} {v : W64} {bs : List Byte} {r : KerbSent} {k : KerbSample}

theorem KerbSample.at_mod {off : Nat} (h : off % 64 = 0) : k.at_ off % 64 = 0 := by
  unfold KerbSample.at_ tableAddr; omega

theorem slotOff_mod (slot : Nat) : slotOff slot % 64 = 0 := by
  unfold slotOff; split <;> omega

/-- The slot at `a` holds its header at `pa`, where memory answers through an open window, and no later unit of its record lies there. -/
structure State.SlotOpen (s : State) (ctx a pa n : Nat) : Prop where
  align : a % 64 = 0
  place : s.localPlace ctx a = .mem pa
  dead : s.deadAt pa = none
  window : s.shutCore none pa = none
  apart : ∀ x ∈ unitsOf a n, x ≠ a → s.localPlace ctx x ≠ .mem pa

theorem State.SlotOpen.align_pa (h : s.SlotOpen ctx a pa n) : pa % 64 = 0 := by
  have := (State.localPlace_mem h.place).1
  have := h.align
  omega

/-- A byte of the header lies where the header lies (R32). -/
theorem State.SlotOpen.header (h : s.SlotOpen ctx a pa n) {j : Nat} (hj : j < 64) : s.localPlace ctx (a + j) = .mem (pa + j) := by
  rw [State.localPlace_plus h.align hj, h.place]; rfl

/-- The slot stays open where addresses, memory and windows stay as they are. -/
theorem State.SlotOpen.congr (h : s.SlotOpen ctx a pa n) (place : ∀ o, t.localPlace ctx o = s.localPlace ctx o)
    (dead : t.deadAt pa = s.deadAt pa) (window : t.shutCore none pa = s.shutCore none pa) : t.SlotOpen ctx a pa n :=
  ⟨h.align, (place a).trans h.place, dead.trans h.dead, window.trans h.window, fun x hx hne => by rw [place]; exact h.apart x hx hne⟩

theorem State.SlotOpen.served {us : List Nat} (h : s.SlotOpen ctx a pa n) (ht : s.Served t us) (hctx : ctx < 16) :
    t.SlotOpen ctx a pa n := h.congr (ht.localPlace hctx) (ht.deadAt pa) (ht.shutCore none pa)

/-- Only the header's own bytes lead to bytes of the header. -/
theorem State.SlotOpen.elsewhere (h : s.SlotOpen ctx a pa n) (hx : a ≤ x) (hn : x < a + n) (hy : pa ≤ y ∧ y < pa + 64)
    (hne : x - a ≠ y - pa) : s.localPlace ctx x ≠ .mem y := by
  have align := h.align
  have align_pa := h.align_pa
  intro place
  by_cases near : x < a + 64
  · have own := h.header (j := x - a) (by omega)
    rw [show a + (x - a) = x by omega, place, Place.mem.injEq] at own
    omega
  · refine h.apart (x / 64 * 64) (unit_mem_unitsOf hx hn) (by omega) ?_
    rw [State.localPlace_unit place, show y / 64 * 64 = pa by omega]

/-- ARRIVE is the word at 0x18 of the header (R148). -/
theorem State.SlotOpen.arriveAt (h : s.SlotOpen ctx a pa n) : s.arriveAt ctx a = BitVec.ofNat 64 (leNat (memRead s.mem (pa + 0x18) 8)) := by
  have align := h.align
  have align_pa := h.align_pa
  have inside : (pa + 0x18) % 64 + 8 ≤ 64 := by omega
  have unit : s.unitAt ctx a = s.readUnit pa := by simp only [State.unitAt, h.place]
  have word : (s.tableRead ctx (a + 0x18) 8).data = (s.readBytes (pa + 0x18) 8).data := by
    simp only [State.tableRead, State.readBytes, unitsOf_one (by decide : 0 < 8) inside,
      unitsOf_one (by decide : 0 < 8) (show (a + 0x18) % 64 + 8 ≤ 64 by omega), List.map_cons, List.map_nil,
      show (a + 0x18) / 64 * 64 = a by omega, show (a + 0x18) % 64 = (pa + 0x18) % 64 by omega, unit,
      show (pa + 0x18) / 64 * 64 = pa by omega]
  have dead : s.deadAt (pa + 0x18) = none := (State.deadAt_unit (by omega)).trans h.dead
  rw [State.arriveAt, word, State.readBytes_data (by decide) inside, if_pos dead]

theorem State.SlotOpen.tableWrite (h : s.SlotOpen ctx a pa n) (hctx : ctx < 16) (hl : a ≤ x) (hr : x + bs.length ≤ a + n) :
    (s.tableWrite ctx x bs).SlotOpen ctx a pa n :=
  h.served (State.tableWrite_stored hctx hl hr).toServed hctx

/-- A write of the record beside ARRIVE leaves ARRIVE alone (R150). -/
theorem State.SlotOpen.arriveAt_tableWrite (h : s.SlotOpen ctx a pa n) (hctx : ctx < 16) (hl : a ≤ x) (hr : x + bs.length ≤ a + n)
    (beside : x + bs.length ≤ a + 0x18 ∨ a + 0x20 ≤ x) : (s.tableWrite ctx x bs).arriveAt ctx a = s.arriveAt ctx a := by
  rw [(h.tableWrite hctx hl hr).arriveAt, h.arriveAt]
  refine congrArg _ (congrArg _ (memRead_congr fun y hy hy' => State.tableWrite_byte hctx fun z hz hz' => ?_))
  exact h.elsewhere (by omega) (by omega) (by omega) (by omega)

theorem State.SlotOpen.touched (h : s.SlotOpen ctx a pa n) (hctx : ctx < 16) (x m : Nat) :
    (s.touched ctx x m).SlotOpen ctx a pa n ∧ (s.touched ctx x m).arriveAt ctx a = s.arriveAt ctx a := by
  have woken := State.wakeAll_only (s := s) (ctx := ctx) (unitsOf x m)
  have told := State.touchedAt_reported (s := s) (ctx := ctx) (unitsOf x m)
  have awake := h.congr (woken.localPlace fun _ => not_gateKey_bind hctx) (woken.deadAt (fun st o _ => not_gateKey_stk st o) pa)
    (woken.shutCore none pa)
  have after : (s.touched ctx x m).SlotOpen ctx a pa n := awake.served (told.served (us := []) hctx) hctx
  exact ⟨after, by rw [after.arriveAt, h.arriveAt, State.touched, told.coresKept.1, woken.mem]⟩

/-- A record stored at its place leaves the slot open and ARRIVE alone (R148, R150). -/
theorem State.SlotOpen.putRecord (h : s.SlotOpen ctx a pa n) (hctx : ctx < 16) (low : 0x20 ≤ n) (len : bs.length ≤ n) :
    (s.putRecord ctx a bs).SlotOpen ctx a pa n ∧ (s.putRecord ctx a bs).arriveAt ctx a = s.arriveAt ctx a := by
  obtain ⟨start, kept⟩ := h.touched hctx a bs.length
  have front : a + (bs.take 0x18).length ≤ a + n ∧ a + (bs.take 0x18).length ≤ a + 0x18 := by simp only [List.length_take]; omega
  have back : a + 0x20 + (bs.drop 0x20).length ≤ a + n := by simp only [List.length_drop]; omega
  have head := start.tableWrite hctx le_rfl front.1
  refine ⟨head.tableWrite hctx (by omega) back, ?_⟩
  exact (head.arriveAt_tableWrite hctx (by omega) back (.inr le_rfl)).trans
    ((start.arriveAt_tableWrite hctx le_rfl front.1 (.inl front.2)).trans kept)

/-- A word written to ARRIVE is read there (R150). -/
theorem State.SlotOpen.arriveAt_write (h : s.SlotOpen ctx a pa n) (hctx : ctx < 16) (low : 0x20 ≤ n) :
    (s.tableWrite ctx (a + 0x18) (leBytes 8 v.toNat)).arriveAt ctx a = v := by
  have align := h.align
  have align_pa := h.align_pa
  have len := leBytes_length 8 v.toNat
  have window : s.shutCore none (pa + 0x18) = none := (State.shutCore_unit (by omega)).trans h.window
  have landed : s.tableWrite ctx (a + 0x18) (leBytes 8 v.toNat) = s.writePart (pa + 0x18) (leBytes 8 v.toNat) := by
    rw [State.tableWrite_mem (by simp [← List.length_pos_iff, len]) (by omega) (h.header (by decide)), State.through_open _ window]
  have read := State.memRead_writePart (s := s) (poison := false) (pa := pa + 0x18) (bs := leBytes 8 v.toNat)
    ((State.deadAt_unit (by omega)).trans h.dead) (by omega)
  rw [len] at read
  rw [(h.tableWrite hctx (by omega) (by omega)).arriveAt, landed, read, leNat_leBytes,
    Nat.mod_eq_of_lt (show v.toNat < 256 ^ 8 from v.isLt), BitVec.ofNat_toNat, BitVec.setWidth_eq]

theorem State.kresend_one (sent : (s.kerbOf ctx).sent = [r]) (own : r.device = s.fuses.device) :
    s.kresend ctx =
      (s.putRecord ctx ((s.reduceRegs ctx).at_ (slotOff r.slot)) r.bytes).tableWrite ctx ((s.reduceRegs ctx).at_ (slotOff r.slot) + 0x18)
        (leBytes 8 ((s.putRecord ctx ((s.reduceRegs ctx).at_ (slotOff r.slot)) r.bytes).arriveAt ctx
          ((s.reduceRegs ctx).at_ (slotOff r.slot)) + 1).toNat) := by
  simp only [State.kresend, sent, List.cons_ne_nil, if_false, List.foldl_cons, List.foldl_nil, State.emitRecord, own, if_true]

/-- A record and its ARRIVE are stored in the units of its place, after the clusters there have been woken (R150, R429). -/
theorem State.resent_stored (hctx : ctx < 16) (low : 0x20 ≤ n) (len : bs.length ≤ n) :
    (s.wakeAll ctx (unitsOf a bs.length)).Stored ((s.putRecord ctx a bs).tableWrite ctx (a + 0x18) (leBytes 8 v.toNat)) ctx
      (s.rangeUnits ctx a n) := by
  have put := State.putRecord_stored (s := s) (a := a) hctx low len
  have arrive := State.tableWrite_stored (s := s.putRecord ctx a bs) (a := a) (addr := a + 0x18) (n := n) (bs := leBytes 8 v.toNat) hctx
    (by omega) (by rw [leBytes_length]; omega)
  rw [put.toServed.rangeUnits hctx] at arrive
  have units : (s.wakeAll ctx (unitsOf a bs.length)).rangeUnits ctx a n = s.rangeUnits ctx a n := by
    simp only [State.rangeUnits, State.wakeAll_localPlace hctx]
  rw [← units]
  exact put.trans arrive

end Resend

/-- Settles O29: a write of KERB_STATUS by whether STEP is held, DISCARD_KSTAT by its refusal, and KRESEND by what was sent. -/
theorem kerbReplayAndStatus : Obligations.KerbReplayAndStatus := by
  intro ctx bank s b hbank
  have hb : b < 16 := bankFor_lt hbank
  have discards : exec (.discardKstat ctx bank) s = .next (s.discardKstat b) := congrArg Host.Outcome.next (State.bankWrite_eq hbank)
  have resends : exec (.kresend ctx bank) s = .next (s.kresend b) := congrArg Host.Outcome.next (State.bankWrite_eq hbank)
  refine ⟨fun v => ?_, fun free => ?_, fun refused => ?_, fun empty => ?_, fun r pa sent own => ?_⟩
  · have writes : exec (.kerbStatusStepWrite ctx bank v) s = .next (s.kerbStatusWrite b v) :=
      congrArg Host.Outcome.next (State.bankWrite_eq hbank)
    rw [writes]
    have clears : s.OnlyRegs (s.statusCleared b v) [kerbK b 0x38] := s.setFld_only _ _ _ _
    cases held : s.stepHeld b with
    | true =>
      rw [State.kerbStatusWrite_held held]
      refine ⟨_, rfl, clears.coresKept, clears.2, fun i hl hr => State.statusCleared_bit hl hr, fun idle still => ?_,
        fun _ => State.statusCleared_kstepNow⟩
      simp [State.stepHeld, idle, still] at held
    | false =>
      obtain ⟨m, none, e⟩ := State.kerbStatusWrite_free (v := v) held
      have kerb := State.setKerb_kerbOnly (s := (s.statusCleared b v).setFld (kerbK b 0x38) 32 32 (BitVec.ofNat 32 (fld v 32 32)).toNat)
        (n := b) m
      have steps := clears.trans ((s.statusCleared b v).setFld_only (kerbK b 0x38) 32 32 (BitVec.ofNat 32 (fld v 32 32)).toNat)
      rw [e]
      refine ⟨_, rfl, steps.coresKept.trans kerb.coresKept, fun j hj => ?_, fun i hl hr => ?_, fun idle still => ⟨?_, ?_⟩,
        fun busy => ?_⟩
      · rw [kerb.reg]
        exact steps.2 j (by simpa using hj)
      · rw [← State.statusCleared_bit hl hr, State.regBit, kerb.reg]
        exact State.regBit_setFld_ne _ _ _ _ _ _ _ (by decide) (.inr (.inl (by omega)))
      · rw [State.kstepNow, State.regFld, kerb.reg]
        refine (State.regFld_setFld_self _ _ _ _ _ (by decide)).trans ?_
        rw [Nat.mod_eq_of_lt (BitVec.isLt _), BitVec.toNat_ofNat, Nat.mod_eq_of_lt (fld_lt v 32 32)]
      · rw [State.kerbOf_setKerb_self, none]
      · rw [State.stepHeld, Bool.or_eq_false_iff] at held
        simp [held.1, held.2] at busy
  · rw [State.discardKstat, if_neg (by simp [free])] at discards
    refine ⟨_, discards, State.setKerb_kerbOnly _, fun d l hd hl => ?_, fun n d l hd hl ne => ?_⟩
    · rw [State.dropStats_stats _ _ hd hl, if_pos rfl]
    · rw [State.dropStats_stats _ _ hd hl, if_neg ne]
  · rw [State.discardKstat, if_pos refused] at discards
    exact ⟨_, discards, s.errBit_set b⟩
  · rw [State.kresend, if_pos empty] at resends
    exact ⟨_, resends, s.errBit_set b⟩
  · intro a place dead window apart
    have slot : s.SlotOpen b a pa (max 0x20 r.bytes.length) := ⟨KerbSample.at_mod (slotOff_mod _), place, dead, window, fun x hx ne => by
      have align : a % 64 = 0 := KerbSample.at_mod (slotOff_mod _)
      refine apart x ?_ ne
      rw [mem_unitsOf] at hx ⊢
      omega⟩
    obtain ⟨put, kept⟩ := slot.putRecord (bs := r.bytes) hb (le_max_left _ _) (le_max_right _ _)
    have woken := State.wakeAll_only (s := s) (ctx := b) (unitsOf a r.bytes.length)
    have stored := State.resent_stored (s := s) (a := a) (bs := r.bytes) (n := max 0x20 r.bytes.length)
      (v := (s.putRecord b a r.bytes).arriveAt b a + 1) hb (le_max_left _ _) (le_max_right _ _)
    rw [State.kresend_one sent own] at resends
    refine ⟨_, resends, fun j hj => ?_, stored.toServed.queues.trans woken.queues, fun y hy => ?_, ?_⟩
    · simp only [List.mem_append, not_or] at hj
      obtain ⟨⟨stores, gates⟩, reports⟩ := hj
      exact (stored.keys j (by simp [stores, reports])).trans (woken.2 j gates)
    · rw [← woken.mem]
      exact stored.toServed.units y hy
    · rw [← kept]
      exact put.arriveAt_write hb (le_max_left _ _)

end Sys2Proof.Machine

/-! SUPPORT. The registers of snapshots and of the committed step, SNAP, and what an issue that leaves the queues alone does to its own
queue (R172, R174, R202, R228, R270). -/

namespace Sys2Proof.Machine

section PipeKeys

variable {s : State} {c ctx ctx' i k o : Nat} {q : Queue} {w : InstrWord}

theorem not_homeKey_snap (hctx : ctx < 16) (hi : i < 4) : ¬HomeKey (snapK ctx i) := by
  unfold HomeKey snapK pipeK; omega

theorem not_homeKey_upd (hctx : ctx < 16) (ho : o < 0x100) : ¬HomeKey (updK ctx o) := by
  unfold HomeKey updK; omega

theorem updK_ne_snapK (hctx : ctx < 16) (hi : i < 4) : updK ctx' o ≠ snapK ctx i := by
  unfold updK snapK pipeK; omega

/-- Taking a wait changes a semaphore at most (R296). -/
theorem State.takeWait_reg (hc : c < 96) (hk : ¬HomeKey k) : (s.takeWait c q w).reg k = s.reg k :=
  (s.takeWait_only c q w).2 k fun h => hk (State.waitKeys_homeKey hc h)

theorem State.takeWait_cstep (hc : c < 96) (hctx : ctx < 16) : (s.takeWait c q w).cstep ctx = s.cstep ctx :=
  congrArg (fld · 32 32) (State.takeWait_reg hc (not_homeKey_upd hctx (by decide)))

theorem State.takeWait_regBit_snap (hc : c < 96) (hctx : ctx < 16) (hi : i < 4) (n : Nat) :
    (s.takeWait c q w).regBit (snapK ctx i) n = s.regBit (snapK ctx i) n :=
  congrArg (bitAt · n) (State.takeWait_reg hc (not_homeKey_snap hctx hi))

end PipeKeys

section Subfields

variable {u v : W64} {lo lo' len len' m n : Nat}

/-- Values that agree in a field agree in each part of it. -/
theorem fld_congr_within (h : fld v lo len = fld u lo len) (hl : lo ≤ lo') (hr : lo' + len' ≤ lo + len) :
    fld v lo' len' = fld u lo' len' := by
  refine Nat.eq_of_testBit_eq fun i => ?_
  have bit := congrArg (Nat.testBit · (lo' - lo + i)) h
  by_cases hi : i < len'
  · have inside : lo' - lo + i < len := by omega
    simp only [fld_testBit, inside, decide_true, Bool.true_and, show lo + (lo' - lo + i) = lo' + i by omega] at bit
    simp only [fld_testBit, bit]
  · simp only [fld_testBit, hi, decide_false, Bool.false_and]

/-- Values that agree in two adjacent fields agree in the field that these make up. -/
theorem fld_congr_append (low : fld v lo m = fld u lo m) (high : fld v (lo + m) n = fld u (lo + m) n) :
    fld v lo (m + n) = fld u lo (m + n) := by
  refine Nat.eq_of_testBit_eq fun i => ?_
  by_cases hi : i < m
  · have bit := congrArg (Nat.testBit · i) low
    simp only [fld_testBit, hi, decide_true, Bool.true_and] at bit
    simp only [fld_testBit, bit]
  · by_cases hn : i < m + n
    · have bit := congrArg (Nat.testBit · (i - m)) high
      have inside : i - m < n := by omega
      simp only [fld_testBit, inside, decide_true, Bool.true_and, show lo + m + (i - m) = lo + i by omega] at bit
      simp only [fld_testBit, bit]
    · simp only [fld_testBit, hn, decide_false, Bool.false_and]

end Subfields

section Snapshots

variable {s : State} {ctx i : Nat} {v : W64} {w : InstrWord}

/-- `s` with the range of a snapshot register written, which the write does while the snapshot is not armed (R172). -/
def State.snapRange (s : State) (ctx i : Nat) (v : W64) : State :=
  if s.regBit (snapK ctx i) 63 then s else s.setFld (snapK ctx i) 32 24 (fld v 32 24)

/-- A write with DONE clears ARMED and STALLING (R174). -/
theorem State.snapWrite_done (done : bitAt v 60 = true) :
    s.snapWrite ctx i v = ((s.snapRange ctx i v).setBit (snapK ctx i) 63 false).setBit (snapK ctx i) 62 false := if_pos done

/-- A write with ARM of a snapshot that is not armed, over a range that is one, arms it at the committed step (R172). -/
theorem State.snapWrite_arm (done : bitAt v 60 = false) (arm : bitAt v 61 = true) (free : s.regBit (snapK ctx i) 63 = false)
    (range : fld v 32 12 ≤ fld v 44 12) (hctx : ctx < 16) (hi : i < 4) :
    s.snapWrite ctx i v =
      ((s.setFld (snapK ctx i) 32 24 (fld v 32 24)).setBit (snapK ctx i) 63 true).setFld (snapK ctx i) 0 32 (s.cstep ctx) := by
  have written : (s.setFld (snapK ctx i) 32 24 (fld v 32 24)).regFld (snapK ctx i) 32 24 = fld v 32 24 :=
    (s.regFld_setFld_self _ _ _ _ (by decide)).trans (Nat.mod_eq_of_lt (fld_lt _ _ _))
  have first : (s.setFld (snapK ctx i) 32 24 (fld v 32 24)).regFld (snapK ctx i) 32 12 = fld v 32 12 :=
    fld_congr_within written (by decide) (by decide)
  have last : (s.setFld (snapK ctx i) 32 24 (fld v 32 24)).regFld (snapK ctx i) 44 12 = fld v 44 12 :=
    fld_congr_within written (by decide) (by decide)
  have still : (s.setFld (snapK ctx i) 32 24 (fld v 32 24)).regBit (snapK ctx i) 63 = false :=
    (s.regBit_setFld_ne _ _ _ _ _ _ (by decide) (.inr (.inr (by decide)))).trans free
  have step : (s.setFld (snapK ctx i) 32 24 (fld v 32 24)).cstep ctx = s.cstep ctx :=
    s.regFld_setFld_ne _ _ _ _ _ _ _ (by decide) (.inl (updK_ne_snapK hctx hi))
  simp [State.snapWrite, free, done, arm, first, last, still, step, range]

theorem State.snapRange_only : s.OnlyRegs (s.snapRange ctx i v) [snapK ctx i] := by
  unfold State.snapRange
  split
  · exact .refl s _
  · exact s.setFld_only _ _ _ _

/-- A write with DONE changes the snapshot register alone, which is no longer armed (R174). -/
theorem State.snapWrite_ended (done : bitAt v 60 = true) :
    s.OnlyRegs (s.snapWrite ctx i v) [snapK ctx i] ∧ (s.snapWrite ctx i v).regBit (snapK ctx i) 63 = false ∧
      (s.snapWrite ctx i v).regBit (snapK ctx i) 62 = false := by
  rw [State.snapWrite_done done]
  refine ⟨((State.snapRange_only.trans (State.setBit_only _ _ _ _)).trans (State.setBit_only _ _ _ _)).mono (by simp), ?_, ?_⟩
  · rw [State.regBit_setBit_ne _ _ _ _ _ _ (by decide) (.inr (by decide))]
    exact State.regBit_setBit_self _ _ _ _ (by decide)
  · exact State.regBit_setBit_self _ _ _ _ (by decide)

/-- A write that arms changes the snapshot register alone, which holds the range, ARMED and the committed step (R172). -/
theorem State.snapWrite_armed (done : bitAt v 60 = false) (arm : bitAt v 61 = true) (free : s.regBit (snapK ctx i) 63 = false)
    (range : fld v 32 12 ≤ fld v 44 12) (hctx : ctx < 16) (hi : i < 4) :
    s.OnlyRegs (s.snapWrite ctx i v) [snapK ctx i] ∧ (s.snapWrite ctx i v).regBit (snapK ctx i) 63 = true ∧
      (s.snapWrite ctx i v).regFld (snapK ctx i) 0 32 = s.cstep ctx ∧
      (s.snapWrite ctx i v).regFld (snapK ctx i) 32 24 = fld v 32 24 := by
  rw [State.snapWrite_arm done arm free range hctx hi]
  refine ⟨(((s.setFld_only _ _ _ _).trans (State.setBit_only _ _ _ _)).trans (State.setFld_only _ _ _ _ _)).mono (by simp), ?_, ?_, ?_⟩
  · rw [State.regBit_setFld_ne _ _ _ _ _ _ _ (by decide) (.inr (.inr (by decide)))]
    exact State.regBit_setBit_self _ _ _ _ (by decide)
  · exact (State.regFld_setFld_self _ _ _ _ _ (by decide)).trans (Nat.mod_eq_of_lt (fld_lt _ _ _))
  · rw [State.regFld_setFld_ne _ _ _ _ _ _ _ _ (by decide) (.inr (.inr (by decide))),
      State.regFld_setBit_ne _ _ _ _ _ _ _ (by decide) (.inr (.inr (by decide)))]
    exact (s.regFld_setFld_self _ _ _ _ (by decide)).trans (Nat.mod_eq_of_lt (fld_lt _ _ _))

/-- The fields that a SNAP writes are its operands and flags (R270). -/
theorem bitAt_snapValue_done : bitAt (snapValue w) 60 = w.f1 := bitAt_putBit_self _ _ _ (by decide)

theorem bitAt_snapValue_arm : bitAt (snapValue w) 61 = w.f0 := by
  rw [snapValue, bitAt_putBit_ne _ _ _ _ (by decide) (by decide)]
  exact bitAt_putBit_self _ _ _ (by decide)

theorem fld_snapValue_first : fld (snapValue w) 32 12 = opnd w 43 32 := by
  rw [snapValue, fld_putBit_ne _ _ _ _ _ (by decide) (.inr (by decide)), fld_putBit_ne _ _ _ _ _ (by decide) (.inr (by decide)),
    fld_putFld_self _ _ _ _ (by decide)]
  exact Nat.mod_eq_of_lt (fld_lt _ _ _)

theorem fld_snapValue_last : fld (snapValue w) 44 12 = opnd w 55 44 := by
  rw [snapValue, fld_putBit_ne _ _ _ _ _ (by decide) (.inr (by decide)), fld_putBit_ne _ _ _ _ _ (by decide) (.inr (by decide)),
    fld_putFld_ne _ _ _ _ _ _ (by decide) (.inr (by decide)), fld_putFld_self _ _ _ _ (by decide)]
  exact Nat.mod_eq_of_lt (fld_lt _ _ _)

theorem fld_snapValue_range : fld (snapValue w) 32 24 = opnd w 55 32 :=
  fld_congr_append (u := w.ops) (m := 12) (n := 12) fld_snapValue_first fld_snapValue_last

end Snapshots

section Issues

variable {s u : State} {c : Fin 96} {q : Queue} {o : Op} {w : InstrWord} {work : Work} {events : List W16} {step : BitVec 32}
  {ks : List Nat}

/-- The entry in flight of an instruction that ends without an error, a register write or a hold (R230). -/
theorem State.entry_eq_headEntry : s.entry c (s.queue c q).pc o w { st := u, work := work, events := events, step := step } =
    { s.headEntry c q o w with work := work, events := events, step := step } := by
  have aligned : BitVec.ofNat 64 (0 / 64 * 64) = (0 : W64) := rfl
  rw [State.entry, aligned]
  rfl

/-- An issue leaves registers, memory and accumulators as its effects do (R228). -/
theorem State.issued_regBit {i : Issued} (k n : Nat) : (s.issued c q o w i).regBit k n = i.st.regBit k n := rfl
theorem State.issued_mem {i : Issued} : (s.issued c q o w i).mem = i.st.mem := rfl
theorem State.issued_bufs {i : Issued} : (s.issued c q o w i).bufs = i.st.bufs := rfl
theorem State.issued_regFld {i : Issued} (k lo len : Nat) : (s.issued c q o w i).regFld k lo len = i.st.regFld k lo len := rfl

/-- An issue whose effects leave the queues alone steps its own queue; the registers that differ are those of its effects and the semaphore
waited on (R228, R233, R297). -/
theorem State.issued_issuedTo (queues : u.queues = s.queues) (regs : (s.takeWait c q w).RegsBut u ks) :
    s.IssuedTo (s.issued c q o w { st := u, work := work, events := events, step := step }) c q w
      { s.headEntry c q o w with work := work, events := events, step := step } ks := by
  obtain ⟨own, others⟩ := State.issued_queues (c := c) (q := q) (o := o) (w := w)
    (i := { st := u, work := work, events := events, step := step }) queues rfl
  rw [State.entry_eq_headEntry] at own
  refine ⟨own, others, fun k hk => ?_⟩
  obtain ⟨effects, waited⟩ := not_or.mp fun h => hk (List.mem_append.mpr h)
  exact (regs k effects).trans ((s.takeWait_only c q w).2 k waited)

/-- The same where the effects change registers only: then nothing but the issue and those registers differs. -/
theorem State.OnlyRegs.issued (h : (s.takeWait c q w).OnlyRegs u ks) :
    s.CoreOnly (s.issued c q o w { st := u, work := work, events := events, step := step }) ∧
      s.IssuedTo (s.issued c q o w { st := u, work := work, events := events, step := step }) c q w
        { s.headEntry c q o w with work := work, events := events, step := step } ks := by
  have both := (s.takeWait_only c q w).trans h
  exact ⟨State.issued_coreOnly both, State.issued_issuedTo both.queues h.2⟩

/-- SNAP issues as a write of the snapshot register that its operands name (R270). -/
theorem exec_snap (hr : s.ready c q .snap w) :
    exec (.snap c q w) s = .next (s.issued c q .snap w
      { st := (s.takeWait c q w).snapWrite ((s.takeWait c q w).ctxOf c) (opnd w 63 62) (snapValue w) }) := by
  show execSnap c q w s = _
  rw [execSnap, s.runHead_ready _ hr]
  rfl

end Issues

/-- Settles O24: both commands and SNAP are one write of a snapshot register, which either ends the snapshot or arms it. -/
theorem snapshotsAndStep : Obligations.SnapshotsAndStep := by
  refine ⟨fun ctx bank n v s b hbank => ⟨fun done arm free range => ?_, fun done => ?_⟩,
    fun c q w s hr => ⟨fun done => ?_, fun done arm free range => ?_⟩,
    fun ctx bank v s b hbank => ⟨fun idle => ?_, fun busy => ?_⟩⟩
  · exact ⟨_, congrArg Host.Outcome.next (State.bankWrite_eq hbank),
      State.snapWrite_armed done arm free range (bankFor_lt hbank) n.isLt⟩
  · exact ⟨_, congrArg Host.Outcome.next (State.bankWrite_eq hbank), State.snapWrite_ended done⟩
  · obtain ⟨only, armed, stalling⟩ := State.snapWrite_ended (s := s.takeWait c q w) (ctx := (s.takeWait c q w).ctxOf c)
      (i := opnd w 63 62) (bitAt_snapValue_done.trans done)
    obtain ⟨core, issued⟩ := only.issued (o := .snap) (work := .done) (events := []) (step := 0)
    exact ⟨_, exec_snap hr, core, issued, (State.issued_regBit _ _).trans armed, (State.issued_regBit _ _).trans stalling⟩
  · have hctx : (s.takeWait c q w).ctxOf c < 16 := State.ctxOf_lt _ _
    have hi : opnd w 63 62 < 4 := fld_lt _ _ _
    obtain ⟨only, armed, step, groups⟩ := State.snapWrite_armed (bitAt_snapValue_done.trans done) (bitAt_snapValue_arm.trans arm)
      ((State.takeWait_regBit_snap c.isLt hctx hi 63).trans free) (by rwa [fld_snapValue_first, fld_snapValue_last]) hctx hi
    obtain ⟨core, issued⟩ := only.issued (o := .snap) (work := .done) (events := []) (step := 0)
    exact ⟨_, exec_snap hr, core, issued, (State.issued_regBit _ _).trans armed,
      (State.issued_regFld _ _ _).trans (step.trans (State.takeWait_cstep c.isLt hctx)),
      (State.issued_regFld _ _ _).trans (groups.trans fld_snapValue_range)⟩
  · refine ⟨_, congrArg Host.Outcome.next ((State.bankWrite_eq hbank).trans (if_neg (by simp [idle]))), s.setFld_only _ _ _ _, ?_⟩
    exact (s.regFld_setFld_self _ _ _ _ (by decide)).trans (Nat.mod_eq_of_lt (fld_lt _ _ _))
  · exact congrArg Host.Outcome.next ((State.bankWrite_eq hbank).trans (if_pos busy))

end Sys2Proof.Machine

/-! SUPPORT. Queues that enter FAULTED by a refusal: what the queue, its fault register and memory hold then (R231, R240). -/

namespace Sys2Proof.Machine

section Faults

variable {s : State} {c ctx n : Nat} {q : Queue} {qs : List Queue} {code optag : W16} {pc : BitVec 14} {addr v : W64} {b det : Bool}

/-- Setting a bit to what it is changes nothing. -/
theorem putBit_of_bitAt (hn : n < 64) (h : bitAt v n = b) : putBit v n b = v := by
  refine BitVec.eq_of_getLsbD_eq fun i _ => ?_
  by_cases hi : i = n
  · subst hi
    exact (bitAt_putBit_self v i b hn).trans h.symm
  · exact bitAt_putBit_ne v n i b hn hi

theorem bitAt_faultWord_valid : bitAt (faultWord det code optag pc) 63 = true := by
  rw [faultWord, bitAt_putFld_ne _ _ _ _ _ (by decide) (.inr (by decide)), bitAt_putFld_ne _ _ _ _ _ (by decide) (.inr (by decide)),
    bitAt_putFld_ne _ _ _ _ _ (by decide) (.inr (by decide)), bitAt_putBit_ne _ _ _ _ (by decide) (by decide)]
  exact bitAt_putBit_self _ _ _ (by decide)

theorem qK_notMem_reportKeys {o : Nat} (hctx : ctx ≤ 0xFF) : qK c q o ∉ reportKeys ctx := by
  simp only [reportKeys, List.mem_cons, List.not_mem_nil, or_false]
  unfold qK coreK dieK errK
  omega

theorem State.stopQueues_reg (k : Nat) : (s.stopQueues c qs).reg k = s.reg k := by
  unfold State.stopQueues
  induction qs generalizing s with
  | nil => rfl
  | cons p qs ih => exact ih

/-- A queue that enters FAULTED considers no head; its PC and what it has in flight stay. -/
def QState.fault (x : QState) : QState :=
  { x with mode := .faulted, wcause := .none, fetched := none, refusal := none, lineWait := none }

/-- The first fault of a queue is recorded as it is; the queue itself is FAULTED (R231, R240). -/
theorem State.enterFault_own (unit : Option (W16 × W64)) :
    (s.enterFault c q det code optag pc addr unit).queue c q = (s.queue c q).fault ∧
      (s.regBit (qK c q 8) 63 = false → (s.enterFault c q det code optag pc addr unit).reg (qK c q 8) = faultWord det code optag pc) := by
  unfold State.enterFault
  extract_lets x u v w
  have told := w.report_reported 0x01 code ((unit.map (·.1)).getD (srcOf (unitType q) c))
    { context := w.ctxOf c, queue := qnum q, pc := pc, optag := optag, addr := addr,
      detail := (unit.map (·.2)).getD (w.reg (qK c q 0x08)) }
  obtain ⟨-, -, queues, -⟩ := told.coresKept
  have stopped : w.queue c q = v.queue c q ∧ w.reg (qK c q 8) = v.reg (qK c q 8) := by
    subst w
    split
    · exact ⟨State.stopQueues_queue (by simp), State.stopQueues_reg _⟩
    · exact ⟨rfl, rfl⟩
  refine ⟨?_, fun first => ?_⟩
  · rw [State.queue, queues, ← State.queue, stopped.1, State.queue, (u.first_only (qK c q 0x08) (faultWord det code optag pc)).queues,
      ← State.queue, State.queue_setQueue_self]
    rfl
  · rw [told.2 _ (qK_notMem_reportKeys ((w.ctxOf_lt c).le.trans (by decide))), stopped.2, State.reg_first, if_pos ⟨rfl, first⟩]
    exact putBit_of_bitAt (by decide) bitAt_faultWord_valid

/-- `t` is what a refusal with nothing in flight makes of `s`: the queue is FAULTED at its PC, which CORE_Q_FAULT names with the code unless
it holds an earlier fault, and memory is as before (R231, R240). -/
structure State.RefusedAt (s t : State) (c : Nat) (q : Queue) (code optag : W16) : Prop where
  mode : (t.queue c q).mode = .faulted
  pc : (t.queue c q).pc = (s.queue c q).pc
  mem : t.mem = s.mem
  fault : s.regBit (qK c q 8) 63 = false → t.reg (qK c q 8) = faultWord false code optag (s.queue c q).pc

theorem State.refuse_refused (idle : (s.queue c q).inflight = []) : s.RefusedAt (s.refuse c q code optag addr) c q code optag := by
  rw [State.refuse, if_pos idle]
  obtain ⟨queue, fault⟩ := State.enterFault_own (s := s) (c := c) (q := q) (det := false) (code := code) (optag := optag)
    (pc := (s.queue c q).pc) (addr := addr) none
  exact ⟨by rw [queue]; rfl, by rw [queue]; rfl, State.enterFault_faulted.2, fault⟩

end Faults

end Sys2Proof.Machine

/-! SUPPORT. COMMIT: the step it may name, what its issue does, and the units and registers that an abort may change (R173, R186, R197,
R199). -/

namespace Sys2Proof.Machine

section NoTables

variable {s : State} {ctx : Nat} {i : Issued}

/-- Reading no table leaves no trace, and wakes no cluster. -/
theorem State.touchedAll_nil : s.touchedAll ctx [] = s := by
  have wakes : s.wakeAll ctx [] = s := by unfold State.wakeAll; split <;> rfl
  simp only [State.touchedAll, List.map_nil, List.flatten_nil, State.touchedAt, wakes, State.badPlace, List.findSome?_nil]

theorem State.woken_self : s.woken s = [] := by
  rw [State.woken, List.filter_eq_nil_iff]
  intro g _
  cases h : s.gate g == 0 <;> simp [bne, h]

theorem Verdict.reading_nil (h : i.st = s) : (Verdict.issue i).reading s ctx [] = .issue i := by
  subst h
  simp only [Verdict.reading, State.touchedAll_nil, State.woken_self, if_true]

/-- While no cluster is gated, an issue goes on whatever tables it reads (R429). -/
theorem State.Awake.reading (ha : s.Awake) (rs : List (Nat × Nat)) : (Verdict.issue i).reading s ctx rs = .issue (i.read ctx rs) := by
  simp only [Verdict.reading, ha.woken, if_true]
  rfl

end NoTables

section Abort

variable {s t : State} {us : List Nat} {ctx a i : Nat} {n : BitVec 32} {v : W64}

theorem not_portKey_upd {o : Nat} (hctx : ctx < 16) (ho : o < 0x100) : ¬PortKey (updK ctx o) := by
  unfold PortKey updK; omega

theorem State.Served.groupAddr (h : s.Served t us) (hctx : ctx < 16) (i : Nat) : t.groupAddr ctx i = s.groupAddr ctx i := by
  rw [State.groupAddr, State.regFld, h.regs _ (not_portKey_upd hctx (by decide))]; rfl

theorem State.Served.cstep (h : s.Served t us) (hctx : ctx < 16) : t.cstep ctx = s.cstep ctx :=
  congrArg (fld · 32 32) (h.regs _ (not_portKey_upd hctx (by decide)))

/-- An entry of the group table fills two units (R186). -/
theorem State.groupAddr_mod : s.groupAddr ctx i % 128 = 0 := by
  unfold State.groupAddr; omega

/-- A word of a group's entry is stored in its unit (R186). -/
theorem State.Stored.setGroupWord (h : s.Stored t ctx us) (hctx : ctx < 16) (align : a % 128 = 0)
    (inside : ∀ x ∈ s.wordUnits ctx (a + 8 * i), x ∈ us) : s.Stored (t.setGroupWord ctx a i v) ctx us := by
  have stored := State.tableWrite_stored (s := t) (a := a + 8 * i) (n := 8) (bs := leBytes 8 v.toNat) hctx le_rfl (by rw [leBytes_length])
  rw [State.rangeUnits_word (by omega), h.toServed.wordUnits hctx] at stored
  exact h.trans (stored.mono inside)

/-- The units of words 14, 12 and 13 of a group's entry, in the order in which an abort writes them (R199). -/
def State.abortUnits (s : State) (ctx i : Nat) : List Nat :=
  s.wordUnits ctx (s.groupAddr ctx i + 112) ++ s.wordUnits ctx (s.groupAddr ctx i + 96) ++ s.wordUnits ctx (s.groupAddr ctx i + 104)

/-- `s` with the step of one group aborted: WCOUNT and WFB 0, and WSTEP at the committed step (R199). -/
def State.abortGroup (s : State) (ctx i : Nat) : State :=
  let a := s.groupAddr ctx i
  let s := s.setGroupWord ctx a 14 (putFld (s.groupWord ctx a 14) 0 40 0)
  let s := s.setGroupWord ctx a 12 (putBit (s.groupWord ctx a 12) 61 false)
  s.setGroupWord ctx a 13 (putFld (s.groupWord ctx a 13) 32 32 (s.cstep ctx))

theorem State.abortStep_eq : s.abortStep ctx n =
    ((s.groupsAt ctx n).filter fun i => (s.groupAt ctx i).wstep == n).foldl (fun s i => s.abortGroup ctx i) s := rfl

theorem State.Served.abortUnits (h : s.Served t us) (hctx : ctx < 16) (i : Nat) : t.abortUnits ctx i = s.abortUnits ctx i := by
  simp only [State.abortUnits, h.groupAddr hctx, h.wordUnits hctx]

theorem State.abortGroup_stored (hctx : ctx < 16) : s.Stored (s.abortGroup ctx i) ctx (s.abortUnits ctx i) := by
  have align := State.groupAddr_mod (s := s) (ctx := ctx) (i := i)
  have count : s.Stored _ ctx (s.abortUnits ctx i) := (State.Stored.refl s ctx _).setGroupWord (i := 14)
    (v := putFld (s.groupWord ctx (s.groupAddr ctx i) 14) 0 40 0) hctx align
    fun x hx => List.mem_append_left _ (List.mem_append_left _ hx)
  exact (count.setGroupWord (i := 12) hctx align fun x hx => List.mem_append_left _ (List.mem_append_right _ hx)).setGroupWord (i := 13)
    hctx align fun x hx => List.mem_append_right _ hx

/-- An abort stores in words 12 to 14 of the groups of its step (R199). -/
theorem State.abortStep_stored (hctx : ctx < 16) : s.Stored (s.abortStep ctx n) ctx
    (((s.groupsAt ctx n).filter fun i => (s.groupAt ctx i).wstep == n).flatMap (s.abortUnits ctx)) := by
  rw [State.abortStep_eq]
  refine List.foldlRecOn _ _ (motive := fun t => s.Stored t ctx _) (.refl s ctx _) fun t before i hi => ?_
  have group := State.abortGroup_stored (s := t) (i := i) hctx
  rw [before.toServed.abortUnits hctx] at group
  exact before.trans (group.mono fun x hx => List.mem_flatMap.mpr ⟨i, hi, hx⟩)

end Abort

section Commit

variable {s u : State} {c : Fin 96} {q : Queue} {w : InstrWord}

/-- COMMIT names the committed step or the next one, or it is refused (R197). -/
theorem State.commitCheck_none (commit : w.f0 = false) (h : u.stepField c q w = BitVec.ofNat 32 (u.cstep (u.ctxOf c)) ∨
    u.stepField c q w = BitVec.ofNat 32 (u.cstep (u.ctxOf c)) + 1) : u.commitCheck c q w = none := by
  simp only [State.commitCheck, commit, Bool.false_eq_true, if_false, need, Bool.or_eq_true, beq_iff_eq, if_pos h]

theorem State.commitCheck_some (commit : w.f0 = false) (h : u.stepField c q w ≠ BitVec.ofNat 32 (u.cstep (u.ctxOf c)))
    (h' : u.stepField c q w ≠ BitVec.ofNat 32 (u.cstep (u.ctxOf c)) + 1) :
    u.commitCheck c q w = some { code := Code.UPD_STEP_ORDER } := by
  simp only [State.commitCheck, commit, Bool.false_eq_true, if_false, need, Bool.or_eq_true, beq_iff_eq, h, h', or_self]

theorem State.commitCheck_abort (abort : w.f0 = true) (h : u.abortRefused (u.ctxOf c) (u.stepField c q w) = false) :
    u.commitCheck c q w = none := by
  simp only [State.commitCheck, abort, if_true, h, need, Bool.not_false]

/-- The cases of a COMMIT that issues (R197, R199). -/
theorem State.commitIssue_done (commit : w.f0 = false) (h : u.stepField c q w = BitVec.ofNat 32 (u.cstep (u.ctxOf c))) :
    u.commitIssue c q w = { st := u, step := u.stepField c q w } := by
  simp only [State.commitIssue, commit, Bool.false_eq_true, if_false, if_pos h]

theorem State.commitIssue_waits (commit : w.f0 = false) (h : u.stepField c q w ≠ BitVec.ofNat 32 (u.cstep (u.ctxOf c))) :
    u.commitIssue c q w = { st := u, work := .commit (u.ctxOf c) (!u.committing (u.ctxOf c) (u.stepField c q w)) false,
                            step := u.stepField c q w } := by
  simp only [State.commitIssue, commit, Bool.false_eq_true, if_false, if_neg h]

theorem State.commitIssue_aborts (abort : w.f0 = true) :
    u.commitIssue c q w = { st := u.abortStep (u.ctxOf c) (u.stepField c q w), events := [Code.UPD_STEP_ABORTED],
                            step := u.stepField c q w } := by
  simp only [State.commitIssue, abort, if_true]

theorem exec_commit_issue (hr : s.ready c q .commit w) (commit : w.f0 = false) (check : (s.takeWait c q w).commitCheck c q w = none)
    (st : ((s.takeWait c q w).commitIssue c q w).st = s.takeWait c q w) :
    exec (.commit c q w) s = .next (s.issued c q .commit w ((s.takeWait c q w).commitIssue c q w)) := by
  show execCommit c q w s = _
  rw [execCommit, s.runHead_ready _ hr]
  simp only [check, commit, Bool.false_eq_true, if_false, Verdict.reading_nil st]
  rfl

theorem exec_commit_refuse {code : W16} (hr : s.ready c q .commit w) (commit : w.f0 = false)
    (check : (s.takeWait c q w).commitCheck c q w = some { code := code }) :
    exec (.commit c q w) s = .next (s.refuse c q code w.optag) := by
  show execCommit c q w s = _
  rw [execCommit, s.runHead_ready _ hr, ← State.turnDown_code]
  simp only [check, commit, Bool.false_eq_true, if_false]
  rfl

theorem exec_commit_abort (hr : s.ready c q .commit w) (abort : w.f0 = true) (check : (s.takeWait c q w).commitCheck c q w = none)
    (ha : s.Awake) :
    exec (.commit c q w) s = .next (s.issued c q .commit w (((s.takeWait c q w).commitIssue c q w).read ((s.takeWait c q w).ctxOf c)
      ((s.takeWait c q w).groupTable ((s.takeWait c q w).ctxOf c)))) := by
  show execCommit c q w s = _
  rw [execCommit, s.runHead_ready _ hr]
  simp only [check, abort, if_true, (ha.takeWait c.isLt).reading]
  rfl

end Commit

/-- Settles O22: a COMMIT that names the committed step or the next one issues and changes nothing else, any other is refused, and an abort
is stores in its groups' entries. -/
theorem commitIssues : Obligations.CommitIssues := by
  intro c q w s hr u ctx n k e
  have hctx : ctx < 16 := u.ctxOf_lt c
  refine ⟨fun commit h => ?_, fun commit h => ?_, fun commit h h' idle => ?_, fun abort ha free => ?_⟩
  · have issue := State.commitIssue_done (c := c) commit h
    have run := exec_commit_issue hr commit (State.commitCheck_none commit (.inl h)) (congrArg Issued.st issue)
    rw [issue] at run
    exact ⟨_, run, (State.OnlyRegs.refl u []).issued⟩
  · have ne : n ≠ k := by rw [h]; simp
    have issue := State.commitIssue_waits (c := c) commit ne
    have run := exec_commit_issue hr commit (State.commitCheck_none commit (.inr h)) (congrArg Issued.st issue)
    rw [issue] at run
    exact ⟨_, run, (State.OnlyRegs.refl u []).issued⟩
  · have refused := State.refuse_refused (code := Code.UPD_STEP_ORDER) (optag := w.optag) (addr := 0) idle
    exact ⟨_, exec_commit_refuse hr commit (State.commitCheck_some commit h h'), refused.mode, refused.pc, refused.mem⟩
  · have awake : u.Awake := ha.takeWait c.isLt
    have aborted := State.abortStep_stored (s := u) (n := n) hctx
    have read : (u.abortStep ctx n).Reported ((u.abortStep ctx n).touchedAll ctx (u.groupTable ctx)) ctx [] :=
      (aborted.toServed.awake awake).touchedAt_reported _
    have stored := aborted.trans (read.stored hctx)
    have run := exec_commit_abort hr abort (State.commitCheck_abort abort free) ha
    rw [State.commitIssue_aborts abort, Issued.read] at run
    generalize (u.abortStep ctx n).touchedAll ctx (u.groupTable ctx) = v at run stored
    have queues := stored.toServed.queues.trans (s.takeWait_only c q w).queues
    refine ⟨_, run, State.issued_issuedTo queues stored.keys, (State.issued_regFld _ _ _).trans (stored.toServed.cstep hctx),
      State.issued_bufs.trans (stored.toServed.bufs.trans State.takeWait_bufs), fun x hx => ?_⟩
    rw [State.issued_mem]
    exact (stored.toServed.units x hx).trans (congrArg (memByte · x) (s.takeWait_mem c q w))

end Sys2Proof.Machine

/-! SUPPORT. INSTRUCTION_FETCH: the head that it latches, with MB of its slot, and the refusals of a fetch (R164, R228, R231, R234, R246,
R342). -/

namespace Sys2Proof.Machine

section Latching

variable {s : State} {c ctx a n : Nat} {q : Queue} {o : Op} {w : InstrWord} {b : BitVec 128} {r : Nat × Nat}

/-- Accessing a table may wake clusters and be logged; memory, queues and accumulators are as before (R23, R27, R429). -/
theorem State.touched_kept :
    s.CoresKept (s.touched ctx a n) ∧ (s.touched ctx a n).ages = s.ages ∧
      s.RegsBut (s.touched ctx a n) (gateKeys ++ reportKeys ctx) := by
  have woken := State.wakeAll_only (s := s) (ctx := ctx) (unitsOf a n)
  have told : (s.wakeAll ctx (unitsOf a n)).Reported (s.touched ctx a n) ctx [] := State.touchedAt_reported _
  refine ⟨woken.coresKept.trans told.coresKept, ?_, fun k hk => ?_⟩
  · rw [told.1, woken.1]
  · obtain ⟨gates, reports⟩ := not_or.mp fun h => hk (List.mem_append.mpr h)
    exact (told.2 k reports).trans (woken.2 k gates)

/-- `s` with a word as the head of a queue, and one fetch more counted (R228, R297). -/
def State.headFetched (s : State) (c : Nat) (q : Queue) (b : BitVec 128) : State :=
  { s.setQueue c q { s.queue c q with fetched := some b, age := s.ages, given := none } with ages := s.ages + 1 }

theorem State.headFetched_queue :
    (s.headFetched c q b).queue c q = { s.queue c q with fetched := some b, age := s.ages, given := none } :=
  s.queue_setQueue_self _ _ _

theorem State.headFetched_queuesBut : s.QueuesBut (s.headFetched c q b) c q := fun _ _ h =>
  (s.queue_setQueue _ _ _ _ _).trans (if_neg h)

/-- Fetching a head decides neither which entry of the slot table it names, nor whom its core works for, nor what tables hold. -/
theorem State.headFetched_mbRange : (s.headFetched c q b).mbRange c q o w = s.mbRange c q o w := rfl
theorem State.headFetched_ctxOf (c' : Nat) : (s.headFetched c q b).ctxOf c' = s.ctxOf c' := rfl
theorem State.headFetched_tableRead : (s.headFetched c q b).tableRead ctx a n = s.tableRead ctx a n := rfl

theorem State.becomeHead_latches (h : opOf (opField b) = some o) :
    s.becomeHead c q b = (s.headFetched c q b).latchMb c q o (frameOf b) := by
  simp only [State.becomeHead, h]
  rfl

theorem State.becomeHead_reserved (h : opOf (opField b) = none) : s.becomeHead c q b = s.headFetched c q b := by
  simp only [State.becomeHead, h]
  rfl

theorem State.latchMb_none (h : s.mbRange c q o w = none) : s.latchMb c q o w = s := by
  simp only [State.latchMb, h]

theorem State.latchMb_some (h : s.mbRange c q o w = some r) : s.latchMb c q o w =
    (s.touched (s.ctxOf c) r.1 r.2).setQueue c q { s.queue c q with mb := leNat (s.tableRead (s.ctxOf c) r.1 r.2).data } := by
  simp only [State.latchMb, h]

end Latching

section Fetch

variable {s t : State} {c : Fin 96} {q : Queue} {e : Ecc} {o : Op} {m : Nat}

/-- The queue considers a head: its core has a clock, it runs or waits, and neither a refusal nor an END is before it (R228, R234, R416). -/
structure State.Fetches (s : State) (c : Nat) (q : Queue) : Prop where
  clocked : s.coreHung c = false
  mode : (s.queue c q).mode = .running ∨ (s.queue c q).mode = .waiting
  free : (s.queue c q).refusal = none
  going : (s.queue c q).inflight.any (·.op == .end_) = false

theorem State.Fetches.guard (h : s.Fetches c q) : ¬(!((s.queue c q).mode == .running || (s.queue c q).mode == .waiting) ||
    (s.queue c q).refusal != none || (s.queue c q).inflight.any (·.op == .end_) || s.coreHung c) = true := by
  obtain ⟨clocked, mode, free, going⟩ := h
  rcases mode with mode | mode <;> simp [clocked, mode, free, going]

/-- A core without a clock fetches nothing (R416). -/
theorem exec_fetch_hung (hung : s.coreHung c = true) : exec (.instructionFetch c q e) s = .next s := by
  show execInstructionFetch c q e s = _
  exact if_pos (by simp [hung])

theorem exec_fetch_beyond (h : s.Fetches c q) (beyond : 12288 ≤ (s.queue c q).pc.toNat) :
    exec (.instructionFetch c q e) s = .next (s.refuse c q Code.PC_RANGE 0) := by
  show execInstructionFetch c q e s = _
  exact (if_neg h.guard).trans (if_pos beyond)

/-- `s` with an uncorrectable instruction word recorded as its core's bad read (R333, R344). -/
def State.badFetch (s : State) (c : Nat) (q : Queue) : State :=
  s.memErr c q 2 (s.queue c q).pc 0 (s.imemAddr c (s.queue c q).pc)

theorem exec_fetch_uncorrectable (h : s.Fetches c q) (inside : (s.queue c q).pc.toNat < 12288) (bad : e = .uncorrectable) :
    exec (.instructionFetch c q e) s =
      .next (((s.badFetch c q).refuse c q Code.MEM_IFETCH 0 (BitVec.ofNat 64 (s.imemAddr c (s.queue c q).pc))).trigger (srcOf 6 c)
        Code.MEM_IFETCH (imemPa c (16 * (s.queue c q).pc.toNat))) := by
  show execInstructionFetch c q e s = _
  exact (if_neg h.guard).trans ((if_neg (by omega)).trans (if_pos bad))

theorem exec_fetch_head (h : s.Fetches c q) (inside : (s.queue c q).pc.toNat < 12288) (good : e ≠ .uncorrectable)
    (fresh : (s.queue c q).fetched = none) (op : opOf (opField (s.imemWord c (s.queue c q).pc)) = some o) :
    exec (.instructionFetch c q e) s = .next (s.becomeHead c q (s.imemWord c (s.queue c q).pc)) := by
  show execInstructionFetch c q e s = _
  rw [execInstructionFetch, if_neg h.guard, if_neg (by omega), if_neg good]
  simp only [fresh, Option.getD_none, if_true, op]

theorem exec_fetch_reserved (h : s.Fetches c q) (inside : (s.queue c q).pc.toNat < 12288) (good : e ≠ .uncorrectable)
    (fresh : (s.queue c q).fetched = none) (op : opOf (opField (s.imemWord c (s.queue c q).pc)) = none) :
    exec (.instructionFetch c q e) s = .next ((s.headFetched c q (s.imemWord c (s.queue c q).pc)).reservedHead c q
      (frameOf (s.imemWord c (s.queue c q).pc))) := by
  show execInstructionFetch c q e s = _
  rw [execInstructionFetch, if_neg h.guard, if_neg (by omega), if_neg good]
  simp only [fresh, Option.getD_none, if_true, op, State.becomeHead_reserved op]

end Fetch

section Heads

variable {s t u : State} {c : Nat} {q : Queue} {w : InstrWord} {code optag : W16} {ks : List Nat} {y : W16} {addr : Nat}

/-- What a refusal changes of the state does not depend on registers changed before it. -/
theorem State.RefusedAt.of_onlyRegs (only : s.OnlyRegs u ks) (hk : qK c q 8 ∉ ks) (h : u.RefusedAt t c q code optag) :
    s.RefusedAt t c q code optag := by
  have queue : u.queue c q = s.queue c q := congrArg (tgetD · _ _) only.queues
  obtain ⟨mode, pc, mem, fault⟩ := h
  rw [queue] at pc fault
  exact ⟨mode, pc, mem.trans only.mem, fun first => fault ((congrArg (bitAt · 63) (only.2 _ hk)).trans first)⟩

/-- Nor on what follows it and leaves the queues, memory and the fault register alone. -/
theorem State.RefusedAt.followed (h : s.RefusedAt t c q code optag) (queues : u.queues = t.queues) (mem : u.mem = t.mem)
    (reg : u.reg (qK c q 8) = t.reg (qK c q 8)) : s.RefusedAt u c q code optag := by
  have queue : u.queue c q = t.queue c q := congrArg (tgetD · _ _) queues
  obtain ⟨mode, pc, mem', fault⟩ := h
  exact ⟨by rw [queue, mode], by rw [queue, pc], mem.trans mem', fun first => reg.trans (fault first)⟩

theorem not_mxKey_fault (hc : c < 96) : ¬MxKey (qK c q 8) := by
  have : qnum q < 6 := by cases q <;> decide
  unfold MxKey PortKey qK coreK; omega

/-- A self-test that is triggered leaves the queues alone (R397, R398). -/
theorem State.trigger_queues : (s.trigger y code addr).queues = s.queues := by
  have told : ∀ (r : State) (v : Nat), (r.verdict y v addr).queues = r.queues := fun r v => by
    obtain ⟨-, -, queues, -⟩ :=
      (r.report_reported 0x06 0 y { verdict := v, addr := BitVec.ofNat 64 addr, detail := r.firstError y }).coresKept
    exact queues
  unfold State.trigger
  dsimp only
  split
  · exact told s 6
  split
  · rfl
  split
  · exact told _ 5
  split
  · exact told _ 4
  · rfl

theorem dieOf_core (hc : c < 96) : dieOf (srcOf 6 c) < 2 := by
  have typ : srcType (srcOf 6 c) = 6 := by simp [srcType, srcOf]; omega
  have idx : srcIndex (srcOf 6 c) = c := by simp [srcIndex, srcOf]; omega
  rw [dieOf, typ, idx]
  show c / 48 < 2
  omega

theorem State.memErr_only {kind : Nat} {pc : BitVec 14} : s.OnlyRegs (s.memErr c q kind pc optag addr) [coreK c 0xD00, coreK c 0xD08] := by
  unfold State.memErr
  split
  · exact .refl s _
  · exact (s.setReg_only _ _).trans (State.setReg_only _ _ _)

/-- A fetch of an uncorrectable word refuses, and triggers a self-test of the core (R342, R397). -/
theorem State.badFetch_refused (hc : c < 96) (idle : (s.queue c q).inflight = []) (x : W64) :
    s.RefusedAt (((s.badFetch c q).refuse c q Code.MEM_IFETCH 0 x).trigger (srcOf 6 c) Code.MEM_IFETCH addr) c q Code.MEM_IFETCH 0 := by
  have noted : s.OnlyRegs (s.badFetch c q) [coreK c 0xD00, coreK c 0xD08] := State.memErr_only
  have queue : (s.badFetch c q).queue c q = s.queue c q := congrArg (tgetD · _ _) noted.queues
  have tested := State.trigger_mxKeeps (s := (s.badFetch c q).refuse c q Code.MEM_IFETCH 0 x) (c := c) (q := q) (i := 0)
    (code := Code.MEM_IFETCH) (addr := addr) (dieOf_core hc)
  refine ((State.refuse_refused (by rwa [queue])).of_onlyRegs noted ?_).followed State.trigger_queues tested.mem
    (tested.regs _ (not_mxKey_fault hc))
  have : qnum q < 6 := by cases q <;> decide
  simp only [List.mem_cons, List.not_mem_nil, or_false]
  unfold qK coreK
  omega

/-- A head with a reserved opcode that waits for nothing is refused at once when nothing is in flight (R228, R246). -/
theorem State.reservedHead_refused {b : BitVec 128} (idle : (s.queue c q).inflight = []) (wait : w.wcond = 0) :
    s.RefusedAt ((s.headFetched c q b).reservedHead c q w) c q Code.OPCODE_RESERVED w.optag := by
  have flight : ((s.headFetched c q b).queue c q).inflight = [] := by rw [State.headFetched_queue]; exact idle
  have met : (s.headFetched c q b).waitMet c q w = true := by simp [State.waitMet, State.waitHome, wait]
  have room : ((s.headFetched c q b).queue c q).open_ q = true := by
    simp only [QState.open_, QState.interlocked, flight, List.any_nil, List.length_nil]
    cases q <;> rfl
  have run : (s.headFetched c q b).reservedHead c q w = (s.headFetched c q b).refuse c q Code.OPCODE_RESERVED w.optag := by
    simp [State.reservedHead, met, room]
  obtain ⟨mode, pc, mem, fault⟩ := State.refuse_refused (code := Code.OPCODE_RESERVED) (optag := w.optag) (addr := 0) flight
  rw [State.headFetched_queue] at pc fault
  rw [run]
  exact ⟨mode, pc, mem, fault⟩

/-- `t` is `s` with the word `b` latched as the head of queue `q`, whose MB is `m`; beside the queue, the clusters that reading MB wakes and
what is logged of it may differ (R164, R228). -/
structure State.Latched (s t : State) (c : Nat) (q : Queue) (b : BitVec 128) (m : Nat) : Prop where
  others : s.QueuesBut t c q
  ages : t.ages = s.ages + 1
  mem : t.mem = s.mem
  bufs : t.bufs = s.bufs
  queue : t.queue c q = { s.queue c q with fetched := some b, age := s.ages, given := none, mb := m }
  regs : s.RegsBut t (gateKeys ++ reportKeys (s.ctxOf c))

theorem State.becomeHead_plain {b : BitVec 128} {o : Op} (op : opOf (opField b) = some o) (h : s.mbRange c q o (frameOf b) = none) :
    s.becomeHead c q b = s.headFetched c q b :=
  (State.becomeHead_latches op).trans (State.latchMb_none (State.headFetched_mbRange.trans h))

theorem State.headFetched_latched {b : BitVec 128} : s.Latched (s.headFetched c q b) c q b (s.queue c q).mb :=
  ⟨State.headFetched_queuesBut, rfl, rfl, rfl, State.headFetched_queue, fun _ _ => rfl⟩

/-- A matrix instruction latches MB of the slot that it names (R164). -/
theorem State.becomeHead_matrix {b : BitVec 128} {o : Op} {r : Nat × Nat} (op : opOf (opField b) = some o)
    (h : s.mbRange c q o (frameOf b) = some r) :
    s.Latched (s.becomeHead c q b) c q b (leNat (s.tableRead (s.ctxOf c) r.1 r.2).data) := by
  obtain ⟨others, ages, mem, bufs, queue, regs⟩ := State.headFetched_latched (s := s) (c := c) (q := q) (b := b)
  obtain ⟨⟨mem', -, queues', bufs'⟩, ages', regs'⟩ :=
    State.touched_kept (s := s.headFetched c q b) (ctx := s.ctxOf c) (a := r.1) (n := r.2)
  rw [State.becomeHead_latches op, State.latchMb_some (State.headFetched_mbRange.trans h), State.headFetched_ctxOf,
    State.headFetched_tableRead]
  refine ⟨fun c' q' hne => ?_, ages'.trans ages, mem'.trans mem, bufs'.trans bufs, ?_, fun k hk => (regs' k hk).trans (regs k hk)⟩
  · rw [State.queue_setQueue, if_neg hne, State.queue, queues']
    exact others c' q' hne
  · rw [State.queue_setQueue_self, queue]

end Heads

/-- Settles O30: the fetched word becomes the head, with MB where it names a slot, or one of the three refusals faults the queue. -/
theorem fetchReadsTheHead : Obligations.FetchReadsTheHead := by
  intro c q e s x
  refine ⟨exec_fetch_hung, fun clocked mode free going => ?_⟩
  have fetches : s.Fetches c q := ⟨clocked, mode, free, going⟩
  refine ⟨fun o inside good fresh op => ?_, fun beyond idle => ?_, fun inside bad idle => ?_, fun inside good fresh op idle wait => ?_⟩
  · have run := exec_fetch_head fetches inside good fresh op
    cases range : s.mbRange c q o (frameOf (s.imemWord c x.pc)) with
    | none =>
      obtain ⟨others, ages, mem, bufs, queue, regs⟩ := State.headFetched_latched (s := s) (c := c) (q := q) (b := s.imemWord c x.pc)
      rw [State.becomeHead_plain op range] at run
      exact ⟨_, _, run, others, ages, mem, bufs, queue, regs, fun _ => ⟨rfl, rfl⟩, fun r h => nomatch h⟩
    | some r =>
      obtain ⟨others, ages, mem, bufs, queue, regs⟩ := State.becomeHead_matrix op range
      exact ⟨_, _, run, others, ages, mem, bufs, queue, regs, fun h => (nomatch h), fun r' h => by rw [Option.some.inj h]⟩
  · obtain ⟨mode, -, mem, fault⟩ := State.refuse_refused (code := Code.PC_RANGE) (optag := 0) (addr := 0) idle
    exact ⟨_, exec_fetch_beyond fetches beyond, mode, mem, fault⟩
  · obtain ⟨mode, -, mem, fault⟩ := State.badFetch_refused (addr := imemPa c (16 * x.pc.toNat)) c.isLt idle
      (BitVec.ofNat 64 (s.imemAddr c x.pc))
    exact ⟨_, exec_fetch_uncorrectable fetches inside bad, mode, mem, fault⟩
  · obtain ⟨mode, -, mem, fault⟩ := State.reservedHead_refused (b := s.imemWord c x.pc) idle wait
    exact ⟨_, exec_fetch_reserved fetches inside good fresh op, mode, mem, fault⟩

end Sys2Proof.Machine

/-! SUPPORT. A group's entry in the group table: its fields as parts of its 16 words, what a write of a word leaves in the others, and what
decides how a context's tables are read and written (R23 to R28, R32, R186). -/

namespace Sys2Proof.Machine

section Slices

variable {l r : List Byte} {k x i lo len : Nat}

theorem leNat_append : leNat (l ++ r) = leNat l + 256 ^ l.length * leNat r := by
  induction l with
  | nil => simp [leNat]
  | cons b l ih =>
    rw [List.cons_append, leNat, leNat, ih, List.length_cons, pow_succ]
    ring

theorem leNat_lt : leNat l < 256 ^ l.length := by
  induction l with
  | nil => simp [leNat]
  | cons b l ih =>
    have := b.isLt
    rw [leNat, List.length_cons, pow_succ]
    omega

/-- A slice of bytes is the slice of their value. -/
theorem leNat_slice (h : k + x ≤ l.length) : leNat ((l.drop k).take x) = leNat l / 256 ^ k % 256 ^ x := by
  have cut : l = l.take k ++ ((l.drop k).take x ++ (l.drop k).drop x) := by rw [List.take_append_drop, List.take_append_drop]
  have low : leNat (l.take k) < 256 ^ k := by
    have := leNat_lt (l := l.take k)
    rwa [List.length_take, min_eq_left (by omega)] at this
  have mid : leNat ((l.drop k).take x) < 256 ^ x := by
    have := leNat_lt (l := (l.drop k).take x)
    rwa [List.length_take, List.length_drop, min_eq_left (by omega)] at this
  conv_rhs => rw [cut, leNat_append, leNat_append, List.length_take, List.length_take, List.length_drop, min_eq_left (by omega),
    min_eq_left (by omega), Nat.add_mul_div_left _ _ (Nat.pow_pos (by decide)), Nat.div_eq_of_lt low, Nat.zero_add,
    Nat.add_mul_mod_self_left, Nat.mod_eq_of_lt mid]

/-- A field of a record's word `i` lies in the eight bytes of that word. -/
theorem recFld_leNat (h : 8 * i + 8 ≤ l.length) (inside : lo + len ≤ 64) :
    recFld (leNat l) i lo len = fld (BitVec.ofNat 64 (leNat ((l.drop (8 * i)).take 8))) lo len := by
  rw [leNat_slice h, show (256 : Nat) ^ (8 * i) = 2 ^ (64 * i) by rw [show (256 : Nat) = 2 ^ 8 by rfl, ← pow_mul]; congr 1; ring,
    show (256 : Nat) ^ 8 = 2 ^ 64 by rfl]
  refine Nat.eq_of_testBit_eq fun j => ?_
  by_cases hj : j < len
  · have : lo + j < 64 := by omega
    simp only [recFld, fld, BitVec.toNat_ofNat, Nat.testBit_mod_two_pow, Nat.testBit_shiftRight, Nat.testBit_div_two_pow, hj, this,
      decide_true, Bool.true_and]
    congr 1; ring
  · simp only [recFld, fld, Nat.testBit_mod_two_pow, hj, decide_false, Bool.false_and]

/-- A record of `n` bits holds the fields that end within it. -/
theorem recFld_ofNat {n : Nat} (h : 64 * i + lo + len ≤ n) : recFld (BitVec.ofNat n x).toNat i lo len = recFld x i lo len := by
  refine Nat.eq_of_testBit_eq fun j => ?_
  by_cases hj : j < len
  · have : 64 * i + lo + j < n := by omega
    simp only [recFld, BitVec.toNat_ofNat, Nat.testBit_mod_two_pow, Nat.testBit_shiftRight, this, decide_true, Bool.true_and]
  · simp only [recFld, Nat.testBit_mod_two_pow, hj, decide_false, Bool.false_and]

/-- A field of one bit is that bit. -/
theorem fld_bit (v : W64) (n : Nat) : (fld v n 1 == 1) = bitAt v n := by
  have bit := fld_testBit v n 1 0
  have range := fld_lt v n 1
  obtain zero | one : fld v n 1 = 0 ∨ fld v n 1 = 1 := by omega
  · rw [zero] at bit ⊢
    simpa [bitAt] using bit
  · rw [one] at bit ⊢
    simpa [bitAt] using bit

end Slices

section Entry

variable {s t : State} {ctx a i k lo len : Nat}

theorem State.unitAt_length : (s.unitAt ctx a).data.length = 64 := by
  unfold State.unitAt
  split
  · exact State.readUnit_length
  · simp [zeros]

/-- The bytes of an entry are those of its two units (R186). -/
theorem State.groupRead_data : (s.groupRead ctx i).data =
    (s.unitAt ctx (s.groupAddr ctx i)).data ++ (s.unitAt ctx (s.groupAddr ctx i + 64)).data := by
  have align := State.groupAddr_mod (s := s) (ctx := ctx) (i := i)
  unfold State.groupRead State.tableRead
  generalize s.groupAddr ctx i = a at *
  have units : unitsOf a 128 = [a, a + 64] := by
    rw [unitsOf, if_neg (by decide), show (a + 128 - 1) / 64 - a / 64 + 1 = 2 by omega]
    simp only [List.range_succ, List.range_zero, List.nil_append, List.cons_append, List.map_cons, List.map_nil, List.cons.injEq,
      and_true]
    omega
  simp only [units, List.map_cons, List.map_nil, List.flatten_cons, List.flatten_nil, List.append_nil, show a % 64 = 0 by omega,
    List.drop_zero]
  exact List.take_of_length_le (by simp [State.unitAt_length])

theorem State.groupRead_length : (s.groupRead ctx i).data.length = 128 := by
  simp [State.groupRead_data, State.unitAt_length]

/-- A word of an entry is its eight bytes. -/
theorem State.groupWord_slice (hk : k < 16) : s.groupWord ctx (s.groupAddr ctx i) k =
    BitVec.ofNat 64 (leNat (((s.groupRead ctx i).data.drop (8 * k)).take 8)) := by
  have align := State.groupAddr_mod (s := s) (ctx := ctx) (i := i)
  have len := fun b => State.unitAt_length (s := s) (ctx := ctx) (a := b)
  rw [State.groupRead_data, State.groupWord, State.tableRead]
  generalize s.groupAddr ctx i = a at *
  simp only [unitsOf_one (by decide : 0 < 8) (show (a + 8 * k) % 64 + 8 ≤ 64 by omega), List.map_cons, List.map_nil, List.flatten_cons,
    List.flatten_nil, List.append_nil]
  by_cases low : k < 8
  · rw [show (a + 8 * k) / 64 * 64 = a by omega, show (a + 8 * k) % 64 = 8 * k by omega,
      List.drop_append_of_le_length (by rw [len]; omega), List.take_append_of_le_length (by rw [List.length_drop, len]; omega)]
  · rw [show (a + 8 * k) / 64 * 64 = a + 64 by omega, show (a + 8 * k) % 64 = 8 * k - 64 by omega, List.drop_append, len,
      List.drop_eq_nil_of_le (as := (s.unitAt ctx a).data) (by rw [len]; omega), List.nil_append]

/-- A field of an entry is that field of its word (R186). -/
theorem State.groupBits_fld (k lo len : Nat) (hk : k < 16) (inside : lo + len ≤ 64) :
    recFld (s.groupBits ctx i).toNat k lo len = fld (s.groupWord ctx (s.groupAddr ctx i) k) lo len := by
  rw [State.groupBits, recFld_ofNat (by omega), State.groupWord_slice hk,
    recFld_leNat (by rw [State.groupRead_length]; omega) inside]

theorem State.groupBits_bit (k n : Nat) (hk : k < 16) (hn : n < 64) :
    (recFld (s.groupBits ctx i).toNat k n 1 == 1) = bitAt (s.groupWord ctx (s.groupAddr ctx i) k) n := by
  rw [State.groupBits_fld k n 1 hk (by omega), fld_bit]

/-! The fields that the block itself writes, in words 12 to 15 (R186). -/

theorem State.groupAt_cur : (s.groupAt ctx i).cur = bitAt (s.groupWord ctx (s.groupAddr ctx i) 12) 63 :=
  State.groupBits_bit 12 63 (by decide) (by decide)
theorem State.groupAt_fb : (s.groupAt ctx i).fb = bitAt (s.groupWord ctx (s.groupAddr ctx i) 12) 62 :=
  State.groupBits_bit 12 62 (by decide) (by decide)
theorem State.groupAt_wfb : (s.groupAt ctx i).wfb = bitAt (s.groupWord ctx (s.groupAddr ctx i) 12) 61 :=
  State.groupBits_bit 12 61 (by decide) (by decide)
theorem State.groupAt_cstep :
    (s.groupAt ctx i).cstep = BitVec.ofNat 32 (fld (s.groupWord ctx (s.groupAddr ctx i) 12) 0 32) :=
  congrArg (BitVec.ofNat 32) (State.groupBits_fld 12 0 32 (by decide) (by decide))
theorem State.groupAt_wstep :
    (s.groupAt ctx i).wstep = BitVec.ofNat 32 (fld (s.groupWord ctx (s.groupAddr ctx i) 13) 32 32) :=
  congrArg (BitVec.ofNat 32) (State.groupBits_fld 13 32 32 (by decide) (by decide))
theorem State.groupAt_tcount :
    (s.groupAt ctx i).tcount = BitVec.ofNat 32 (fld (s.groupWord ctx (s.groupAddr ctx i) 13) 0 32) :=
  congrArg (BitVec.ofNat 32) (State.groupBits_fld 13 0 32 (by decide) (by decide))
theorem State.groupAt_wcount : (s.groupAt ctx i).wcount = fld (s.groupWord ctx (s.groupAddr ctx i) 14) 0 40 :=
  State.groupBits_fld 14 0 40 (by decide) (by decide)
theorem State.groupAt_b1p : (s.groupAt ctx i).b1p = fld (s.groupWord ctx (s.groupAddr ctx i) 15) 32 32 :=
  State.groupBits_fld 15 32 32 (by decide) (by decide)
theorem State.groupAt_b2p : (s.groupAt ctx i).b2p = fld (s.groupWord ctx (s.groupAddr ctx i) 15) 0 32 :=
  State.groupBits_fld 15 0 32 (by decide) (by decide)

end Entry

section Places

variable {s t u : State} {us ks : List Nat} {ctx a pa i k : Nat} {bs : List Byte}

/-- The addresses of a context lead in `t` where they lead in `s`, and memory answers and takes writes there as in `s`. -/
structure State.SamePlaces (s t : State) (ctx : Nat) : Prop where
  place : ∀ o, t.localPlace ctx o = s.localPlace ctx o
  dead : ∀ pa, t.deadAt pa = s.deadAt pa
  window : ∀ pa, t.shutCore none pa = s.shutCore none pa

theorem State.SamePlaces.trans (h : s.SamePlaces t ctx) (h' : t.SamePlaces u ctx) : s.SamePlaces u ctx :=
  ⟨fun o => (h'.place o).trans (h.place o), fun pa => (h'.dead pa).trans (h.dead pa), fun pa => (h'.window pa).trans (h.window pa)⟩

theorem State.Served.samePlaces (h : s.Served t us) (hctx : ctx < 16) : s.SamePlaces t ctx :=
  ⟨h.localPlace hctx, h.deadAt, h.shutCore none⟩

theorem State.OnlyRegs.samePlaces (h : s.OnlyRegs t ks) (hb : ∀ o, o < 0x10000 → bindK ctx o ∉ ks)
    (hk : ∀ st o, o < 0x28 → stkK st o ∉ ks) : s.SamePlaces t ctx :=
  ⟨h.localPlace hb, h.deadAt hk, h.shutCore none⟩

/-- A unit reads as before where its bytes are as before. -/
theorem State.SamePlaces.unitAt_data (h : s.SamePlaces t ctx)
    (bytes : ∀ pa, s.localPlace ctx a = .mem pa → memRead t.mem (pa / 64 * 64) 64 = memRead s.mem (pa / 64 * 64) 64) :
    (t.unitAt ctx a).data = (s.unitAt ctx a).data := by
  unfold State.unitAt
  rw [h.place]
  cases place : s.localPlace ctx a with
  | mem pa => simp only [State.readUnit_data, h.dead, bytes pa place]
  | _ => rfl

/-- `t` has the memory of `s`, and the tables of a context lead there as in `s`. -/
structure State.SameTables (s t : State) (ctx : Nat) : Prop extends s.SamePlaces t ctx where
  mem : t.mem = s.mem

theorem State.SameTables.trans (h : s.SameTables t ctx) (h' : t.SameTables u ctx) : s.SameTables u ctx :=
  ⟨h.toSamePlaces.trans h'.toSamePlaces, h'.mem.trans h.mem⟩

theorem State.OnlyRegs.sameTables (h : s.OnlyRegs t ks) (hb : ∀ o, o < 0x10000 → bindK ctx o ∉ ks)
    (hk : ∀ st o, o < 0x28 → stkK st o ∉ ks) : s.SameTables t ctx := ⟨h.samePlaces hb hk, h.mem⟩

theorem State.Reported.sameTables (h : s.Reported t ctx []) (hctx : ctx < 16) : s.SameTables t ctx := by
  obtain ⟨mem, -⟩ := h.coresKept
  exact ⟨(h.served (us := []) hctx).samePlaces hctx, mem⟩

/-- Accessing tables wakes clusters and may be logged; where tables lead stays. -/
theorem State.touchedAt_sameTables (hctx : ctx < 16) (as : List Nat) : s.SameTables (s.touchedAt ctx as) ctx :=
  ((State.wakeAll_only as).sameTables (fun _ => not_gateKey_bind hctx) fun st o _ => not_gateKey_stk st o).trans
    ((State.touchedAt_reported as).sameTables hctx)

theorem State.SameTables.unitAt_data (h : s.SameTables t ctx) (a : Nat) : (t.unitAt ctx a).data = (s.unitAt ctx a).data :=
  h.toSamePlaces.unitAt_data fun _ _ => by rw [h.mem]

theorem State.SameTables.groupWord (h : s.SameTables t ctx) (a k : Nat) : t.groupWord ctx a k = s.groupWord ctx a k := by
  simp only [State.groupWord, State.tableRead, List.map_map, Function.comp_def, h.unitAt_data]

theorem State.SameTables.groupAt (h : s.SameTables t ctx) (addr : t.groupAddr ctx i = s.groupAddr ctx i) :
    t.groupAt ctx i = s.groupAt ctx i := by
  simp only [State.groupAt, State.groupBits, State.groupRead_data, addr, h.unitAt_data]

/-- A write of part of a unit comes to the same memory. -/
theorem State.SameTables.writePart_mem (h : s.SameTables t ctx) (pa : Nat) (bs : List Byte) :
    (t.writePart pa bs).mem = (s.writePart pa bs).mem := by
  have unit : ∀ (u : List Byte) (x y : W16), (t.writeUnitX pa u x).mem = (s.writeUnitX pa u y).mem := fun u x y => by
    by_cases dead : s.deadAt pa = none
    · rw [State.writeUnitX_mem dead, State.writeUnitX_mem ((h.dead pa).trans dead), h.mem]
    · rw [State.writeUnitX_mem_dead dead, State.writeUnitX_mem_dead (by rwa [h.dead]), h.mem]
  unfold State.writePart
  simp only [State.readUnit_data, h.dead, h.mem]
  split
  · exact unit _ _ _
  · exact unit _ _ _

/-- A write through a window does the same to the tables of both. -/
theorem State.SameTables.through (h : s.SameTables t ctx) (hctx : ctx < 16) (hw : chamBase ≤ pa → windowCore pa < 96) :
    (s.through none pa fun s => s.writePart pa bs).SameTables (t.through none pa fun s => s.writePart pa bs) ctx := by
  have kept : ∀ r : State, r.SamePlaces (r.through none pa fun s => s.writePart pa bs) ctx := fun r =>
    (State.through_served (us := [pa / 64 * 64]) hw (State.writePart_served (.head []))).samePlaces hctx
  refine ⟨⟨fun o => ?_, fun p => ?_, fun p => ?_⟩, ?_⟩
  · exact ((kept t).place o).trans ((h.place o).trans ((kept s).place o).symm)
  · exact ((kept t).dead p).trans ((h.dead p).trans ((kept s).dead p).symm)
  · exact ((kept t).window p).trans ((h.window p).trans ((kept s).window p).symm)
  · cases shut : s.shutCore none pa with
    | none => rw [State.through_open _ shut, State.through_open _ ((h.window pa).trans shut), h.writePart_mem]
    | some c =>
      rw [State.through_shut _ shut, State.through_shut _ ((h.window pa).trans shut), (State.count_only _ _ _).mem,
        (State.count_only _ _ _).mem, h.mem]

theorem State.SameTables.tableWriteN (h : s.SameTables t ctx) (hctx : ctx < 16) (n a : Nat) (bs : List Byte) :
    (s.tableWriteN ctx a bs n).SameTables (t.tableWriteN ctx a bs n) ctx := by
  induction n generalizing s t a bs with
  | zero => exact h
  | succ n ih =>
    unfold State.tableWriteN
    split
    · exact h
    · refine ih ?_ _ _
      rw [h.place]
      cases place : s.localPlace ctx a with
      | mem pa => exact h.through hctx (State.localPlace_mem place).2
      | _ => exact h

theorem State.SameTables.setGroupWord (h : s.SameTables t ctx) (hctx : ctx < 16) (v : W64) :
    (s.setGroupWord ctx a k v).SameTables (t.setGroupWord ctx a k v) ctx := h.tableWriteN hctx _ _ _

end Places

section Takes

variable {s t : State} {us : List Nat} {ctx a pa i j k : Nat} {v : W64}

/-- The entry of a group at local address `a` has its words 8 to 15 in a unit at `pa` that takes writes (R186). -/
structure State.EntryTakes (s : State) (ctx a pa : Nat) : Prop where
  align : a % 128 = 0
  place : s.localPlace ctx (a + 64) = .mem pa
  dead : s.deadAt pa = none
  window : s.shutCore none pa = none

theorem State.GroupTakes.entry (h : s.GroupTakes ctx i pa) : s.EntryTakes ctx (s.groupAddr ctx i) pa := by
  obtain ⟨place, dead, window⟩ := h
  exact ⟨State.groupAddr_mod, place, dead, window⟩

theorem State.EntryTakes.congr (h : s.EntryTakes ctx a pa) (same : s.SamePlaces t ctx) : t.EntryTakes ctx a pa :=
  ⟨h.align, (same.place _).trans h.place, (same.dead pa).trans h.dead, (same.window pa).trans h.window⟩

theorem State.EntryTakes.align_pa (h : s.EntryTakes ctx a pa) : pa % 64 = 0 := by
  have := (State.localPlace_mem h.place).1
  have := h.align
  omega

theorem State.EntryTakes.word (h : s.EntryTakes ctx a pa) (hj : 8 ≤ j ∧ j < 16) :
    s.localPlace ctx (a + 8 * j) = .mem (pa + 8 * (j - 8)) := by
  have align := h.align
  rw [show a + 8 * j = a + 64 + 8 * (j - 8) by omega, State.localPlace_plus (by omega) (by omega), h.place]
  rfl

theorem State.EntryTakes.groupWord_eq (h : s.EntryTakes ctx a pa) (hj : 8 ≤ j ∧ j < 16) :
    s.groupWord ctx a j = BitVec.ofNat 64 (leNat (memRead s.mem (pa + 8 * (j - 8)) 8)) := by
  have align := h.align
  have align_pa := h.align_pa
  have dead : s.deadAt (pa + 8 * (j - 8)) = none := (State.deadAt_unit (by omega)).trans h.dead
  have unit : s.unitAt ctx ((a + 8 * j) / 64 * 64) = s.readUnit pa := by
    rw [show (a + 8 * j) / 64 * 64 = a + 64 by omega]
    simp only [State.unitAt, h.place]
  have read := State.readBytes_data (s := s) (pa := pa + 8 * (j - 8)) (by decide : 0 < 8) (by omega)
  rw [if_pos dead] at read
  rw [← read]
  simp only [State.groupWord, State.tableRead, State.readBytes,
    unitsOf_one (by decide : 0 < 8) (show (a + 8 * j) % 64 + 8 ≤ 64 by omega),
    unitsOf_one (by decide : 0 < 8) (show (pa + 8 * (j - 8)) % 64 + 8 ≤ 64 by omega), List.map_cons, List.map_nil, unit,
    show (pa + 8 * (j - 8)) / 64 * 64 = pa by omega, show (a + 8 * j) % 64 = (pa + 8 * (j - 8)) % 64 by omega]

theorem State.EntryTakes.setGroupWord_eq (h : s.EntryTakes ctx a pa) (hj : 8 ≤ j ∧ j < 16) :
    s.setGroupWord ctx a j v = s.writePart (pa + 8 * (j - 8)) (leBytes 8 v.toNat) := by
  have align := h.align
  have align_pa := h.align_pa
  have len := leBytes_length 8 v.toNat
  have window : s.shutCore none (pa + 8 * (j - 8)) = none := (State.shutCore_unit (by omega)).trans h.window
  rw [State.setGroupWord, State.tableWrite_mem (by simp [← List.length_pos_iff, len]) (by omega) (h.word hj), State.through_open _ window]

theorem State.EntryTakes.setGroupWord (h : s.EntryTakes ctx a pa) (hctx : ctx < 16) (j : Nat) (v : W64) :
    (s.setGroupWord ctx a j v).EntryTakes ctx a pa :=
  h.congr (((State.Stored.refl s ctx _).setGroupWord hctx h.align fun _ hx => hx).toServed.samePlaces hctx)

/-- A word that is written reads as written, and the other words of its unit as before. -/
theorem State.EntryTakes.groupWord_setGroupWord (h : s.EntryTakes ctx a pa) (hctx : ctx < 16) (hj : 8 ≤ j ∧ j < 16)
    (hk : 8 ≤ k ∧ k < 16) : (s.setGroupWord ctx a j v).groupWord ctx a k = if k = j then v else s.groupWord ctx a k := by
  have align_pa := h.align_pa
  have len := leBytes_length 8 v.toNat
  rw [(h.setGroupWord hctx j v).groupWord_eq hk, h.setGroupWord_eq hj]
  split
  · next same =>
    have read := State.memRead_writePart (s := s) (poison := false) (pa := pa + 8 * (j - 8)) (bs := leBytes 8 v.toNat)
      ((State.deadAt_unit (by omega)).trans h.dead) (by omega)
    rw [len] at read
    rw [same, read, leNat_leBytes, Nat.mod_eq_of_lt (show v.toNat < 256 ^ 8 from v.isLt), BitVec.ofNat_toNat, BitVec.setWidth_eq]
  · next other =>
    rw [h.groupWord_eq hk]
    refine congrArg _ (congrArg _ (memRead_congr fun y hl hr => ?_))
    exact State.writePart_bytesBut (by omega) y (by omega)

end Takes

end Sys2Proof.Machine

/-! SUPPORT. UPD: its registers, what it leaves in its group's entry when it opens the step there, and its issue (R183, R185, R196,
R469). -/

namespace Sys2Proof.Machine

section StepKeys

variable {s t u : State} {ctx k n o : Nat} {us : List Nat}

/-- The registers that the update of a step may change beside its semaphore: those of `MxKey`, snapshots and the counters of update units
(R173, R202), the error registers of clusters (R344), and what lies above the cores (R202, R343). -/
def StepKey (k : Nat) : Prop :=
  MxKey k ∨ (0x8310000 ≤ k ∧ k < 0x8311000) ∨ (0x8320000 ≤ k ∧ k < 0x8321000 ∧ 0x38 ≤ k % 0x100) ∨
  (0x10000000 ≤ k ∧ k < 0x11000000 ∧ 0x2000 ≤ k % 0x100000 ∧ k % 0x100000 < 0x3000) ∨ 0x20600000 ≤ k

theorem stepKey_mx (h : MxKey k) : StepKey k := .inl h
theorem stepKey_upd (hctx : ctx < 16) (ho : 0x38 ≤ o ∧ o < 0x100) : StepKey (updK ctx o) := by
  unfold StepKey updK; omega
theorem stepKey_pipe (hctx : ctx < 16) (ho : o < 0x100) : StepKey (pipeK ctx o) := by
  unfold StepKey pipeK; omega

theorem not_stepKey_sem (h : isSemKey k) : ¬StepKey k := by
  refine fun hk => hk.elim (not_mxKey_sem h) fun rest => ?_
  obtain ⟨c, i, rfl⟩ | ⟨g, i, rfl⟩ | ⟨d, i, rfl⟩ := h
  · unfold coreK at rest; omega
  · unfold cluK at rest; omega
  · unfold dieK at rest; omega
theorem not_stepKey_sreg {c : Nat} (q : Queue) (hc : c < 96) (ho : 0x80 ≤ o ∧ o < 0x100) : ¬StepKey (qK c q o) := by
  refine fun hk => hk.elim (not_mxKey_sreg q hc ho) fun rest => ?_
  have : qnum q < 6 := by cases q <;> decide
  unfold qK coreK at rest; omega
theorem not_stepKey_gate {g : Nat} (hg : g < 16) : ¬StepKey (gateK g) := by
  refine fun hk => hk.elim (not_mxKey_gate hg) fun rest => ?_
  unfold gateK dieK at rest; omega
theorem not_stepKey_upd (hctx : ctx < 16) (ho : o < 0x38) : ¬StepKey (updK ctx o) := by
  unfold StepKey MxKey PortKey updK; omega

theorem updK_notMem_reportKeys {ctx' : Nat} (hctx : ctx < 16) (ho : o < 0x100) : updK ctx o ∉ reportKeys ctx' := by
  simp only [reportKeys, List.mem_cons, List.not_mem_nil, or_false]
  unfold updK dieK errK; omega

/-- `t` follows `s` by a part of a step's update: no register outside `StepKey` differs, and the accumulators are as before. -/
structure State.Stepped (s t : State) : Prop where
  regs : ∀ k, ¬StepKey k → t.reg k = s.reg k
  bufs : t.bufs = s.bufs

theorem State.Stepped.refl (s : State) : s.Stepped s := ⟨fun _ _ => rfl, rfl⟩

theorem State.Stepped.trans (h : s.Stepped t) (h' : t.Stepped u) : s.Stepped u :=
  ⟨fun k hk => (h'.regs k hk).trans (h.regs k hk), h'.bufs.trans h.bufs⟩

theorem State.OnlyRegs.stepped {ks : List Nat} (h : s.OnlyRegs t ks) (hk : ∀ k ∈ ks, StepKey k) : s.Stepped t := by
  obtain ⟨-, -, -, bufs⟩ := h.coresKept
  exact ⟨fun k hn => h.2 k fun hm => hn (hk k hm), bufs⟩

theorem State.Served.stepped (h : s.Served t us) : s.Stepped t := ⟨fun k hk => h.regs k fun port => hk (stepKey_mx (.inl port)), h.bufs⟩

theorem State.Reported.stepped (h : s.Reported t ctx []) (hctx : ctx ≤ 0xFF) : s.Stepped t := by
  obtain ⟨-, -, -, bufs⟩ := h.coresKept
  exact ⟨fun k hk => h.2 k fun hm => hk (stepKey_mx (mxKey_reports hctx hm)), bufs⟩

theorem State.Stepped.awake (h : s.Stepped t) (ha : s.Awake) : t.Awake := fun g => by
  rw [State.gate, State.regFld, h.regs _ (not_stepKey_gate g.isLt)]
  exact ha g

theorem State.Stepped.scalarsKept (h : s.Stepped t) : s.ScalarsKept t := fun c q i =>
  h.regs _ (not_stepKey_sreg q c.isLt (by omega))

theorem State.Stepped.semsBut (h : s.Stepped t) (ks : List Nat) : s.SemsBut t ks := fun k hk _ => h.regs k (not_stepKey_sem hk)

theorem State.Stepped.groupAddr (h : s.Stepped t) (hctx : ctx < 16) (i : Nat) : t.groupAddr ctx i = s.groupAddr ctx i := by
  rw [State.groupAddr, State.regFld, h.regs _ (not_stepKey_upd hctx (by decide))]; rfl

end StepKeys

section Opening

variable {s : State} {ctx a i pa : Nat} {n : BitVec 32}

/-- A later UPD of a step leaves the entry as it is (R185). -/
theorem State.openGroup_open (h : (s.groupAt ctx i).wstep = n) : s.openGroup ctx (s.groupAddr ctx i) n = s := by
  refine if_pos ?_
  rw [← h, State.groupAt_wstep, BitVec.toNat_ofNat]
  exact (Nat.mod_eq_of_lt (fld_lt _ _ _)).symm

/-- Words 12, 13 and 14 of an entry, in the order in which the first UPD of a step writes them (R185). -/
def State.openUnits (s : State) (ctx a : Nat) : List Nat :=
  s.wordUnits ctx (a + 96) ++ s.wordUnits ctx (a + 104) ++ s.wordUnits ctx (a + 112)

theorem State.openGroup_stored (hctx : ctx < 16) (align : a % 128 = 0) : s.Stored (s.openGroup ctx a n) ctx (s.openUnits ctx a) := by
  unfold State.openGroup
  split
  · exact .refl s ctx _
  · exact (((State.Stored.refl s ctx (s.openUnits ctx a)).setGroupWord (i := 12) hctx align fun x hx =>
        List.mem_append_left _ (List.mem_append_left _ hx)).setGroupWord (i := 13) hctx align fun x hx =>
      List.mem_append_left _ (List.mem_append_right _ hx)).setGroupWord (i := 14) hctx align fun x hx => List.mem_append_right _ hx

/-- The first UPD of a step leaves WFB 0, WSTEP at the step and WCOUNT 0 where the entry takes writes (R185). -/
theorem State.EntryTakes.openGroup (h : s.EntryTakes ctx a pa) (hctx : ctx < 16) (fresh : fld (s.groupWord ctx a 13) 32 32 ≠ n.toNat) :
    bitAt ((s.openGroup ctx a n).groupWord ctx a 12) 61 = false ∧
      fld ((s.openGroup ctx a n).groupWord ctx a 13) 32 32 = n.toNat ∧ fld ((s.openGroup ctx a n).groupWord ctx a 14) 0 40 = 0 := by
  rw [State.openGroup, if_neg fresh]
  extract_lets x y
  have hx : x.EntryTakes ctx a pa := h.setGroupWord hctx _ _
  have hy : y.EntryTakes ctx a pa := hx.setGroupWord hctx _ _
  have w12 : y.groupWord ctx a 12 = putBit (s.groupWord ctx a 12) 61 false := by
    rw [hx.groupWord_setGroupWord hctx (by decide) (by decide), if_neg (by decide),
      h.groupWord_setGroupWord hctx (by decide) (by decide), if_pos rfl]
  have w13 : y.groupWord ctx a 13 = putFld (x.groupWord ctx a 13) 32 32 n.toNat := by
    rw [hx.groupWord_setGroupWord hctx (by decide) (by decide), if_pos rfl]
  refine ⟨?_, ?_, ?_⟩
  · rw [hy.groupWord_setGroupWord hctx (by decide) (by decide), if_neg (by decide), w12]
    exact bitAt_putBit_self _ _ _ (by decide)
  · rw [hy.groupWord_setGroupWord hctx (by decide) (by decide), if_neg (by decide), w13, fld_putFld_self _ _ _ _ (by decide)]
    exact Nat.mod_eq_of_lt n.isLt
  · rw [hy.groupWord_setGroupWord hctx (by decide) (by decide), if_pos rfl]
    exact fld_putFld_self _ _ _ _ (by decide)

/-- So the group reads at the step, without elements and without its fallback (R185, R186). -/
theorem State.openGroup_groupAt (takes : s.GroupTakes ctx i pa) (hctx : ctx < 16) (fresh : (s.groupAt ctx i).wstep ≠ n) :
    ((s.openGroup ctx (s.groupAddr ctx i) n).groupAt ctx i).wstep = n ∧
      ((s.openGroup ctx (s.groupAddr ctx i) n).groupAt ctx i).wcount = 0 ∧
      ((s.openGroup ctx (s.groupAddr ctx i) n).groupAt ctx i).wfb = false := by
  have other : fld (s.groupWord ctx (s.groupAddr ctx i) 13) 32 32 ≠ n.toNat := fun e => fresh (by
    rw [State.groupAt_wstep, e, BitVec.ofNat_toNat, BitVec.setWidth_eq])
  obtain ⟨wfb, wstep, wcount⟩ := takes.entry.openGroup hctx other
  have stored := State.openGroup_stored (s := s) (n := n) hctx (State.groupAddr_mod (s := s) (ctx := ctx) (i := i))
  rw [State.groupAt_wstep, State.groupAt_wcount, State.groupAt_wfb, stored.toServed.groupAddr hctx, wfb, wstep, wcount, BitVec.ofNat_toNat,
    BitVec.setWidth_eq]
  exact ⟨rfl, rfl, rfl⟩

end Opening

section UpdIssue

variable {s u e : State} {c : Fin 96} {q : Queue} {w : InstrWord} {o : Op} {work : Work} {n : BitVec 32} {i : Issued}
  {ctx : Nat} {ks : List Nat}

/-- The cases of a UPD that issues (R183, R185, R196). -/
theorem State.updIssue_frozen (froz : (u.updGroup c q w).froz = true) :
    u.updIssue c q w = { st := u.count (updK (u.ctxOf c) 0x40) 1, step := (u.updDesc c q w).step } := if_pos froz

theorem State.updIssue_empty (runs : (u.updGroup c q w).froz = false) (none : (u.updDesc c q w).count = 0) :
    u.updIssue c q w = { st := u, step := (u.updDesc c q w).step } :=
  (if_neg (ne_true_of_eq_false runs)).trans (if_pos none)

theorem State.updIssue_runs (runs : (u.updGroup c q w).froz = false) (some : (u.updDesc c q w).count ≠ 0) (ha : u.Awake) :
    u.updIssue c q w =
      { st := u.openGroup (u.ctxOf c) (u.groupAddr (u.ctxOf c) (u.updDesc c q w).group) (u.updDesc c q w).step,
        work := .upd (u.updJob c q w), step := (u.updDesc c q w).step } := by
  refine (if_neg (ne_true_of_eq_false runs)).trans ((if_neg some).trans ?_)
  rw [ha.wakeAll]
  rfl

/-- A UPD of the next step that no check refuses issues (R184, R469). -/
theorem State.updVerdict_issue (ha : u.Awake) (next : (u.updDesc c q w).step = BitVec.ofNat 32 (u.cstep (u.ctxOf c)) + 1)
    (late : u.updPlace (u.ctxOf c) (u.updGroup c q w) (u.updDesc c q w) = none) :
    State.updVerdict c q w u = .issue ((u.updIssue c q w).read (u.ctxOf c) (u.updTables c q w)) := by
  have ordered : ¬((u.updDesc c q w).step = BitVec.ofNat 32 (u.cstep (u.ctxOf c)) + 2 &&
      u.committing (u.ctxOf c) (BitVec.ofNat 32 (u.cstep (u.ctxOf c)) + 1)) = true := by
    rw [next]
    simp
  refine (if_neg ordered).trans ((if_neg (not_not.mpr next)).trans ?_)
  rw [State.updLate, late]
  exact ha.reading _

theorem exec_upd_issue (hr : s.ready c q .upd w) (early : State.updEarly c q w s = none)
    (verdict : State.updVerdict c q w (s.takeWait c q w) = .issue i) : exec (.upd c q w) s = .next (s.issued c q .upd w i) := by
  show execUpd c q w s = _
  rw [execUpd, State.runHead_ready_early s _ _ hr early, verdict]
  rfl

/-- An issue whose effects are part of a step's update leaves the scalar registers alone, and every semaphore but the one waited on. -/
theorem State.Stepped.issued (h : (s.takeWait c q w).Stepped i.st) :
    (s.issued c q o w i).bufs = s.bufs ∧ s.ScalarsKept (s.issued c q o w i) ∧ s.SemsBut (s.issued c q o w i) (s.waitKeys c w) := by
  refine ⟨h.bufs.trans State.takeWait_bufs, fun c' q' j => ?_, fun k hk hn => ?_⟩
  · exact (h.scalarsKept c' q' j).trans (State.takeWait_sreg q' c.isLt c'.isLt j.isLt)
  · exact (h.regs k (not_stepKey_sem hk)).trans ((s.takeWait_only c q w).2 k hn)

theorem State.issued_reg (k : Nat) : (s.issued c q o w i).reg k = i.st.reg k := rfl
theorem State.issued_groupAt {k : Nat} : (s.issued c q o w i).groupAt ctx k = i.st.groupAt ctx k := by
  have unit : ∀ a, (s.issued c q o w i).unitAt ctx a = i.st.unitAt ctx a := fun _ => rfl
  have addr : (s.issued c q o w i).groupAddr ctx k = i.st.groupAddr ctx k := rfl
  simp only [State.groupAt, State.groupBits, State.groupRead_data, unit, addr]

/-- `t` follows `s` by the issue of a UPD at the head of queue `q` as the entry `f`, which left `e` before its readings of tables were
logged: `t` has the memory and the groups of `e`, and the registers of `e` but for the count of reports (R183). -/
structure State.UpdIssued (s e t : State) (c : Nat) (q : Queue) (w : InstrWord) (f : InFlight) (ctx : Nat) (ks : List Nat) : Prop where
  issued : s.IssuedTo t c q w f (ks ++ reportKeys ctx)
  bufs : t.bufs = s.bufs
  scalars : s.ScalarsKept t
  sems : s.SemsBut t (s.waitKeys c w)
  regs : e.RegsBut t (reportKeys ctx)
  mem : t.mem = e.mem
  group : ∀ i, t.groupAt ctx i = e.groupAt ctx i

/-- What a UPD leaves whose effects at issue are `e` (R183, R228). -/
theorem exec_upd_issued (hr : s.ready c q .upd w) (ha : s.Awake) (early : State.updEarly c q w s = none)
    (next : ((s.takeWait c q w).updDesc c q w).step = BitVec.ofNat 32 ((s.takeWait c q w).cstep ((s.takeWait c q w).ctxOf c)) + 1)
    (late : (s.takeWait c q w).updPlace ((s.takeWait c q w).ctxOf c) ((s.takeWait c q w).updGroup c q w)
      ((s.takeWait c q w).updDesc c q w) = none)
    (effects : (s.takeWait c q w).updIssue c q w = { st := e, work := work, step := n }) (h : (s.takeWait c q w).Stepped e)
    (queues : e.queues = s.queues) (keys : (s.takeWait c q w).RegsBut e (ks ++ reportKeys ((s.takeWait c q w).ctxOf c))) :
    ∃ t, exec (.upd c q w) s = .next t ∧
      s.UpdIssued e t c q w { s.headEntry c q .upd w with work := work, events := [], step := n } ((s.takeWait c q w).ctxOf c) ks := by
  have awake := ha.takeWait (c := c) (q := q) (w := w) c.isLt
  have hctx := (s.takeWait c q w).ctxOf_lt c
  have run := exec_upd_issue hr early (State.updVerdict_issue awake next late)
  rw [effects] at run
  generalize (s.takeWait c q w).ctxOf c = ctx at *
  have read : e.Reported (e.touchedAll ctx ((s.takeWait c q w).updTables c q w)) ctx [] := (h.awake awake).touchedAt_reported _
  obtain ⟨mem, -, same, -⟩ := read.coresKept
  have stepped := read.stepped (by omega)
  rw [Issued.read] at run
  generalize e.touchedAll ctx _ = v at *
  obtain ⟨bufs, scalars, sems⟩ := (h.trans stepped).issued (o := .upd) (i := { st := v, work := work, step := n })
  refine ⟨_, run, State.issued_issuedTo (same.trans queues) fun k hk => ?_, bufs, scalars, sems,
    fun k hk => (State.issued_reg k).trans (read.2 k hk), State.issued_mem.trans mem, fun i => ?_⟩
  · exact (read.2 k fun hm => hk (List.mem_append_right _ hm)).trans (keys k hk)
  · rw [State.issued_groupAt]
    exact (read.sameTables hctx).groupAt (stepped.groupAddr hctx i)

end UpdIssue

/-- Settles O20: a UPD that issues counts, does nothing, or opens its group, and its readings of tables leave no trace but in the count of
reports. -/
theorem updateIssues : Obligations.UpdateIssues := by
  intro c q w s hr ha early u x ctx d g a next late
  have hctx : ctx < 16 := u.ctxOf_lt c
  have queues : u.queues = s.queues := (s.takeWait_only c q w).queues
  have mem : u.mem = s.mem := s.takeWait_mem c q w
  cases froz : g.froz with
  | true =>
    have counts : u.OnlyRegs (u.count (updK ctx 0x40) 1) [updK ctx 0x40] := u.count_only _ _
    obtain ⟨t, run, ⟨queue, others, keys⟩, bufs, scalars, sems, regs, mem', -⟩ := exec_upd_issued (ks := [updK ctx 0x40]) hr ha early next
      late (State.updIssue_frozen froz) (counts.stepped (by simpa using stepKey_upd hctx (by decide))) (counts.queues.trans queues)
      fun k hk => counts.2 k fun hm => hk (List.mem_append_left _ hm)
    refine ⟨t, _, run, queue, others, rfl, rfl, rfl, bufs, scalars, sems, fun _ => ⟨rfl, ?_, ?_, keys⟩, nofun, nofun⟩
    · rw [mem', counts.mem, mem]
    · rw [regs _ (updK_notMem_reportKeys hctx (by decide)), State.reg_count, if_pos rfl,
        State.takeWait_reg c.isLt (not_homeKey_upd hctx (by decide))]
      rfl
  | false =>
    by_cases empty : d.count = 0
    · obtain ⟨t, run, ⟨queue, others, keys⟩, bufs, scalars, sems, -, mem', -⟩ := exec_upd_issued (ks := []) hr ha early next late
        (State.updIssue_empty froz empty) (.refl u) queues fun _ _ => rfl
      exact ⟨t, _, run, queue, others, rfl, rfl, rfl, bufs, scalars, sems, nofun, fun _ _ => ⟨rfl, mem'.trans mem, keys⟩,
        fun _ some => absurd empty some⟩
    · have stored : u.Stored (u.openGroup ctx a d.step) ctx (u.openUnits ctx a) := State.openGroup_stored hctx State.groupAddr_mod
      obtain ⟨t, run, ⟨queue, others, keys⟩, bufs, scalars, sems, -, mem', group⟩ := exec_upd_issued (ks := storeKeys) hr ha early next late
        (State.updIssue_runs froz empty (ha.takeWait c.isLt)) stored.toServed.stepped (stored.toServed.queues.trans queues) stored.keys
      refine ⟨t, _, run, queue, others, rfl, rfl, rfl, bufs, scalars, sems, nofun, fun _ none => absurd none empty, fun _ _ =>
        ⟨rfl, keys, fun y hy => ?_, fun later => ?_, fun pa fresh takes => ?_⟩⟩
      · rw [mem', stored.toServed.units y hy, mem]
      · rw [mem', State.openGroup_open later, mem]
      · rw [group]
        exact State.openGroup_groupAt takes hctx fresh

end Sys2Proof.Machine

/-! SUPPORT. UPD_COMPLETE: the count of its elements in word 14 of its group's entry, and where that word's bytes lead (R32, R185, R186). -/

namespace Sys2Proof.Machine

section Completion

variable {s t : State} {ctx k n : Nat} {j : UpdJob}

/-- Registers that decide neither where addresses lead nor whether memory answers: all but the bindings and the first five of a stack. -/
def CountKey (k : Nat) : Prop := 0x200000 ≤ k ∧ (k < 0x30000000 ∨ 0x28 ≤ k % 0x100000)

theorem State.count_sameTables (hctx : ctx < 16) (hk : CountKey k) (n : Nat) : s.SameTables (s.count k n) ctx := by
  unfold CountKey at hk
  refine (s.count_only k n).sameTables (fun o ho => ?_) fun st o ho => ?_
  · rw [List.mem_singleton]; unfold bindK; omega
  · rw [List.mem_singleton]; unfold stkK; omega

theorem State.draw_sameTables : s.SameTables s.draw ctx := ⟨⟨fun _ => rfl, fun _ => rfl, fun _ => rfl⟩, rfl⟩

theorem State.poisoned_sameTables {b : Nat} (hctx : ctx < 16) (hb : b < 16) : s.SameTables (s.poisoned b) ctx :=
  ⟨(State.poisoned_served (us := []) hb).samePlaces hctx, (State.poisoned_mxKeeps (c := 0) (q := .mqf) (i := 0) hb).mem⟩

/-- The counters of a run decide nothing about tables (R202, R203). -/
theorem State.updCount_sameTables (hctx : j.ctx < 16) (st nf skips poisoned : Nat) :
    s.SameTables (s.updCount j st nf skips poisoned) j.ctx := by
  have upd : ∀ o, o < 0x100 → CountKey (updK j.ctx o) := fun o ho => by unfold CountKey updK; omega
  have stk : ∀ o, 0x28 ≤ o ∧ o < 0x10000 → CountKey (stkK st o) := fun o ho => by unfold CountKey stkK; omega
  unfold State.updCount
  extract_lets d a b e f
  have counts : s.SameTables b j.ctx :=
    ((((State.count_sameTables hctx (upd _ (by decide)) _).trans (State.count_sameTables hctx (upd _ (by decide)) _)).trans
      (State.count_sameTables hctx (upd _ (by decide)) _)).trans (State.count_sameTables hctx (stk _ (by decide)) _)).trans
      (State.count_sameTables hctx (stk _ (by decide)) _)
  have all : s.SameTables f j.ctx :=
    ((counts.trans (State.count_sameTables hctx (stk _ (by decide)) _)).trans State.draw_sameTables).trans
      (State.count_sameTables hctx (stk _ (by decide)) _)
  split
  · exact all
  · exact all.trans (State.poisoned_sameTables hctx hctx)

/-- `s` after the units of a base die have read and written the elements of a UPD (R183 to R196). -/
def State.updLanded (s : State) (c : Nat) (pc : BitVec 14) (optag : W16) (j : UpdJob) : State :=
  ((s.tookErrs c .upq pc optag j.ctx (s.updErrs j (s.updElems j))).landAll j.ctx none
    (groupWrites (updWrites j (s.updRun j (s.updElems j))))).1

/-- `s` with `n` elements more in WCOUNT of the entry at a local address (R185). -/
def State.countElems (s : State) (ctx addr n : Nat) : State :=
  s.setGroupWord ctx addr 14 (putFld (s.groupWord ctx addr 14) 0 40 (fld (s.groupWord ctx addr 14) 0 40 + n))

theorem State.SameTables.countElems (h : s.SameTables t ctx) (hctx : ctx < 16) (addr n : Nat) :
    (s.countElems ctx addr n).SameTables (t.countElems ctx addr n) ctx := by
  rw [State.countElems, State.countElems, h.groupWord]
  exact h.setGroupWord hctx _

/-- A run without a fallback leaves memory as its elements' writes and the count of them leave it (R185). -/
theorem State.updEnd_sameTables (hctx : j.ctx < 16) {c st : Nat} {pc : BitVec 14} {optag : W16}
    (calm : (s.updRun j (s.updElems j)).wfb = false) :
    ((s.updLanded c pc optag j).countElems j.ctx j.gaddr (updDescOf j.desc).count).SameTables (s.updEnd c st pc optag j).1 j.ctx := by
  have counted := (State.updCount_sameTables (s := s.updLanded c pc optag j) hctx st (badGrads j (s.updElems j))
    (s.updRun j (s.updElems j)).skips
    ((groupWrites (updWrites j (s.updRun j (s.updElems j)))).filter (·.poison)).length).trans
    (State.touchedAt_sameTables hctx (unitsOf (j.gaddr + 96) 32))
  have run := counted.countElems hctx j.gaddr (updDescOf j.desc).count
  simp only [State.updEnd, calm, Bool.false_eq_true, if_false]
  exact run

/-- UPD_COMPLETE, where its stack runs it (R183, R325, R337, R400). -/
theorem exec_updComplete {c : Fin 96} {n st : Nat} {f : InFlight} (flight : (s.queue c .upq).inflight[n]? = some f)
    (work : f.work = .upd j) (ha : s.Awake) (stack : s.updStack j.ctx (groupOf j.entry) (updDescOf j.desc) = some st)
    (online : s.regBit (stkK st 0) 0 = false) (linked : s.regBit (stkK st 8) 1 = false) (enabled : s.isDisabled (0x9000 + st) = false) :
    exec (.updComplete c n) s = .next ((s.updEnd c st f.pc f.optag j).1.mapFlight c .upq f.id fun g =>
      { g with work := .done, events := g.events ++ (s.updEnd c st f.pc f.optag j).2 }) := by
  show execUpdComplete c n s = _
  simp only [execUpdComplete, flight, work, stack, online, linked, enabled, Bool.or_self, Bool.false_eq_true, if_false, ha.unlessGated]

end Completion

section Across

/-- A UPD of one element of context 1, whose group's entry stands so that word 14 begins four bytes before the end of granule 0. -/
def acrossJob : UpdJob :=
  { ctx := 1, gaddr := 0x40000000 - 116, desc := BitVec.ofNat 512 (2 ^ 24 * 2 ^ 192), entry := 0, lr := 0, wd := 0, curveBad := false,
    gmul := 0, gmulBad := false, gmulErr := 0 }

def acrossFlight : InFlight :=
  { id := 0, op := .upd, pc := 0, optag := 0, sinc := 0, home := 0, work := .upd acrossJob, events := [], error := none, errAt := 0,
    post := none, hold := .none, step := 1 }

/-- That UPD in flight: context 1 holds granule 0 as its first and granule 9 as its second, and the low half of word 14 is all ones. -/
def acrossState : State :=
  { ((State.reset.setReg (bindK 1 0x800) 0x8000000000000000).setReg (bindK 1 0x808) 0x8000000000000009).setQueue 0 .upq
      { inflight := [acrossFlight] } with
    mem := memWrite [] (0x40000000 - 4) (leBytes 4 0xFFFFFFFF) }

/-- The first byte of granule 9, where byte 4 of word 14 lies. -/
def acrossByte : Nat := 9 * 0x40000000

theorem acrossState_flight : (acrossState.queue (0 : Fin 96) .upq).inflight[0]? = some acrossFlight := by decide +kernel

/-- No cluster is gated, and the UPD's stack is there and runs it. -/
theorem acrossState_runs :
    acrossState.Awake ∧ acrossState.updStack acrossJob.ctx (groupOf acrossJob.entry) (updDescOf acrossJob.desc) = some 0 ∧
      acrossState.regBit (stkK 0 0) 0 = false ∧ acrossState.regBit (stkK 0 8) 1 = false ∧
      acrossState.isDisabled (0x9000 + 0) = false := by
  unfold State.Awake; decide +kernel

theorem acrossState_calm : (acrossState.updRun acrossJob (acrossState.updElems acrossJob)).wfb = false := by decide +kernel

/-- The count's carry lands in granule 9 … -/
theorem acrossByte_changes :
    memByte ((acrossState.updLanded (0 : Fin 96) acrossFlight.pc acrossFlight.optag acrossJob).countElems acrossJob.ctx acrossJob.gaddr
      (updDescOf acrossJob.desc).count).mem acrossByte ≠ memByte acrossState.mem acrossByte := by
  decide +kernel

/-- … and no unit of the statement lies there. -/
theorem acrossByte_outside :
    acrossByte / 64 * 64 ∉ acrossState.unitsLanded acrossJob.ctx
        (groupWrites (updWrites acrossJob (acrossState.updRun acrossJob (acrossState.updElems acrossJob)))) ++
      acrossState.wordUnits acrossJob.ctx (acrossJob.gaddr + 96) ++ acrossState.wordUnits acrossJob.ctx (acrossJob.gaddr + 112) := by
  decide +kernel

end Across

/-- Refutes O21: the statement takes any entry address of the UPD in flight. Where word 14 of the entry lies across two granules that the
context has bound apart, each part is translated on its own (R32): the carry of the count changes a byte of the second granule, which is
none of the units named. -/
theorem not_updateCompletes : ¬Obligations.UpdateCompletes := by
  intro h
  obtain ⟨awake, stack, online, linked, enabled⟩ := acrossState_runs
  obtain ⟨-, t, ev, run, -, -, -, -, -, units, -⟩ := h 0 0 0 acrossState acrossFlight acrossJob acrossState_flight rfl (by decide) awake
    stack online linked enabled
  rw [exec_updComplete acrossState_flight rfl awake stack online linked enabled, Host.Outcome.next.injEq] at run
  have bytes := units acrossByte acrossByte_outside
  rw [← run, State.mapFlight, State.setQueue_mem, (State.updEnd_sameTables (by decide) acrossState_calm).mem] at bytes
  exact acrossByte_changes bytes

end Sys2Proof.Machine

/-! SUPPORT. COMMIT_FLIP: which groups a commit flips, and what it leaves where it fails, waits, flips them, or stops at a failed write
(R173, R195, R197, R198, R332). -/

namespace Sys2Proof.Machine

section GroupList

variable {s : State} {ctx base i j x : Nat} {n : BitVec 32}

theorem nodup_eraseDups (l : List Nat) : l.eraseDups.Nodup := by
  match l with
  | [] => exact List.nodup_nil
  | a :: as =>
    rw [List.eraseDups_cons, List.nodup_cons, List.mem_eraseDups]
    exact ⟨by simp, nodup_eraseDups _⟩
termination_by l.length
decreasing_by exact Nat.lt_succ_of_le (List.length_filter_le _ _)

/-- A group of a piece of the table lies in that piece (R186). -/
theorem State.mem_pieceGroups (align : base % 128 = 0) (hx : x ∈ s.pieceGroups ctx base i) :
    (base + 128 * x) / 0x10000 = base / 0x10000 + i := by
  simp only [State.pieceGroups] at hx
  split at hx
  · cases hx
  · split at hx
    · next low pa place =>
      rw [List.mem_eraseDups] at hx
      obtain ⟨p, hp, rfl⟩ := List.mem_map.mp hx
      have range := (List.mem_filter.mp hp).2
      simp only [Bool.and_eq_true, decide_eq_true_eq] at range
      simp only [pieceOf] at *
      omega
    · cases hx

theorem State.pieceGroups_nodup : (s.pieceGroups ctx base i).Nodup := by
  simp only [State.pieceGroups]
  split
  · exact List.nodup_nil
  · split
    · exact nodup_eraseDups _
    · exact List.nodup_nil

/-- The pieces of a table share no group. -/
theorem State.pieceGroups_disjoint (align : base % 128 = 0) (hij : i < j) :
    List.Disjoint (s.pieceGroups ctx base i) (s.pieceGroups ctx base j) := fun x hi hj => by
  have low := State.mem_pieceGroups align hi
  have high := State.mem_pieceGroups align hj
  omega

theorem State.groupsAt_nodup : (s.groupsAt ctx n).Nodup := by
  by_cases zero : n = 0
  · rw [State.groupsAt, if_pos zero]
    exact List.nodup_range
  · rw [State.groupsAt, if_neg zero]
    refine List.nodup_flatten.mpr ⟨fun l hl => ?_, List.pairwise_map.mpr (List.pairwise_lt_range.imp fun hij =>
      State.pieceGroups_disjoint State.groupAddr_mod hij)⟩
    obtain ⟨i, -, rfl⟩ := List.mem_map.mp hl
    exact State.pieceGroups_nodup

/-- A commit names no group twice (R197). -/
theorem State.flips_nodup : (s.flips ctx n).Nodup := State.groupsAt_nodup.filter _

end GroupList

section Ends

variable {s t u : State} {ctx i k g : Nat} {n : BitVec 32} {err join : Option W16} {events : List W16} {gs : List Nat}
  {p : Nat × Queue × InFlight}

/-- `t` follows `s` by changes of queues alone. -/
structure State.QueuesOnly (s t : State) : Prop where
  mem : t.mem = s.mem
  bufs : t.bufs = s.bufs
  regs : ∀ k, t.reg k = s.reg k
  groups : ∀ ctx i, t.groupAt ctx i = s.groupAt ctx i

theorem State.queuesOnly (qs : Tbl QState) : s.QueuesOnly { s with queues := qs } := by
  refine ⟨rfl, rfl, fun _ => rfl, fun ctx i => ?_⟩
  have unit : ∀ a, ({ s with queues := qs } : State).unitAt ctx a = s.unitAt ctx a := fun _ => rfl
  have addr : ({ s with queues := qs } : State).groupAddr ctx i = s.groupAddr ctx i := rfl
  simp only [State.groupAt, State.groupBits, State.groupRead_data, unit, addr]

theorem State.QueuesOnly.trans (h : s.QueuesOnly t) (h' : t.QueuesOnly u) : s.QueuesOnly u :=
  ⟨h'.mem.trans h.mem, h'.bufs.trans h.bufs, fun k => (h'.regs k).trans (h.regs k), fun c i => (h'.groups c i).trans (h.groups c i)⟩

/-- The end of the commits' waits changes queues alone (R197). -/
theorem State.endCommits_queues : s.QueuesOnly (s.endCommits ctx n err events join) := by
  refine List.foldlRecOn _ _ (motive := s.QueuesOnly) (s.queuesOnly s.queues) fun t before p _ => ?_
  exact before.trans (t.queuesOnly _)

theorem bitAt_updErrWord : bitAt (updErrWord g n) 63 = true := by
  rw [updErrWord, bitAt_putFld_ne _ _ _ _ _ (by decide) (.inr (by decide)), bitAt_putFld_ne _ _ _ _ _ (by decide) (.inr (by decide)),
    bitAt_putFld_ne _ _ _ _ _ (by decide) (.inr (by decide))]
  exact bitAt_putBit_self _ _ _ (by decide)

/-- UPD_ERR records the first commit that does not finish (R202). -/
theorem State.first_updErr (h : s.regBit k 63 = false) : (s.first k (updErrWord g n)).reg k = updErrWord g n := by
  rw [State.reg_first, if_pos ⟨rfl, h⟩]
  exact putBit_of_bitAt (by decide) bitAt_updErrWord

@[simp] theorem updK_inj {ctx' o o' : Nat} (ho : o < 0x100) (ho' : o' < 0x100) : updK ctx o = updK ctx' o' ↔ ctx = ctx' ∧ o = o' := by
  unfold updK; omega

/-- A commit that fails records its group and leaves memory and the committed step alone (R197, R403). -/
theorem State.commitFails_fails : (s.commitFails ctx g n).mem = s.mem ∧ (s.commitFails ctx g n).bufs = s.bufs ∧
    (s.commitFails ctx g n).cstep ctx = s.cstep ctx ∧ s.RegsBut (s.commitFails ctx g n) [updK ctx 0x18] ∧
    (s.regBit (updK ctx 0x18) 63 = false → (s.commitFails ctx g n).reg (updK ctx 0x18) = updErrWord g n) := by
  have noted := s.first_only (updK ctx 0x18) (updErrWord g n)
  obtain ⟨mem, -, -, bufs⟩ := noted.coresKept
  have ends : (s.first (updK ctx 0x18) (updErrWord g n)).QueuesOnly (s.commitFails ctx g n) := State.endCommits_queues
  have keys : s.RegsBut (s.commitFails ctx g n) [updK ctx 0x18] := fun k hk => (ends.regs k).trans (noted.2 k hk)
  exact ⟨ends.mem.trans mem, ends.bufs.trans bufs, congrArg (fld · 32 32) (keys _ (by simp)), keys, fun free =>
    (ends.regs _).trans (State.first_updErr free)⟩

/-- STALLING of each snapshot as the commit finds it (R173). -/
theorem State.stalling_only : s.OnlyRegs (s.stalling ctx n gs) ((List.range 4).map (snapK ctx)) :=
  List.foldlRecOn _ _ (motive := fun t => s.OnlyRegs t ((List.range 4).map (snapK ctx))) (.refl s _) fun _ before i hi =>
    (before.trans (State.setBit_only _ _ _ _)).mono fun _ hk =>
      (List.mem_append.mp hk).elim id fun hk => List.mem_singleton.mp hk ▸ List.mem_map.mpr ⟨i, hi, rfl⟩

theorem State.regBit_foldl_setBit (f : Nat → Bool) (k : Nat) (hi : i < k) :
    ((List.range k).foldl (fun t i => t.setBit (snapK ctx i) 62 (f i)) s).regBit (snapK ctx i) 62 = f i := by
  induction k with
  | zero => omega
  | succ k ih =>
    rw [List.range_succ, List.foldl_append, List.foldl_cons, List.foldl_nil]
    by_cases last : i = k
    · rw [last, State.regBit_setBit_self _ _ _ _ (by decide)]
    · rw [State.regBit_setBit_ne _ _ _ _ _ _ (by decide) (.inl (by unfold snapK pipeK; omega))]
      exact ih (by omega)

theorem State.stalling_bit (hi : i < 4) : (s.stalling ctx n gs).regBit (snapK ctx i) 62 = s.holds ctx n gs i :=
  State.regBit_foldl_setBit _ _ hi

/-- A commit that begins to wait for a snapshot counts (R173). -/
theorem State.snapWait_counts :
    (s.snapWait ctx p).mem = s.mem ∧ (s.snapWait ctx p).bufs = s.bufs ∧ s.RegsBut (s.snapWait ctx p) [pipeK ctx 0x30] := by
  unfold State.snapWait
  split
  · have only := s.count_only (pipeK ctx 0x30) 1
    obtain ⟨mem, -, -, bufs⟩ := only.coresKept
    refine ⟨(State.setQueue_mem _ _ _ _).trans mem, (State.setQueue_bufs _ _ _ _).trans bufs, fun k hk => ?_⟩
    exact (State.setQueue_acc_reg _ _ _ _ _).trans (only.2 k hk)
  · exact ⟨rfl, rfl, fun _ _ => rfl⟩

end Ends

section Entries

variable {s t u : State} {ctx a i k pa x : Nat} {us vs : List Nat}

/-- Both units of an entry lie in one slot (R23, R186). -/
theorem State.localPlace_entry (align : a % 128 = 0) : s.localPlace ctx (a + 64) = (s.localPlace ctx a).plus 64 := by
  have region : regionOf (a + 64) = regionOf a := by
    have stack : a + 64 < stackEnd ↔ a < stackEnd := by unfold stackEnd; omega
    have gal : (galBase ≤ a + 64 ∧ a + 64 < galEnd) ↔ (galBase ≤ a ∧ a < galEnd) := by unfold galBase galEnd; omega
    have cham : (chamBase ≤ a + 64 ∧ a + 64 < chamEnd) ↔ (chamBase ≤ a ∧ a < chamEnd) := by unfold chamBase chamEnd; omega
    have imem : (imemBase ≤ a + 64 ∧ a + 64 < imemEnd ∧ (a + 64) % 0x40000 < 0x30000) ↔
        (imemBase ≤ a ∧ a < imemEnd ∧ a % 0x40000 < 0x30000) := by unfold imemBase imemEnd; omega
    simp only [regionOf, Bool.and_eq_true, decide_eq_true_eq, and_assoc, stack, gal, cham, imem]
  have r0 : (a + 64) / 0x40000000 = a / 0x40000000 ∧ (a + 64) % 0x40000000 = a % 0x40000000 + 64 := by omega
  have r1 : (a + 64 - galBase) / 0x8000000 = (a - galBase) / 0x8000000 ∧ (a + 64) % 0x8000000 = a % 0x8000000 + 64 := by
    unfold galBase; omega
  have r2 : (a + 64 - chamBase) / 0x400000 = (a - chamBase) / 0x400000 ∧ (a + 64) % 0x400000 = a % 0x400000 + 64 := by
    unfold chamBase; omega
  have r3 : (a + 64 - imemBase) / 0x40000 = (a - imemBase) / 0x40000 ∧ (a + 64) % 0x40000 = a % 0x40000 + 64 := by
    unfold imemBase; omega
  simp only [State.localPlace, region, r0, r1, r2, r3]
  split
  · split <;> simp [Place.plus]; omega
  · split <;> simp [Place.plus]; omega
  · split <;> simp [Place.plus, chamPa]; omega
  · split <;> simp [Place.plus, imemPa]; omega
  · rfl

/-- The unit of words 8 to 15 of an entry, from that of one of them (R186). -/
theorem State.localPlace_of_mem_wordUnits (align : a % 128 = 0) (hk : 8 ≤ k ∧ k < 16) (hx : x ∈ s.wordUnits ctx (a + 8 * k)) :
    s.localPlace ctx (a + 64) = .mem x := by
  have word := State.localPlace_plus (s := s) (ctx := ctx) (o := a + 64) (k := 8 * (k - 8)) (by omega) (by omega)
  rw [show a + 64 + 8 * (k - 8) = a + 8 * k by omega] at word
  cases place : s.localPlace ctx (a + 64) with
  | mem pa =>
    have same := (State.localPlace_mem place).1
    rw [place, Place.plus] at word
    simp only [State.wordUnits, word] at hx
    rw [unitsOf_one (by decide) (by omega), List.mem_singleton] at hx
    exact congrArg Place.mem (by omega)
  | _ =>
    rw [place] at word
    simp only [State.wordUnits, word, Place.plus] at hx
    cases hx

/-- `t` follows `s` by flips of groups of context `ctx`: memory differs at most in the units `us`, registers at most in those of `StepKey`,
and addresses lead where they led. -/
structure State.Flips (s t : State) (ctx : Nat) (us : List Nat) : Prop extends s.Stepped t, s.SamePlaces t ctx where
  units : s.UnitsBut t us

theorem State.Flips.refl (s : State) (ctx : Nat) (us : List Nat) : s.Flips s ctx us :=
  ⟨.refl s, ⟨fun _ => rfl, fun _ => rfl, fun _ => rfl⟩, fun _ _ => rfl⟩

theorem State.Flips.trans (h : s.Flips t ctx us) (h' : t.Flips u ctx us) : s.Flips u ctx us :=
  ⟨h.toStepped.trans h'.toStepped, h.toSamePlaces.trans h'.toSamePlaces, fun x hx => (h'.units x hx).trans (h.units x hx)⟩

theorem State.Flips.mono (h : s.Flips t ctx us) (hs : ∀ x ∈ us, x ∈ vs) : s.Flips t ctx vs :=
  ⟨h.toStepped, h.toSamePlaces, fun x hx => h.units x fun hu => hx (hs _ hu)⟩

theorem State.Served.flips (h : s.Served t us) (hctx : ctx < 16) : s.Flips t ctx us := ⟨h.stepped, h.samePlaces hctx, h.units⟩

theorem State.SameTables.flips (h : s.SameTables t ctx) (stepped : s.Stepped t) : s.Flips t ctx us :=
  ⟨stepped, h.toSamePlaces, fun x _ => by rw [h.mem]⟩

theorem State.SamePlaces.wordUnits (h : s.SamePlaces t ctx) (a : Nat) : t.wordUnits ctx a = s.wordUnits ctx a := by
  simp only [State.wordUnits, h.place]

/-- A group whose entry lies in none of the units reads as before. -/
theorem State.Flips.groupAt (h : s.Flips t ctx us) (hctx : ctx < 16) (takes : s.GroupTakes ctx i pa) (own : pa ∉ us)
    (below : pa - 64 ∉ us) : t.groupAt ctx i = s.groupAt ctx i := by
  obtain ⟨align, place, -, -⟩ := takes.entry
  have align_pa := takes.entry.align_pa
  have kept : ∀ q, q % 64 = 0 → q ∉ us → memRead t.mem (q / 64 * 64) 64 = memRead s.mem (q / 64 * 64) 64 := fun q hq hn =>
    h.units.memRead (by omega) (by rwa [show q / 64 * 64 / 64 * 64 = q by omega])
  have high := h.toSamePlaces.unitAt_data (a := s.groupAddr ctx i + 64) fun q hq => by
    rw [place, Place.mem.injEq] at hq
    subst hq
    exact kept pa align_pa own
  have low := h.toSamePlaces.unitAt_data (a := s.groupAddr ctx i) fun q hq => by
    rw [State.localPlace_entry align, hq, Place.plus, Place.mem.injEq] at place
    exact kept q (by omega) (by rwa [show q = pa - 64 by omega])
  simp only [State.groupAt, State.groupBits, State.groupRead_data, h.toStepped.groupAddr hctx, high, low]

theorem State.GroupTakes.flips (h : s.GroupTakes ctx i pa) (hctx : ctx < 16) (ht : s.Flips t ctx us) : t.GroupTakes ctx i pa := by
  obtain ⟨place, dead, window⟩ := h
  refine ⟨?_, (ht.dead pa).trans dead, (ht.window pa).trans window⟩
  rw [ht.toStepped.groupAddr hctx, ht.place]
  exact place

end Entries

section Flip

variable {s t : State} {ctx i j pa x : Nat} {n : BitVec 32} {l gs : List Nat} {failAt : Option Nat}

/-- A value rounded to FP32 is a pattern of 32 bits (R57, R67). -/
theorem f32_lt (x : Num) : f32 x < 2 ^ 32 := by
  unfold f32 Fmt.conv
  split
  · decide
  · next b => cases b <;> decide
  · next m e =>
    have code : (roundInf 24 (-149) 0x7F7FFFFF .rne 0 m.natAbs e).code ≤ 0x7F800000 := by
      unfold roundInf
      simp only [reduceCtorEq, if_false]
      split
      · exact le_rfl
      · dsimp only
        split <;> omega
    simp only [Fmt.roundFin, withSign]
    split <;> omega

/-- Words 15, 13 and 12 of a group as its flip writes them (R195, R197). -/
def State.flipWords (s : State) (ctx : Nat) (n : BitVec 32) (i : Nat) : State :=
  let g := s.groupAt ctx i
  let a := s.groupAddr ctx i
  let s := s.setGroupWord ctx a 15
    (BitVec.ofNat 64 (f32 (mul32 (v32 g.b1p) (v32 g.b1)) * 2 ^ 32 + f32 (mul32 (v32 g.b2p) (v32 g.b2))))
  let s := s.setGroupWord ctx a 13 (putFld (s.groupWord ctx a 13) 0 32 (g.tcount + 1).toNat)
  s.setGroupWord ctx a 12 (putFld (putBit (putBit (s.groupWord ctx a 12) 63 (!g.cur)) 62 (g.fb || g.wfb)) 0 32 n.toNat)

/-- A flip writes the words, and counts a fallback (R195). -/
theorem State.flipGroup_eq : s.flipGroup ctx n i =
    if (s.groupAt ctx i).wfb then (s.flipWords ctx n i).count (updK ctx 0x38) 1 else s.flipWords ctx n i := rfl

/-- The units of the words that a flip writes. -/
def State.flipUnits (s : State) (ctx i : Nat) : List Nat :=
  s.wordUnits ctx (s.groupAddr ctx i + 96) ++ s.wordUnits ctx (s.groupAddr ctx i + 104) ++ s.wordUnits ctx (s.groupAddr ctx i + 120)

theorem State.mem_flipUnits (hx : x ∈ s.flipUnits ctx i) : s.localPlace ctx (s.groupAddr ctx i + 64) = .mem x := by
  have unit : ∀ k, 8 ≤ k ∧ k < 16 → x ∈ s.wordUnits ctx (s.groupAddr ctx i + 8 * k) →
      s.localPlace ctx (s.groupAddr ctx i + 64) = .mem x := fun k hk =>
    State.localPlace_of_mem_wordUnits State.groupAddr_mod hk
  rw [State.flipUnits, List.mem_append, List.mem_append] at hx
  obtain (w12 | w13) | w15 := hx
  · exact unit 12 (by decide) w12
  · exact unit 13 (by decide) w13
  · exact unit 15 (by decide) w15

theorem State.Flips.flipUnits {us : List Nat} (h : s.Flips t ctx us) (hctx : ctx < 16) (i : Nat) :
    t.flipUnits ctx i = s.flipUnits ctx i := by
  simp only [State.flipUnits, h.toStepped.groupAddr hctx, h.toSamePlaces.wordUnits]

theorem State.flipWords_served (hctx : ctx < 16) : s.Served (s.flipWords ctx n i) (s.flipUnits ctx i) := by
  have align := State.groupAddr_mod (s := s) (ctx := ctx) (i := i)
  exact (((State.Stored.refl s ctx (s.flipUnits ctx i)).setGroupWord (i := 15) hctx align fun x hx =>
      List.mem_append_right _ hx).setGroupWord (i := 13) hctx align fun x hx =>
    List.mem_append_left _ (List.mem_append_right _ hx)).setGroupWord (i := 12) hctx align (fun x hx =>
      List.mem_append_left _ (List.mem_append_left _ hx)) |>.toServed

theorem State.count_fallback (hctx : ctx < 16) : s.SameTables (s.count (updK ctx 0x38) 1) ctx ∧ s.Stepped (s.count (updK ctx 0x38) 1) :=
  ⟨State.count_sameTables hctx (by unfold CountKey updK; omega) 1, (s.count_only _ _).stepped (by simpa using stepKey_upd hctx (by decide))⟩

theorem State.flipGroup_flips (hctx : ctx < 16) : s.Flips (s.flipGroup ctx n i) ctx (s.flipUnits ctx i) := by
  have words := (State.flipWords_served (s := s) (n := n) (i := i) hctx).flips hctx
  rw [State.flipGroup_eq]
  split
  · obtain ⟨same, stepped⟩ := State.count_fallback (s := s.flipWords ctx n i) hctx
    exact words.trans (same.flips stepped)
  · exact words

/-- The fields that a flip to step `n` makes of a group's (R195, R197). -/
structure Group.FlippedTo (g h : Group) (n : BitVec 32) : Prop where
  cur : h.cur = !g.cur
  tcount : h.tcount = g.tcount + 1
  fb : h.fb = (g.fb || g.wfb)
  cstep : h.cstep = n
  b1p : h.b1p = f32 (mul32 (v32 g.b1p) (v32 g.b1))
  b2p : h.b2p = f32 (mul32 (v32 g.b2p) (v32 g.b2))

theorem fld_pair {p r : Nat} (hp : p < 2 ^ 32) (hr : r < 2 ^ 32) :
    fld (BitVec.ofNat 64 (p * 2 ^ 32 + r)) 32 32 = p ∧ fld (BitVec.ofNat 64 (p * 2 ^ 32 + r)) 0 32 = r := by
  simp only [fld, BitVec.toNat_ofNat, Nat.shiftRight_eq_div_pow]
  omega

/-- Words 12, 13 and 15 of a flipped group: what they keep of the words before is `w` and `v` (R195, R197). -/
theorem State.flipWords_words (takes : s.GroupTakes ctx i pa) (hctx : ctx < 16) :
    let g := s.groupAt ctx i
    ∃ w v, (s.flipWords ctx n i).groupWord ctx (s.groupAddr ctx i) 12 =
        putFld (putBit (putBit w 63 (!g.cur)) 62 (g.fb || g.wfb)) 0 32 n.toNat ∧
      (s.flipWords ctx n i).groupWord ctx (s.groupAddr ctx i) 13 = putFld v 0 32 (g.tcount + 1).toNat ∧
      (s.flipWords ctx n i).groupWord ctx (s.groupAddr ctx i) 15 =
        BitVec.ofNat 64 (f32 (mul32 (v32 g.b1p) (v32 g.b1)) * 2 ^ 32 + f32 (mul32 (v32 g.b2p) (v32 g.b2))) := by
  have h := takes.entry
  unfold State.flipWords
  extract_lets g a x y
  have hx : x.EntryTakes ctx a pa := h.setGroupWord hctx _ _
  have hy : y.EntryTakes ctx a pa := hx.setGroupWord hctx _ _
  refine ⟨y.groupWord ctx a 12, x.groupWord ctx a 13, ?_, ?_, ?_⟩
  · rw [hy.groupWord_setGroupWord hctx (by decide) (by decide), if_pos rfl]
  · rw [hy.groupWord_setGroupWord hctx (by decide) (by decide), if_neg (by decide),
      hx.groupWord_setGroupWord hctx (by decide) (by decide), if_pos rfl]
  · rw [hy.groupWord_setGroupWord hctx (by decide) (by decide), if_neg (by decide),
      hx.groupWord_setGroupWord hctx (by decide) (by decide), if_neg (by decide),
      h.groupWord_setGroupWord hctx (by decide) (by decide), if_pos rfl]

theorem State.flipWords_groupAt (takes : s.GroupTakes ctx i pa) (hctx : ctx < 16) :
    (s.groupAt ctx i).FlippedTo ((s.flipWords ctx n i).groupAt ctx i) n := by
  have addr := (State.flipWords_served (s := s) (n := n) (i := i) hctx).groupAddr hctx i
  obtain ⟨w, v, w12, w13, w15⟩ := State.flipWords_words (n := n) takes hctx
  obtain ⟨high, low⟩ := fld_pair (f32_lt (mul32 (v32 (s.groupAt ctx i).b1p) (v32 (s.groupAt ctx i).b1)))
    (f32_lt (mul32 (v32 (s.groupAt ctx i).b2p) (v32 (s.groupAt ctx i).b2)))
  constructor
  · rw [State.groupAt_cur, addr, w12, bitAt_putFld_ne _ _ _ _ _ (by decide) (.inr (by decide)),
      bitAt_putBit_ne _ _ _ _ (by decide) (by decide), bitAt_putBit_self _ _ _ (by decide)]
  · rw [State.groupAt_tcount, addr, w13, fld_putFld_self _ _ _ _ (by decide), Nat.mod_eq_of_lt (BitVec.isLt _), BitVec.ofNat_toNat,
      BitVec.setWidth_eq]
  · rw [State.groupAt_fb, addr, w12, bitAt_putFld_ne _ _ _ _ _ (by decide) (.inr (by decide)), bitAt_putBit_self _ _ _ (by decide)]
  · rw [State.groupAt_cstep, addr, w12, fld_putFld_self _ _ _ _ (by decide), Nat.mod_eq_of_lt n.isLt, BitVec.ofNat_toNat,
      BitVec.setWidth_eq]
  · rw [State.groupAt_b1p, addr, w15, high]
  · rw [State.groupAt_b2p, addr, w15, low]

/-- A flip of a group whose entry takes writes (R195, R197). -/
theorem State.flipGroup_groupAt (takes : s.GroupTakes ctx i pa) (hctx : ctx < 16) :
    (s.groupAt ctx i).FlippedTo ((s.flipGroup ctx n i).groupAt ctx i) n := by
  have words := State.flipWords_groupAt (n := n) takes hctx
  rw [State.flipGroup_eq]
  split
  · obtain ⟨same, stepped⟩ := State.count_fallback (s := s.flipWords ctx n i) hctx
    rwa [same.groupAt (stepped.groupAddr hctx i)]
  · exact words

/-- `s` with a list of groups flipped, one after another. -/
def State.flipList (s : State) (ctx : Nat) (n : BitVec 32) (l : List Nat) : State := l.foldl (fun s i => s.flipGroup ctx n i) s

theorem State.flipList_flips (hctx : ctx < 16) : s.Flips (s.flipList ctx n l) ctx (l.flatMap (s.flipUnits ctx)) := by
  refine List.foldlRecOn l _ (motive := fun t => s.Flips t ctx (l.flatMap (s.flipUnits ctx))) (.refl s ctx _) fun t before i hi => ?_
  have group := State.flipGroup_flips (s := t) (n := n) (i := i) hctx
  rw [before.flipUnits hctx] at group
  exact before.trans (group.mono fun x hx => List.mem_flatMap.mpr ⟨i, hi, hx⟩)

/-- Flips of groups whose entries lie elsewhere leave a group as it is. -/
theorem State.flipList_other (takes : s.GroupTakes ctx i pa) (hctx : ctx < 16)
    (apart : ∀ j ∈ l, s.localPlace ctx (s.groupAddr ctx j + 64) ≠ .mem pa ∧ s.localPlace ctx (s.groupAddr ctx j + 64) ≠ .mem (pa - 64)) :
    (s.flipList ctx n l).groupAt ctx i = s.groupAt ctx i := by
  refine (State.flipList_flips hctx).groupAt hctx takes (fun hx => ?_) fun hx => ?_
  · obtain ⟨j, hj, unit⟩ := List.mem_flatMap.mp hx
    exact (apart j hj).1 (State.mem_flipUnits unit)
  · obtain ⟨j, hj, unit⟩ := List.mem_flatMap.mp hx
    exact (apart j hj).2 (State.mem_flipUnits unit)

/-- A group of the list that stands alone is flipped once (R197). -/
theorem State.flipList_groupAt (takes : s.GroupTakes ctx i pa) (hctx : ctx < 16) (alone : s.GroupAlone ctx i pa gs) (hi : i ∈ gs)
    (nodup : gs.Nodup) : (s.groupAt ctx i).FlippedTo ((s.flipList ctx n gs).groupAt ctx i) n := by
  obtain ⟨before, after, rfl⟩ := List.append_of_mem hi
  obtain ⟨-, tail, apart⟩ := List.nodup_append.mp nodup
  have split : s.flipList ctx n (before ++ i :: after) = ((s.flipList ctx n before).flipGroup ctx n i).flipList ctx n after := by
    rw [State.flipList, List.foldl_append]; rfl
  have earlier : s.Flips (s.flipList ctx n before) ctx _ := State.flipList_flips hctx
  have upto := earlier.toSamePlaces.trans (State.flipGroup_flips (n := n) (i := i) hctx).toSamePlaces
  have stepped := earlier.toStepped.trans (State.flipGroup_flips (n := n) (i := i) hctx).toStepped
  have now := takes.flips hctx earlier
  have flipped := State.flipGroup_groupAt (n := n) now hctx
  rw [State.flipList_other takes hctx fun j hj => alone j (by simp [hj]) (apart j hj i (.head after))] at flipped
  rw [split, State.flipList_other (now.flips hctx (State.flipGroup_flips hctx)) hctx fun j hj => ?_]
  · exact flipped
  · rw [stepped.groupAddr hctx, upto.place]
    exact alone j (by simp [hj]) fun same => (List.nodup_cons.mp tail).1 (same ▸ hj)

/-- A flip that meets no failure runs over all its groups (R197). -/
theorem State.flipAll_all (h : ∀ i, failAt = some i → i ∉ l) :
    (s.flipAll ctx n failAt l).1 = s.flipList ctx n l ∧ (s.flipAll ctx n failAt l).2.1 = none := by
  induction l generalizing s with
  | nil => exact ⟨rfl, rfl⟩
  | cons i l ih =>
    rw [State.flipAll, if_neg fun e => h i e (.head l)]
    exact ih fun j hj hm => h j hj (.tail i hm)

/-- A flip stops at the group whose write fails (R198). -/
theorem State.flipAll_stops (hi : i ∈ l) :
    (s.flipAll ctx n (some i) l).1 = (s.flipList ctx n (l.takeWhile (· ≠ i))).flipFails ctx i ∧
      (s.flipAll ctx n (some i) l).2.1 = some i := by
  induction l generalizing s with
  | nil => cases hi
  | cons j l ih =>
    by_cases same : i = j
    · subst same
      rw [State.flipAll, if_pos rfl, List.takeWhile_cons_of_neg (by simp)]
      exact ⟨rfl, rfl⟩
    · rw [State.flipAll, if_neg (by simpa using same), List.takeWhile_cons_of_pos (by simpa using Ne.symm same)]
      exact ih (List.mem_of_ne_of_mem same hi)

end Flip

section Failure

variable {s t u : State} {ctx i k pa addr : Nat} {y code : W16} {scrub : Bool}

/-- `t` follows `s` by a part of a step's update that leaves memory alone. -/
structure State.Noted (s t : State) : Prop extends s.Stepped t where
  mem : t.mem = s.mem

theorem State.Noted.trans (h : s.Noted t) (h' : t.Noted u) : s.Noted u := ⟨h.toStepped.trans h'.toStepped, h'.mem.trans h.mem⟩

theorem State.OnlyRegs.keyNoted {ks : List Nat} (h : s.OnlyRegs t ks) (hk : ∀ k ∈ ks, StepKey k) : s.Noted t := ⟨h.stepped hk, h.mem⟩

theorem State.count_noted {n : Nat} (hk : StepKey k) : s.Noted (s.count k n) := (s.count_only k n).keyNoted (by simpa using hk)

theorem State.first_noted {v : W64} (hk : StepKey k) : s.Noted (s.first k v) := (s.first_only k v).keyNoted (by simpa using hk)

theorem State.report_noted (kind : Nat) (code source : W16) {x : RepInfo} (hx : x.context ≤ 0xFF) : s.Noted (s.report kind code source x) := by
  have told := s.report_reported kind code source x
  obtain ⟨mem, -⟩ := told.coresKept
  exact ⟨told.stepped hx, mem⟩

theorem State.poisoned_noted (hctx : ctx < 16) : s.Noted (s.poisoned ctx) :=
  ⟨(State.poisoned_served (us := []) hctx).stepped, (State.poisoned_mxKeeps (c := 0) (q := .mqf) (i := 0) hctx).mem⟩

/-- A self-test that is triggered queues, or is reported as not run (R397, R398). -/
theorem State.trigger_noted (hd : dieOf y < 2) : s.Noted (s.trigger y code addr) := by
  have told : ∀ (r : State) (v : Nat), r.Noted (r.verdict y v addr) := fun r v => r.report_noted _ _ _ (le_refl 0xFF)
  have kept : ∀ r : State, r.Noted (r.keepVerdict y) := fun r => ⟨⟨fun _ _ => rfl, rfl⟩, rfl⟩
  unfold State.trigger
  dsimp only
  split
  · exact told s 6
  split
  · exact ⟨.refl s, rfl⟩
  split
  · exact (kept s).trans (told _ 5)
  split
  · exact (((s.countSat_only _ _ _ _).keyNoted (by simpa using stepKey_mx (mxKey_tests hd))).trans (kept _)).trans (told _ 4)
  · exact ⟨⟨fun _ _ => rfl, rfl⟩, rfl⟩

theorem srcOf_parts {typ idx : Nat} (ht : typ < 16) (hi : idx < 4096) : srcType (srcOf typ idx) = typ ∧ srcIndex (srcOf typ idx) = idx := by
  simp only [srcType, srcIndex, srcOf, BitVec.toNat_ofNat]
  omega

/-- Memory units implicate units of the two dies (R14, R397). -/
theorem dieOf_memSource (hw : chamBase ≤ pa → windowCore pa < 96) : dieOf (memSource pa) < 2 := by
  unfold memSource
  split
  · next stack =>
    have pch : pchOf pa < 64 := Nat.mod_lt _ (by decide)
    have st : pa / 0x1000000000 < 12 := by unfold stackEnd at stack; omega
    obtain ⟨typ, idx⟩ := srcOf_parts (typ := 8) (idx := pa / 0x1000000000 * 64 + pchOf pa) (by decide) (by omega)
    simp only [dieOf, typ, idx]
    omega
  split
  · next gal =>
    have share : (pa - galBase) / 0x8000000 < 16 := by unfold galEnd at gal; unfold galBase; omega
    obtain ⟨typ, idx⟩ := srcOf_parts (typ := 7) (idx := (pa - galBase) / 0x8000000) (by decide) (by omega)
    simp only [dieOf, typ, idx]
    omega
  split
  · next cham =>
    have core : (pa - chamBase) / 0x400000 < 96 := by unfold chamEnd at cham; unfold chamBase; omega
    obtain ⟨typ, idx⟩ := srcOf_parts (typ := 6) (idx := (pa - chamBase) / 0x400000) (by decide) (by omega)
    simp only [dieOf, typ, idx]
    omega
  · next cham =>
    have core : (pa - imemBase) / 0x40000 < 96 := by
      have := hw (by unfold chamEnd at cham; unfold chamBase; omega)
      unfold windowCore at this
      split at this
      · unfold imemBase at *; omega
      · exact this
    obtain ⟨typ, idx⟩ := srcOf_parts (typ := 6) (idx := (pa - imemBase) / 0x40000) (by decide) (by omega)
    simp only [dieOf, typ, idx]
    omega

theorem State.ctxOfPa_lt : s.ctxOfPa pa < 16 := by
  have bound : ∀ lo hi len x, ((s.binder lo hi len x).map (·.1)).getD 0 < 16 := fun lo hi len x => by
    cases h : s.binder lo hi len x with
    | none => decide
    | some p => exact State.binder_lt h
  unfold State.ctxOfPa
  split
  · exact bound _ _ _ _
  split
  · exact bound _ _ _ _
  split
  · exact s.ctxOf_lt _
  · exact s.ctxOf_lt _

/-- The records of an uncorrectable unit (R328, R340, R344, R397, R403). -/
theorem State.unitUncorr_noted (hw : chamBase ≤ pa → windowCore pa < 96) : s.Noted (s.unitUncorr pa scrub) := by
  unfold State.unitUncorr
  extract_lets u v
  have counted : s.Noted u := by
    subst u
    split
    · exact (State.count_noted (by unfold StepKey stkK; omega)).trans (State.first_noted (by unfold StepKey stkK; omega))
    split
    · next gal =>
      have share : (pa - galBase) / 0x8000000 < 16 := by unfold galEnd at gal; unfold galBase; omega
      exact (State.count_noted (by unfold StepKey cluK; omega)).trans (State.first_noted (by unfold StepKey cluK; omega))
    · exact State.count_noted (by unfold StepKey MxKey coreK; omega)
  have marked : u.Noted v := by
    subst v
    split
    · exact State.poisoned_noted State.ctxOfPa_lt
    · exact ⟨.refl u, rfl⟩
  exact (counted.trans marked).trans ((v.report_noted _ _ _ (State.ctxOfPa_lt.le.trans (by decide))).trans
    (State.trigger_noted (dieOf_memSource hw)))

/-- The failed write of a group's word 15 changes its unit alone (R198, R332). -/
theorem State.flipFails_stepped : s.Stepped (s.flipFails ctx i) ∧
    s.UnitsBut (s.flipFails ctx i) (s.wordUnits ctx (s.groupAddr ctx i + 120)) := by
  have align := State.groupAddr_mod (s := s) (ctx := ctx) (i := i)
  simp only [State.flipFails, State.wordUnits]
  cases place : s.localPlace ctx (s.groupAddr ctx i + 120) with
  | mem pa =>
    obtain ⟨same, window⟩ := State.localPlace_mem place
    simp only
    cases shut : s.shutCore none pa with
    | some c =>
      obtain ⟨high, rfl⟩ := State.shutCore_some shut
      rw [State.through_shut _ shut]
      have counts := s.count_only (coreK (windowCore pa) 0x28) 1
      exact ⟨counts.stepped (by simpa using stepKey_mx (mxKey_core (window high) (by decide))), fun x _ => by rw [counts.mem]⟩
    | none =>
      rw [State.through_open _ shut, unitsOf_one (by decide) (by omega)]
      have wrote : ∀ bs, s.Served (s.writePart pa bs true) [pa / 64 * 64] := fun bs => State.writePart_served (.head [])
      have noted : ∀ r : State, r.Noted (r.unitUncorr pa false) := fun r => State.unitUncorr_noted window
      exact ⟨(wrote _).stepped.trans (noted _).toStepped, fun x hx => by rw [(noted _).mem]; exact (wrote _).units x hx⟩
  | _ => exact ⟨.refl s, fun _ _ => rfl⟩

end Failure

section FlipEnd

variable {s t u : State} {ctx i g : Nat} {n : BitVec 32} {events : List W16} {ks : List Nat}

/-- `s` with step `n` committed and PARTIAL clear (R197, R202). -/
def State.committed (s : State) (ctx : Nat) (n : BitVec 32) : State :=
  (s.setFld (updK ctx 0x10) 32 32 n.toNat).setBit (updK ctx 0x10) 30 false

theorem State.committed_only : s.OnlyRegs (s.committed ctx n) [updK ctx 0x10] :=
  ((s.setFld_only _ _ _ _).trans (State.setBit_only _ _ _ _)).mono (by simp)

theorem State.committed_cstep : (s.committed ctx n).cstep ctx = n.toNat := by
  rw [State.committed, State.cstep, State.regFld_setBit_ne _ _ _ _ _ _ _ (by decide) (.inr (.inl (by decide))),
    State.regFld_setFld_self _ _ _ _ _ (by decide), Nat.mod_eq_of_lt n.isLt]

theorem State.committed_groupAt (hctx : ctx < 16) : (s.committed ctx n).groupAt ctx i = s.groupAt ctx i := by
  have only := s.committed_only (ctx := ctx) (n := n)
  have tables : s.SameTables (s.committed ctx n) ctx := only.sameTables
    (fun o ho => by rw [List.mem_singleton]; unfold bindK updK; omega)
    fun st o ho => by rw [List.mem_singleton]; unfold stkK updK; omega
  refine tables.groupAt ?_
  rw [State.groupAddr, State.regFld, only.2 _ (by simp)]
  rfl

/-- A commit that finishes moves the committed step of its context and leaves its groups (R197). -/
theorem State.flipEnd_done (hctx : ctx < 16) : (s.flipEnd ctx n none events).mem = s.mem ∧ (s.flipEnd ctx n none events).bufs = s.bufs ∧
    s.RegsBut (s.flipEnd ctx n none events) [updK ctx 0x10] ∧ (s.flipEnd ctx n none events).cstep ctx = n.toNat ∧
    ∀ i, (s.flipEnd ctx n none events).groupAt ctx i = s.groupAt ctx i := by
  have moved := s.committed_only (ctx := ctx) (n := n)
  obtain ⟨mem, -, -, bufs⟩ := moved.coresKept
  have ends : (s.committed ctx n).QueuesOnly (s.flipEnd ctx n none events) := State.endCommits_queues
  exact ⟨ends.mem.trans mem, ends.bufs.trans bufs, fun k hk => (ends.regs k).trans (moved.2 k hk),
    (congrArg (fld · 32 32) (ends.regs _)).trans State.committed_cstep,
    fun i => (ends.groups ctx i).trans (State.committed_groupAt hctx)⟩

/-- A flip that stopped marks PARTIAL and records its group (R198, R202). -/
theorem State.flipEnd_stopped : (s.flipEnd ctx n (some g) events).mem = s.mem ∧ (s.flipEnd ctx n (some g) events).bufs = s.bufs ∧
    s.RegsBut (s.flipEnd ctx n (some g) events) [updK ctx 0x10, updK ctx 0x18] ∧
    (s.flipEnd ctx n (some g) events).cstep ctx = s.cstep ctx ∧ (s.flipEnd ctx n (some g) events).regBit (updK ctx 0x10) 30 = true ∧
    (s.regBit (updK ctx 0x18) 63 = false → (s.flipEnd ctx n (some g) events).reg (updK ctx 0x18) = updErrWord g n) := by
  have partly := s.setBit_only (updK ctx 0x10) 30 true
  have noted := (s.setBit (updK ctx 0x10) 30 true).first_only (updK ctx 0x18) (updErrWord g n)
  have only := partly.trans noted
  obtain ⟨mem, -, -, bufs⟩ := only.coresKept
  have ends : ((s.setBit (updK ctx 0x10) 30 true).first (updK ctx 0x18) (updErrWord g n)).QueuesOnly (s.flipEnd ctx n (some g) events) :=
    State.endCommits_queues
  have kept := (ends.regs _).trans (noted.2 (updK ctx 0x10) (by simp))
  refine ⟨ends.mem.trans mem, ends.bufs.trans bufs, fun k hk => (ends.regs k).trans (only.2 k hk),
    (congrArg (fld · 32 32) kept).trans ?_, (congrArg (bitAt · 30) kept).trans ?_,
    fun free => (ends.regs _).trans (State.first_updErr ?_)⟩
  · exact State.regFld_setBit_ne _ _ _ _ _ _ _ (by decide) (.inr (.inl (by decide)))
  · exact State.regBit_setBit_self _ _ _ _ (by decide)
  · rw [State.regBit_setBit_ne _ _ _ _ _ _ (by decide) (.inr (by decide)), free]

/-- Registers of the update units are neither scalar registers nor semaphores. -/
theorem updK_ne_sreg {o c m : Nat} (hctx : ctx < 16) (ho : o < 0x100) : updK ctx o ≠ coreK c m := by
  unfold updK coreK; omega

theorem not_isSemKey_upd {o : Nat} (hctx : ctx < 16) (ho : o < 0x100) : ¬isSemKey (updK ctx o) := by
  rintro (⟨c, i, e⟩ | ⟨g, i, e⟩ | ⟨d, i, e⟩)
  · unfold updK coreK at e; omega
  · unfold updK cluK at e; omega
  · unfold updK dieK at e; omega

/-- A step's update that ends with writes to registers of its update unit leaves scalar registers and semaphores alone. -/
theorem State.Stepped.ended (h : s.Stepped t) (hctx : ctx < 16) (hu : t.RegsBut u ks) (upd : ∀ k ∈ ks, ∃ o < 0x100, k = updK ctx o) :
    s.ScalarsKept u ∧ s.SemsBut u [] := by
  refine ⟨fun c q i => (hu _ fun hk => ?_).trans (h.scalarsKept c q i), fun k hk hn => (hu k fun hm => ?_).trans (h.semsBut [] k hk hn)⟩
  · obtain ⟨o, ho, e⟩ := upd _ hk
    exact updK_ne_sreg hctx ho e.symm
  · obtain ⟨o, ho, rfl⟩ := upd k hm
    exact not_isSemKey_upd hctx ho hk

theorem State.Stepped.cstep (h : s.Stepped t) (hctx : ctx < 16) : t.cstep ctx = s.cstep ctx :=
  congrArg (fld · 32 32) (h.regs _ (not_stepKey_upd hctx (by decide)))

end FlipEnd

section Commit

variable {s : State} {ctx i : Nat} {n : BitVec 32} {failAt : Option Nat} {p : Nat × Queue × InFlight} {gs : List Nat}

/-- The commit that runs a step's sequence, once no UPD of the step is in flight (R197). -/
theorem exec_commitFlip {c : Fin 16} (own : s.ownCommit c = some p) (still : s.updating c p.2.2.step = false)
    (tables : s.TablesOpen c (s.groupTable c)) :
    exec (.commitFlip c failAt) s = .next (s.commitRun c p.2.2.step failAt p) := by
  show execCommitFlip c failAt s = _
  simp only [execCommitFlip, own, still, Bool.false_eq_true, if_false, tables.touchedAll, tables.unlessGated]

/-- The cases of the sequence (R197, R403). -/
theorem State.commitRun_closed (closed : s.gateClosed ctx = true) : s.commitRun ctx n failAt p = s.commitFails ctx 0 n := if_pos closed

theorem State.commitRun_short (opened : s.gateClosed ctx = false) (short : s.shortGroup ctx (s.flips ctx n) = some i) :
    s.commitRun ctx n failAt p = s.commitFails ctx i n := by
  simp only [State.commitRun, opened, Bool.false_eq_true, if_false, short]

theorem State.commitRun_held (opened : s.gateClosed ctx = false) (full : s.shortGroup ctx (s.flips ctx n) = none)
    (held : (List.range 4).any (s.holds ctx n (s.flips ctx n)) = true) :
    s.commitRun ctx n failAt p = (s.stalling ctx n (s.flips ctx n)).snapWait ctx p := by
  simp only [State.commitRun, opened, Bool.false_eq_true, if_false, full, held, if_true]

theorem State.commitRun_flips (opened : s.gateClosed ctx = false) (full : s.shortGroup ctx (s.flips ctx n) = none)
    (free : (List.range 4).any (s.holds ctx n (s.flips ctx n)) = false) :
    s.commitRun ctx n failAt p =
      ((s.stalling ctx n (s.flips ctx n)).flipAll ctx n failAt (s.flips ctx n)).1.flipEnd ctx n
        ((s.stalling ctx n (s.flips ctx n)).flipAll ctx n failAt (s.flips ctx n)).2.1
        ((s.stalling ctx n (s.flips ctx n)).flipAll ctx n failAt (s.flips ctx n)).2.2 := by
  simp only [State.commitRun, opened, Bool.false_eq_true, if_false, full, free]

theorem State.stalling_flips (hctx : ctx < 16) : s.Flips (s.stalling ctx n gs) ctx [] := by
  have only := s.stalling_only (ctx := ctx) (n := n) (gs := gs)
  refine State.SameTables.flips (only.sameTables (fun o ho hk => ?_) fun st o ho hk => ?_) (only.stepped fun k hk => ?_) <;>
    obtain ⟨i, hi, e⟩ := List.mem_map.mp hk <;> rw [List.mem_range] at hi
  · unfold snapK pipeK bindK at e; omega
  · unfold snapK pipeK stkK at e; omega
  · exact e ▸ stepKey_pipe hctx (by omega)

/-- A commit that waits for a snapshot shows it, counts, and does no more (R173). -/
theorem State.commitRun_waits (hctx : ctx < 16) (opened : s.gateClosed ctx = false) (full : s.shortGroup ctx (s.flips ctx n) = none)
    (held : (List.range 4).any (s.holds ctx n (s.flips ctx n)) = true) :
    (s.commitRun ctx n failAt p).mem = s.mem ∧ (s.commitRun ctx n failAt p).bufs = s.bufs ∧
      (s.commitRun ctx n failAt p).cstep ctx = s.cstep ctx ∧
      s.RegsBut (s.commitRun ctx n failAt p) (pipeK ctx 0x30 :: (List.range 4).map (snapK ctx)) ∧
      ∀ i, i < 4 → (s.commitRun ctx n failAt p).regBit (snapK ctx i) 62 = s.holds ctx n (s.flips ctx n) i := by
  rw [State.commitRun_held opened full held]
  have shown := s.stalling_only (ctx := ctx) (n := n) (gs := s.flips ctx n)
  obtain ⟨mem, -, -, bufs⟩ := shown.coresKept
  obtain ⟨mem', bufs', counted⟩ := State.snapWait_counts (s := s.stalling ctx n (s.flips ctx n)) (ctx := ctx) (p := p)
  refine ⟨mem'.trans mem, bufs'.trans bufs, ?_, fun k hk => ?_, fun i hi => ?_⟩
  · refine (congrArg (fld · 32 32) (counted _ ?_)).trans ((State.stalling_flips hctx).toStepped.cstep hctx)
    rw [List.mem_singleton]; unfold updK pipeK; omega
  · rw [List.mem_cons, not_or] at hk
    exact (counted k (by simpa using hk.1)).trans (shown.2 k hk.2)
  · refine (congrArg (bitAt · 62) (counted _ ?_)).trans (State.stalling_bit hi)
    rw [List.mem_singleton]; unfold snapK pipeK; omega

/-- A commit that meets no failed write (R197). -/
theorem State.commitRun_all (hctx : ctx < 16) (opened : s.gateClosed ctx = false) (full : s.shortGroup ctx (s.flips ctx n) = none)
    (free : (List.range 4).any (s.holds ctx n (s.flips ctx n)) = false) (sound : ∀ i, failAt = some i → i ∉ s.flips ctx n) :
    (s.commitRun ctx n failAt p).cstep ctx = n.toNat ∧ (s.commitRun ctx n failAt p).bufs = s.bufs ∧
      s.ScalarsKept (s.commitRun ctx n failAt p) ∧ s.SemsBut (s.commitRun ctx n failAt p) [] ∧
      (∀ ctx', ctx' < 16 → ctx' ≠ ctx → (s.commitRun ctx n failAt p).cstep ctx' = s.cstep ctx') ∧
      s.UnitsBut (s.commitRun ctx n failAt p) ((s.flips ctx n).flatMap (s.flipUnits ctx)) ∧
      ∀ i ∈ s.flips ctx n, ∀ pa, s.GroupTakes ctx i pa → s.GroupAlone ctx i pa (s.flips ctx n) →
        (s.groupAt ctx i).FlippedTo ((s.commitRun ctx n failAt p).groupAt ctx i) n := by
  rw [State.commitRun_flips opened full free]
  have nodup : (s.flips ctx n).Nodup := State.flips_nodup
  generalize s.flips ctx n = gs at *
  have shown : s.Flips (s.stalling ctx n gs) ctx [] := State.stalling_flips hctx
  generalize s.stalling ctx n gs = v at *
  obtain ⟨all, ends⟩ := State.flipAll_all (s := v) (ctx := ctx) (n := n) sound
  rw [all, ends]
  generalize (v.flipAll ctx n failAt gs).2.2 = events
  have flipped : v.Flips (v.flipList ctx n gs) ctx (gs.flatMap (v.flipUnits ctx)) := State.flipList_flips hctx
  have units : gs.flatMap (v.flipUnits ctx) = gs.flatMap (s.flipUnits ctx) := congrArg gs.flatMap (funext (shown.flipUnits hctx))
  have total := (shown.mono (vs := gs.flatMap (v.flipUnits ctx)) nofun).trans flipped
  obtain ⟨mem, bufs, keys, step, groups⟩ := State.flipEnd_done (s := v.flipList ctx n gs) (ctx := ctx) (n := n) (events := events) hctx
  obtain ⟨scalars, sems⟩ := total.toStepped.ended hctx keys (by simpa using ⟨0x10, by decide, rfl⟩)
  refine ⟨step, bufs.trans total.bufs, scalars, sems, fun ctx' h' other => ?_, fun x hx => ?_, fun i hi pa takes alone => ?_⟩
  · exact (congrArg (fld · 32 32) (keys _ (by simp [other]))).trans (total.toStepped.cstep h')
  · rw [mem]
    exact total.units x (by rwa [units])
  · rw [groups]
    have same : v.groupAt ctx i = s.groupAt ctx i := shown.groupAt hctx takes nofun nofun
    have once := State.flipList_groupAt (n := n) (takes.flips hctx shown) hctx (fun j hj hne => ?_) hi nodup
    · rwa [same] at once
    · rw [shown.toStepped.groupAddr hctx, shown.place]
      exact alone j hj hne

/-- A commit whose flip of group `i` fails (R198). -/
theorem State.commitRun_stops (hctx : ctx < 16) (opened : s.gateClosed ctx = false) (full : s.shortGroup ctx (s.flips ctx n) = none)
    (free : (List.range 4).any (s.holds ctx n (s.flips ctx n)) = false) (hi : i ∈ s.flips ctx n) :
    (s.commitRun ctx n (some i) p).cstep ctx = s.cstep ctx ∧ (s.commitRun ctx n (some i) p).regBit (updK ctx 0x10) 30 = true ∧
      (s.regBit (updK ctx 0x18) 63 = false → (s.commitRun ctx n (some i) p).reg (updK ctx 0x18) = updErrWord i n) ∧
      (s.commitRun ctx n (some i) p).bufs = s.bufs ∧ s.ScalarsKept (s.commitRun ctx n (some i) p) ∧
      s.UnitsBut (s.commitRun ctx n (some i) p)
        (((s.flips ctx n).takeWhile (· ≠ i)).flatMap (s.flipUnits ctx) ++ s.flipUnits ctx i) := by
  rw [State.commitRun_flips opened full free]
  generalize s.flips ctx n = gs at *
  have shown : s.Flips (s.stalling ctx n gs) ctx [] := State.stalling_flips hctx
  generalize s.stalling ctx n gs = v at *
  obtain ⟨upto, ends⟩ := State.flipAll_stops (s := v) (ctx := ctx) (n := n) hi
  rw [upto, ends]
  generalize (v.flipAll ctx n (some i) gs).2.2 = events
  generalize gs.takeWhile (· ≠ i) = before
  have flipped : v.Flips (v.flipList ctx n before) ctx (before.flatMap (v.flipUnits ctx)) := State.flipList_flips hctx
  have units : before.flatMap (v.flipUnits ctx) = before.flatMap (s.flipUnits ctx) :=
    congrArg before.flatMap (funext (shown.flipUnits hctx))
  have earlier := (shown.mono (vs := before.flatMap (v.flipUnits ctx)) nofun).trans flipped
  obtain ⟨stepped, failed⟩ := State.flipFails_stepped (s := v.flipList ctx n before) (ctx := ctx) (i := i)
  have total := earlier.toStepped.trans stepped
  obtain ⟨mem, bufs, keys, step, partly, err⟩ :=
    State.flipEnd_stopped (s := (v.flipList ctx n before).flipFails ctx i) (ctx := ctx) (n := n) (g := i) (events := events)
  obtain ⟨scalars, -⟩ := total.ended hctx keys (by simpa using ⟨⟨0x10, by decide, rfl⟩, ⟨0x18, by decide, rfl⟩⟩)
  refine ⟨step.trans (total.cstep hctx), partly, fun none => err ?_, bufs.trans total.bufs, scalars, fun x hx => ?_⟩
  · rw [State.regBit, total.regs _ (not_stepKey_upd hctx (by decide))]
    exact none
  · rw [List.mem_append, not_or, ← units] at hx
    obtain ⟨others, own⟩ := hx
    rw [mem, failed x fun hw => own (List.mem_append_right _ ?_), earlier.units x others]
    rwa [earlier.toStepped.groupAddr hctx, earlier.toSamePlaces.wordUnits] at hw

end Commit

/-- Settles O23, by the cases of the sequence: it fails, waits, flips all its groups, or stops at a failed write. -/
theorem commitFlips : Obligations.CommitFlips := by
  intro ctx failAt s p own still tables n gs short fails
  have run : exec (.commitFlip ctx failAt) s = .next (s.commitRun ctx n failAt p) := exec_commitFlip own still tables
  refine ⟨fun closed => ⟨_, run, ?_⟩, fun i opened lacks => ⟨_, run, ?_⟩, fun opened full held => ?_, ?_⟩
  · rw [State.commitRun_closed closed]
    exact State.commitFails_fails
  · rw [State.commitRun_short opened lacks]
    exact State.commitFails_fails
  · obtain ⟨mem, bufs, step, keys, bits⟩ := State.commitRun_waits (failAt := failAt) (p := p) ctx.isLt opened full held
    exact ⟨_, run, mem, bufs, step, keys, fun i => bits i i.isLt⟩
  · intro units clear
    refine ⟨fun ⟨opened, full, free⟩ sound => ?_, fun i ⟨opened, full, free⟩ fail hi => ?_⟩
    · obtain ⟨step, bufs, scalars, sems, others, kept, flipped⟩ :=
        State.commitRun_all (p := p) ctx.isLt opened full free sound
      refine ⟨_, run, step, bufs, scalars, sems, fun c other => others c c.isLt (Fin.val_ne_of_ne other), kept,
        fun i hi pa takes alone => ?_⟩
      obtain ⟨cur, tcount, fb, cstep, b1p, b2p⟩ := flipped i hi pa takes alone
      exact ⟨cur, tcount, fb, cstep, b1p, b2p⟩
    · subst fail
      exact ⟨_, run, State.commitRun_stops ctx.isLt opened full free hi⟩

end Sys2Proof.Machine

/-! SUPPORT. VOP and VXADD: what the vector engine's stores, counters, NaN trap and records of bad data change, and its issues (R205, R211
to R223, R333). -/

namespace Sys2Proof.Machine

section VecSteps

variable {s t u : State} {us vs ks : List Nat} {c ctx k o pa addr : Nat} {q : Queue} {y code optag : W16}
  {pc : BitVec 14}

/-- The registers that a vector instruction may change beside its semaphore: those of `StepKey`, and the gates of clusters that its stores
wake (R429). -/
def VecKey (k : Nat) : Prop := StepKey k ∨ k ∈ gateKeys

theorem vecKey_core (hc : c < 96) (ho : o < 0x100 ∨ (0x900 ≤ o ∧ o < 0x1000)) : VecKey (coreK c o) :=
  .inl (stepKey_mx (mxKey_core hc ho))

theorem not_vecKey_sem (h : isSemKey k) : ¬VecKey k := by
  refine fun hk => hk.elim (not_stepKey_sem h) fun gate => ?_
  simp only [gateKeys, List.mem_cons, List.not_mem_nil, or_false] at gate
  obtain ⟨c, i, rfl⟩ | ⟨g, i, rfl⟩ | ⟨d, i, rfl⟩ := h
  · unfold coreK dieK at gate; omega
  · unfold cluK dieK at gate; omega
  · unfold dieK at gate; omega

theorem not_vecKey_sreg (q : Queue) (hc : c < 96) (ho : 0x80 ≤ o ∧ o < 0x100) : ¬VecKey (qK c q o) := by
  refine fun hk => hk.elim (not_stepKey_sreg q hc ho) fun gate => ?_
  simp only [gateKeys, List.mem_cons, List.not_mem_nil, or_false] at gate
  unfold qK coreK dieK at gate; omega

/-- `t` follows `s` by a part of a vector instruction's work: memory differs at most in the units `us`, registers at most in those of
`VecKey`, and queues and accumulators are as before. -/
structure State.VecStep (s t : State) (us : List Nat) : Prop where
  regs : ∀ k, ¬VecKey k → t.reg k = s.reg k
  queues : t.queues = s.queues
  bufs : t.bufs = s.bufs
  units : s.UnitsBut t us

theorem State.VecStep.refl (s : State) (us : List Nat) : s.VecStep s us := ⟨fun _ _ => rfl, rfl, rfl, fun _ _ => rfl⟩

theorem State.VecStep.trans (h : s.VecStep t us) (h' : t.VecStep u us) : s.VecStep u us :=
  ⟨fun k hk => (h'.regs k hk).trans (h.regs k hk), h'.queues.trans h.queues, h'.bufs.trans h.bufs,
    fun x hx => (h'.units x hx).trans (h.units x hx)⟩

theorem State.VecStep.mono (h : s.VecStep t us) (hs : ∀ x ∈ us, x ∈ vs) : s.VecStep t vs :=
  ⟨h.regs, h.queues, h.bufs, fun x hx => h.units x fun hu => hx (hs _ hu)⟩

theorem State.Served.vecStep (h : s.Served t us) : s.VecStep t us :=
  ⟨fun k hk => h.stepped.regs k fun step => hk (.inl step), h.queues, h.bufs, h.units⟩

theorem State.OnlyRegs.vecStep (h : s.OnlyRegs t ks) (hk : ∀ k ∈ ks, VecKey k) : s.VecStep t us := by
  obtain ⟨mem, -, queues, bufs⟩ := h.coresKept
  exact ⟨fun k hn => h.2 k fun hm => hn (hk k hm), queues, bufs, fun x _ => by rw [mem]⟩

theorem State.count_vecStep {n : Nat} (hk : VecKey k) : s.VecStep (s.count k n) us := (s.count_only k n).vecStep (by simpa using hk)

/-- Every self-test that memory triggers is one of the two dies' (R397). -/
theorem State.trigger_vecStep (hd : dieOf y < 2) : s.VecStep (s.trigger y code addr) us := by
  have noted := State.trigger_noted (s := s) (code := code) (addr := addr) hd
  exact ⟨fun k hk => noted.regs k fun step => hk (.inl step), State.trigger_queues, noted.bufs, fun x _ => by rw [noted.mem]⟩

theorem State.memErr_vecStep {kind : Nat} (hc : c < 96) : s.VecStep (s.memErr c q kind pc optag addr) us :=
  State.memErr_only.vecStep (by simpa using ⟨vecKey_core hc (by decide), vecKey_core hc (by decide)⟩)

theorem State.nanTrap_vecStep {source origin coord : Nat} (hc : c < 96) : s.VecStep (s.nanTrap c q source origin pc optag coord) us :=
  State.nanTrap_only.vecStep (by simpa using ⟨vecKey_core hc (by decide), vecKey_core hc (by decide), vecKey_core hc (by decide)⟩)

theorem State.wrotePoison_vecStep {n : Nat} (hc : c < 96) : s.VecStep (s.wrotePoison c n) us := by
  unfold State.wrotePoison
  split
  · exact .refl s us
  · exact (State.count_vecStep (vecKey_core hc (by decide))).trans (State.poisoned_served (s.ctxOf_lt c)).vecStep

/-- A bad unit that is read from the core's chamber is recorded, and a mismatch triggers the self-test of its core (R333, R397). -/
theorem State.tookTag_vecStep {x : TagSt} (hc : c < 96) (ho : o < 0x400000) :
    s.VecStep (s.tookTag c q optag addr (chamPa c o) x) us := by
  cases x with
  | good => exact .refl s us
  | poisoned => exact State.memErr_vecStep hc
  | mismatch => exact (State.memErr_vecStep hc).trans (State.trigger_vecStep (dieOf_memSource_chamPa hc ho))

/-- What a transfer's reads met is recorded, reported, and may trigger a self-test (R27, R333, R397). -/
theorem State.tookErrs_vecStep {x : Errs} (hc : c < 96) (hctx : ctx < 16) : s.VecStep (s.tookErrs c q pc optag ctx x) us := by
  have missed : s.VecStep (match x.miss with | some a => s.missed ctx a | none => s) us := by
    split
    · exact ((s.report_reported _ _ _ _).served hctx).vecStep
    · exact .refl s us
  unfold State.tookErrs
  extract_lets v
  split
  · exact missed
  · next noted _ =>
    have recorded : s.VecStep noted us := missed.trans (State.memErr_vecStep hc)
    split
    · next place => exact recorded.trans (State.trigger_vecStep (dieOf_memSource (State.localPlace_mem (State.place_mem place)).2))
    · exact recorded

end VecSteps

section VecLanding

variable {s : State} {us : List Nat} {c ctx n : Nat} {own : Option Nat} {x : UnitWr} {q : Queue} {w : InstrWord}
  {ws : List ElemWr} {v : VChain} {ds : List ShadowDiff}

/-- A unit write wakes at most the cluster of its window, and is then served (R26, R283, R429). -/
theorem State.landWrite_woken (hctx : ctx < 16) (hu : ∀ pa, s.place ctx x.addr = .mem pa → pa / 64 * 64 ∈ us) :
    ∃ v, s.OnlyRegs v gateKeys ∧ v.Served (s.landWrite ctx own x).1 us := by
  unfold State.landWrite
  split
  · next pa hp =>
    have window := (State.localPlace_mem (State.place_mem hp)).2
    exact ⟨_, State.wakeFor_only window, State.through_served (f := fun t => t.landUnit pa x) window (State.landUnit_served (hu pa hp))⟩
  · exact ⟨s, .refl s _, (s.report_reported _ _ _ _).served hctx⟩
  · exact ⟨s, .refl s _, .refl s us⟩

/-- Unit writes leave addresses where they lead, and change no units but those where they land (R356). -/
theorem State.landAll_vecStep (hctx : ctx < 16) (l : List UnitWr) :
    s.VecStep (s.landAll ctx own l).1 (s.unitsLanded ctx l) ∧ ∀ a, (s.landAll ctx own l).1.place ctx a = s.place ctx a := by
  unfold State.landAll
  refine List.foldlRecOn l _
    (motive := fun p : State × Bool => s.VecStep p.1 (s.unitsLanded ctx l) ∧ ∀ a, p.1.place ctx a = s.place ctx a)
    ⟨.refl s _, fun _ => rfl⟩ ?_
  intro p ⟨step, place⟩ x hx
  obtain ⟨v, woken, served⟩ := State.landWrite_woken (s := p.1) (own := own) (x := x) (us := s.unitsLanded ctx l) hctx
    fun pa hp => State.mem_unitsLanded hx ((place _).symm.trans hp)
  refine ⟨(step.trans (woken.vecStep fun k hk => .inr hk)).trans served.vecStep, fun a => ?_⟩
  have kept : v.place ctx a = p.1.place ctx a := by
    simp only [State.place, woken.localPlace fun _ => not_gateKey_bind hctx, woken.fuses]
  exact (served.place hctx a).trans (kept.trans (place a))

/-- The vector engine's element writes change the units in which they land (R333, R356). -/
theorem State.vecLand_vecStep (hc : c < 96) : s.VecStep (s.vecLand c ws) (s.unitsLanded (s.ctxOf c) (groupWrites ws)) :=
  (State.landAll_vecStep (s.ctxOf_lt c) _).1.trans (State.wrotePoison_vecStep hc)

/-- A VOP's counters and its shadow check are registers of its core (R221 to R223). -/
theorem State.vopCount_vecStep (hc : c < 96) : s.VecStep (s.vopCount c q w v n ds) us := by
  have key : ∀ o, 0x900 ≤ o ∧ o < 0x1000 → VecKey (coreK c o) := fun o ho => vecKey_core hc (.inr ho)
  unfold State.vopCount
  extract_lets cost m r
  have counted : s.VecStep r us := (State.count_vecStep (key _ (by decide))).trans (State.count_vecStep (key _ (by decide)))
  split
  · exact counted
  · exact counted.trans ((State.count_vecStep (key _ (by decide))).trans
      ((State.first_only _ _ _).vecStep (by simpa using key _ (by decide))))

end VecLanding

section VecIssue

variable {s : State} {c : Fin 96} {q : Queue} {o : Op} {w : InstrWord} {i : Issued} {us : List Nat} {d : List ShadowDiff}

/-- An issue whose work is done with it, and whose queue takes the address step of R233. -/
def Issued.AtOnce (i : Issued) : Prop := i.work = .done ∧ i.goto = none

/-- `t` follows `s` by the issue of a vector instruction at the head of queue `q` as the entry `f`, which has nothing left to do: the queue
takes its address step, and other queues, accumulators, scalar registers and semaphores but the one waited on are as before (R228, R230,
R233). -/
structure State.VecIssued (s t : State) (c : Fin 96) (q : Queue) (o : Op) (w : InstrWord) (f : InFlight) : Prop where
  queue : t.queue c q = (s.queue c q).afterIssue f (advance (s.queue c q).pc (s.queue c q).loops).1
    (advance (s.queue c q).pc (s.queue c q).loops).2
  others : s.QueuesBut t c q
  op : f.op = o
  pc : f.pc = (s.queue c q).pc
  work : f.work = .done
  bufs : t.bufs = s.bufs
  scalars : s.ScalarsKept t
  sems : s.SemsBut t (s.waitKeys c w)

theorem State.VecStep.issued (h : (s.takeWait c q w).VecStep i.st us) (once : i.AtOnce) :
    s.VecIssued (s.issued c q o w i) c q o w (s.entry c (s.queue c q).pc o w i) := by
  obtain ⟨work, goto⟩ := once
  obtain ⟨queue, others⟩ := State.issued_queues (c := c) (q := q) (o := o) (w := w)
    (h.queues.trans (s.takeWait_only c q w).queues) goto
  refine ⟨queue, others, rfl, rfl, work, h.bufs.trans State.takeWait_bufs, fun c' q' j => ?_, fun k hk hn => ?_⟩
  · exact (h.regs _ (not_vecKey_sreg q' c'.isLt (by omega))).trans (State.takeWait_sreg q' c.isLt c'.isLt j.isLt)
  · exact (h.regs k (not_vecKey_sem hk)).trans ((s.takeWait_only c q w).2 k hn)

/-- A VOP that no check refuses issues once the vector engine is not under self-test (R205, R397). -/
theorem exec_vop (hr : s.ready c q .vop w) (idle : (s.takeWait c q w).vecBusy c = false)
    (check : (s.takeWait c q w).vopCheck c q w = none) :
    exec (.vop c q w d) s = .next (s.issued c q .vop w ((s.takeWait c q w).vopIssue c q w d)) := by
  show execVop c q w d s = _
  rw [execVop, s.runHead_ready _ hr]
  simp only [idle, check, Bool.false_eq_true, if_false]
  rfl

theorem exec_vxadd (hr : s.ready c q .vxadd w) (idle : (s.takeWait c q w).vecBusy c = false)
    (ok : (s.takeWait c q w).vxaddOk c q w = true) :
    exec (.vxadd c q w) s = .next (s.issued c q .vxadd w ((s.takeWait c q w).vxaddIssue c q w)) := by
  show execVxadd c q w s = _
  rw [execVxadd, s.runHead_ready _ hr]
  simp only [idle, ok, Bool.false_eq_true, if_false, if_true]
  rfl

end VecIssue

section Vop

variable {s : State} {c : Nat} {q : Queue} {w : InstrWord} {d : List ShadowDiff}

theorem State.vopIssue_empty (h : (s.vopOps c q w).worked.any (·.empty) = true) : s.vopIssue c q w d = { st := s } := if_pos h

/-- A VOP stores in the units of its outputs and results; all else that it leaves is counters and records (R211 to R223, R333). -/
theorem State.vopIssue_vecStep (hc : c < 96) :
    s.VecStep (s.vopIssue c q w d).st (s.unitsLanded (s.ctxOf c) (groupWrites (s.vopRun c q w d).writes)) ∧
      (s.vopIssue c q w d).AtOnce := by
  unfold State.vopIssue
  extract_lets x ctx
  split
  · exact ⟨.refl s _, rfl, rfl⟩
  · next r rds landed clamped counted err _ =>
    have core : ∀ o, 0x900 ≤ o ∧ o < 0x1000 → VecKey (coreK c o) := fun o ho => vecKey_core hc (.inr ho)
    have stores : s.VecStep landed (s.unitsLanded ctx (groupWrites r.writes)) := State.vecLand_vecStep hc
    have clamps : landed.VecStep clamped (s.unitsLanded ctx (groupWrites r.writes)) :=
      (State.count_vecStep (core _ (by decide))).trans (State.count_vecStep (core _ (by decide)))
    have counts : clamped.VecStep counted (s.unitsLanded ctx (groupWrites r.writes)) :=
      (State.tookErrs_vecStep hc (s.ctxOf_lt c)).trans (State.vopCount_vecStep hc)
    have all := (stores.trans clamps).trans counts
    split
    · exact ⟨all, rfl, rfl⟩
    · exact ⟨all.trans (State.nanTrap_vecStep hc), rfl, rfl⟩

end Vop

section Vxadd

variable {s t : State} {c n pa x : Nat} {q : Queue} {w : InstrWord} {bs : List Byte}

/-- The sum of a VXADD's partials, each of 64 bytes, from its source on (R218). -/
def State.vxaddSum (s : State) (c : Nat) (q : Queue) (w : InstrWord) : ExactAcc :=
  ((List.range (opnd w 31 16)).map fun i => partialOf
    (((s.readBytes (chamPa c (s.offs c q w (opnd w 63 48 * 64))) (64 * opnd w 31 16)).data.drop (64 * i)).take 64)).foldl ExactAcc.merge {}

/-- The 64 bytes that a VXADD stores: the sum as a partial, or rounded to FP32 (R218). -/
def State.vxaddBytes (s : State) (c : Nat) (q : Queue) (w : InstrWord) : List Byte :=
  if w.f0 then (s.vxaddSum c q w).bytes else leBytes 4 (f32 (s.vxaddSum c q w).value) ++ zeros 60

theorem ExactAcc.bytes_length (a : ExactAcc) : a.bytes.length = 64 := by
  simp only [ExactAcc.bytes, List.length_append, leBytes_length, zeros, List.length_replicate]

theorem State.vxaddBytes_length : (s.vxaddBytes c q w).length = 64 := by
  unfold State.vxaddBytes
  split
  · exact ExactAcc.bytes_length _
  · simp [leBytes_length, zeros]

/-- A frame that passes the checks has its chamber offsets in the window and aligned (R246, R249). -/
theorem State.chamOk_of_frameCheck {o : Op} (h : s.frameCheck c q o w = none) : s.chamOk c q o w = true := by
  by_contra hn
  unfold State.frameCheck at h
  split at h
  · cases h
  split at h
  · cases h
  · rw [if_pos (by simpa using hn)] at h
    cases h

/-- So the chamber offset of a VXADD's result is that of a unit. -/
theorem State.frameCheck_vxadd (h : s.frameCheck c q .vxadd w = none) : s.offs c q w (opnd w 47 32 * 64) % 64 = 0 := by
  have ok := State.chamOk_of_frameCheck h
  simp only [State.chamOk, chamFields, List.all_cons, List.all_nil, Bool.and_true, Bool.and_eq_true, beq_iff_eq] at ok
  exact ok.2.2

theorem lt_of_mem_unitsOf (h : x ∈ unitsOf pa n) : x < pa + n := by
  unfold unitsOf at h
  split at h
  · cases h
  · obtain ⟨i, hi, rfl⟩ := List.mem_map.mp h
    have := List.mem_range.mp hi
    omega

/-- The first bad unit of a range comes before the end of the range. -/
theorem State.firstBad_lt (hn : 0 < n) : (s.firstBad pa n).getD pa < pa + n := by
  cases bad : s.firstBad pa n with
  | none => simpa using hn
  | some x => exact lt_of_mem_unitsOf (List.mem_of_find?_eq_some bad)

theorem State.deadAt_chamPa {o : Nat} (hc : c < 96) (ho : o < 0x400000) (up : s.coreUp c = true) : s.deadAt (chamPa c o) = none := by
  have core : (chamPa c o - chamBase) / 0x400000 = c := by unfold chamPa chamBase; omega
  unfold State.deadAt
  rw [if_neg (by unfold chamPa chamBase stackEnd; omega), if_neg (by unfold chamPa chamBase galEnd; omega),
    if_pos (by unfold chamPa chamBase chamEnd; omega), core, if_pos up]

theorem State.takeWait_coreUp (s : State) (c' : Nat) : (s.takeWait c q w).coreUp c' = s.coreUp c' := by
  rw [(s.takeWait_only c q w).1]; rfl

/-- A whole unit that is written in memory which answers reads back. -/
theorem State.memRead_writeUnit {poison : Bool} (dead : s.deadAt pa = none) (align : pa % 64 = 0) (len : bs.length = 64) :
    memRead (s.writeUnit pa bs poison).mem pa 64 = bs := by
  have read := State.memRead_writePart (s := s) (pa := pa) (bs := bs) (poison := poison) dead (by omega)
  rwa [State.writePart, if_pos (by simp [align, len]), len] at read

/-- Every byte outside one unit is as before. -/
theorem State.UnitsBut.bytesBut (h : s.UnitsBut t [pa]) (align : pa % 64 = 0) : s.BytesBut t pa 64 := fun x hx =>
  h x (by rw [List.mem_singleton]; omega)

theorem State.vxaddIssue_zero (h : opnd w 31 16 = 0) : s.vxaddIssue c q w = { st := s } := if_pos h

/-- A VXADD of some partials stores their sum in one unit; all else that it leaves is registers and records (R218, R333). -/
theorem State.vxaddIssue_writes (hc : c < 96) (hn : opnd w 31 16 ≠ 0) (ok : s.vxaddOk c q w = true) :
    (∃ poison, (s.writeUnit (chamPa c (s.offs c q w (opnd w 47 32 * 64))) (s.vxaddBytes c q w) poison).VecStep
      (s.vxaddIssue c q w).st []) ∧ (s.vxaddIssue c q w).AtOnce := by
  simp only [State.vxaddOk, Bool.and_eq_true, decide_eq_true_eq] at ok
  unfold State.vxaddIssue
  extract_lets src dst n
  rw [if_neg hn]
  rename_i r a bs bad wrote told
  have sum : a = s.vxaddSum c q w := by
    rw [State.vxaddSum]
    simp only [a, State.vxaddIssue.chunks', List.map_map, Function.comp_def]
    rfl
  have bytes : bs = s.vxaddBytes c q w := by rw [State.vxaddBytes, ← sum]
  have inside : bad < 0x400000 := by
    have before := State.firstBad_lt (s := s) (pa := chamPa c src) (n := 64 * n) (by omega)
    have base : chamPa c src = chamPa c 0 + src := by unfold chamPa; omega
    omega
  have records : (s.writeUnit (chamPa c dst) bs (r.tag != .good)).VecStep told [] :=
    (State.wrotePoison_vecStep hc).trans (State.tookTag_vecStep hc inside)
  rw [bytes] at records
  split
  · exact ⟨⟨_, records.trans (State.nanTrap_vecStep hc)⟩, rfl, rfl⟩
  · exact ⟨⟨_, records⟩, rfl, rfl⟩

/-- What a VXADD that issues leaves in memory: nothing for no partials, and else their sum in the unit of its result, which reads back where
the core's chamber answers (R218). -/
structure State.VxaddStores (s : State) (c : Nat) (q : Queue) (w : InstrWord) : Prop where
  step : s.VecStep (s.vxaddIssue c q w).st [chamPa c (s.offs c q w (opnd w 47 32 * 64))]
  once : (s.vxaddIssue c q w).AtOnce
  kept : opnd w 31 16 = 0 → (s.vxaddIssue c q w).st.mem = s.mem
  sum : s.coreUp c = true → opnd w 31 16 ≠ 0 →
    memRead (s.vxaddIssue c q w).st.mem (chamPa c (s.offs c q w (opnd w 47 32 * 64))) 64 = s.vxaddBytes c q w

theorem chamPa_align {o : Nat} (ho : o % 64 = 0) : chamPa c o % 64 = 0 := by
  unfold chamPa chamBase; omega

theorem State.vxaddIssue_stores (hc : c < 96) (align : s.offs c q w (opnd w 47 32 * 64) % 64 = 0) (ok : s.vxaddOk c q w = true) :
    s.VxaddStores c q w := by
  have unit := chamPa_align (c := c) align
  by_cases zero : opnd w 31 16 = 0
  · refine ⟨?_, ?_, fun _ => ?_, fun _ nonzero => absurd zero nonzero⟩ <;> rw [State.vxaddIssue_zero zero]
    · exact .refl s _
    · exact ⟨rfl, rfl⟩
  · obtain ⟨⟨poison, rest⟩, once⟩ := State.vxaddIssue_writes hc zero ok
    refine ⟨?_, once, fun none => absurd none zero, fun up _ => ?_⟩
    · exact (State.writeUnitX_served (by rw [List.mem_singleton]; omega)).vecStep.trans (rest.mono nofun)
    · have inside : s.offs c q w (opnd w 47 32 * 64) < 0x400000 := by
        simp only [State.vxaddOk, Bool.and_eq_true, decide_eq_true_eq] at ok
        omega
      rw [rest.units.memRead (by omega) List.not_mem_nil]
      exact State.memRead_writeUnit (State.deadAt_chamPa hc inside up) unit State.vxaddBytes_length

end Vxadd

/-- Settles O17: both instructions are stores followed by counters and records, and their work is done at issue. -/
theorem vectorResults : Obligations.VectorResults := by
  refine ⟨fun c q w d s hr => ?_, fun c q w s hr => ?_⟩
  · intro u x idle check
    obtain ⟨step, once⟩ := State.vopIssue_vecStep (s := u) (q := q) (w := w) (d := d) c.isLt
    obtain ⟨queue, others, op, pc, work, bufs, scalars, sems⟩ := step.issued (o := .vop) once
    refine ⟨_, _, exec_vop hr idle check, queue, others, op, pc, work, bufs, scalars, sems, fun empty => ?_, fun y hy => ?_⟩
    · rw [State.issued_mem, State.vopIssue_empty empty, State.takeWait_mem]
    · rw [State.issued_mem, step.units y hy, State.takeWait_mem]
  · intro u x src dst n parts a idle ok up
    have align : dst % 64 = 0 := by
      obtain ⟨-, -, -, -, framed⟩ := hr
      rw [show dst = s.offs c q w (opnd w 47 32 * 64) from State.takeWait_offs c.isLt _]
      exact State.frameCheck_vxadd framed
    obtain ⟨step, once, kept, sum⟩ := State.vxaddIssue_stores c.isLt align ok
    obtain ⟨queue, others, op, pc, work, bufs, scalars, sems⟩ := step.issued (o := .vxadd) once
    refine ⟨_, _, exec_vxadd hr idle ok, queue, others, op, pc, work, bufs, scalars, sems, fun zero => ?_,
      fun y hy => ?_, fun nonzero => ?_⟩
    · rw [State.issued_mem, kept zero, State.takeWait_mem]
    · rw [State.issued_mem, step.units.bytesBut (chamPa_align align) y hy, State.takeWait_mem]
    · rw [State.issued_mem, sum ((State.takeWait_coreUp s c).trans up) nonzero]
      rfl

end Sys2Proof.Machine

/-! SUPPORT. Heads that do not issue: every command that puts an instruction before a queue considers the head once, and what a queue that
enters FAULTED leaves alone (R228, R231, R240, R246, R296). -/

namespace Sys2Proof.Machine

section Considered

variable {s : State} {c : Nat} {q : Queue} {o : Op} {w : InstrWord} {e : W16} {body : State → Verdict}
  {early : Option (State → Option Ref)}

/-- The commands of all instructions consider their head alike; that of an XARR whose head waits on its line does nothing (R304). -/
theorem exec_headCommand {c : Fin 96} (f : ResidueFinding) (d : List ShadowDiff) (h : o = .xarr → (s.queue c q).lineWait = none) :
    ∃ body early, exec (headCommand o c q w f d) s = .next (s.runHead c q o w body early) := by
  cases o with
  | xarr => exact ⟨_, _, if_neg (by simp [h rfl])⟩
  | _ => exact ⟨_, _, rfl⟩

theorem exec_headCommand_lineWait {c : Fin 96} (f : ResidueFinding) (d : List ShadowDiff) (h : (s.queue c q).lineWait ≠ none) :
    exec (headCommand .xarr c q w f d) s = .next s :=
  if_pos (Option.isSome_iff_ne_none.mpr h)

/-- What is not the head, or comes to a core without a clock, is not considered (R228, R416). -/
theorem State.runHead_idle (h : (s.queue c q).headIs o w = false ∨ s.coreHung c = true) : s.runHead c q o w body early = s :=
  if_pos (by rcases h with h | h <;> simp [h])

theorem State.runHead_unmet (head : (s.queue c q).headIs o w = true) (clocked : s.coreHung c = false)
    (unmet : s.waitMet c q w = false) : s.runHead c q o w body early = s.waitFor c q .sem := by
  simp [State.runHead, head, clocked, unmet]

/-- With nothing in flight there is room for any instruction (R228, R254). -/
theorem QState.room_of_idle {x : QState} (idle : x.inflight = []) : x.room q o = true := by
  have limit : 0 < inflightLimit q := by cases q <;> decide
  simp [QState.room, QState.open_, QState.interlocked, idle, limit]

/-- The checks of R246 come before those of the instruction's chapter, whether these come early or not. -/
theorem State.runHead_refuses (head : (s.queue c q).headIs o w = true) (clocked : s.coreHung c = false) (met : s.waitMet c q w = true)
    (check : s.frameCheck c q o w = some e) (idle : (s.queue c q).inflight = []) :
    s.runHead c q o w body early = s.refuse c q e w.optag := by
  have free : (s.queue c q).interlocked = false := by simp [QState.interlocked, idle]
  have room : (s.queue c q).room q o = true := QState.room_of_idle idle
  cases early <;> simp [State.runHead, head, clocked, met, check, free, room, Option.filter, State.turnDown_code]

/-- A head that waits changes nothing but its queue's mode and cause (R227). -/
theorem State.waitFor_onlyQueue (cause : WCause) : s.OnlyQueue (s.waitFor c q cause) c q [] :=
  ⟨rfl, fun _ _ => rfl, fun _ _ h => (s.queue_setQueue _ _ _ _ _).trans (if_neg h)⟩

end Considered

section FaultFrame

variable {s t u : State} {c k : Nat} {q : Queue} {qs : List Queue} {det : Bool} {code optag : W16} {pc : BitVec 14} {addr : W64}

/-- `t` is `s` but for queues, registers and what has been reported: no memory, no signal, no count of issues differs. -/
def State.QueuesReported (s t : State) : Prop :=
  t = { s with regs := t.regs, queues := t.queues, ring := t.ring, unsent := t.unsent, lostSince := t.lostSince, tx := t.tx }

theorem State.QueuesReported.refl (s : State) : s.QueuesReported s := rfl

theorem State.QueuesReported.trans (h : s.QueuesReported t) (h' : t.QueuesReported u) : s.QueuesReported u := by
  unfold State.QueuesReported at *
  rw [h] at h'
  exact h'

theorem State.OnlyRegs.queuesReported {ks : List Nat} (h : s.OnlyRegs t ks) : s.QueuesReported t := by
  unfold State.QueuesReported
  rw [h.1]

theorem State.Reported.queuesReported {ctx : Nat} {ks : List Nat} (h : s.Reported t ctx ks) : s.QueuesReported t := by
  unfold State.QueuesReported
  rw [h.1]

theorem State.setQueue_queuesReported (x : QState) : s.QueuesReported (s.setQueue c q x) := rfl

theorem State.QueuesReported.kept (h : s.QueuesReported t) :
    t.mem = s.mem ∧ t.tags = s.tags ∧ t.ids = s.ids ∧ t.sigs = s.sigs ∧ t.bufs = s.bufs := by
  rw [h]; exact ⟨rfl, rfl, rfl, rfl, rfl⟩

theorem State.stopQueues_queuesReported : s.QueuesReported (s.stopQueues c qs) :=
  List.foldlRecOn (motive := s.QueuesReported) qs _ (.refl s) fun _ before _ _ => before.trans (State.setQueue_queuesReported _)

/-- A queue that enters FAULTED changes queues, registers and reports alone; the registers are its fault register, which keeps an earlier
fault, and the counts of reports (R231, R240). -/
theorem State.enterFault_frame (unit : Option (W16 × W64)) :
    s.QueuesReported (s.enterFault c q det code optag pc addr unit) ∧
    ∀ k, (∀ ctx < 16, k ∉ reportKeys ctx) → (s.enterFault c q det code optag pc addr unit).reg k =
      if k = qK c q 8 ∧ s.regBit (qK c q 8) 63 = false then faultWord det code optag pc else s.reg k := by
  unfold State.enterFault
  extract_lets x u v w
  have told := w.report_reported 0x01 code ((unit.map (·.1)).getD (srcOf (unitType q) c))
    { context := w.ctxOf c, queue := qnum q, pc := pc, optag := optag, addr := addr,
      detail := (unit.map (·.2)).getD (w.reg (qK c q 0x08)) }
  have first := u.first_only (qK c q 8) (faultWord det code optag pc)
  have stopped : v.QueuesReported w ∧ ∀ k, w.reg k = v.reg k := by
    subst w
    split
    · exact ⟨State.stopQueues_queuesReported, fun k => State.stopQueues_reg k⟩
    · exact ⟨.refl v, fun _ => rfl⟩
  refine ⟨((State.setQueue_queuesReported _).trans first.queuesReported).trans (stopped.1.trans told.queuesReported), fun k hk => ?_⟩
  rw [told.2 k (hk _ (w.ctxOf_lt c)), stopped.2, State.reg_first, putBit_of_bitAt (by decide) bitAt_faultWord_valid]
  rfl

end FaultFrame

/-- Settles O7: a head that waits or is refused is one case of `State.runHead` for every instruction alike, and `State.frameCheck` tests in
the order of R246. -/
theorem headsThatDoNotIssue : Obligations.HeadsThatDoNotIssue := by
  refine ⟨fun o c q w f d s idle => ?_, fun o c q w f d s head clocked free unmet => ?_,
    fun o c q w f d s e head clocked free met check idle => ?_, fun c q o w s => 
    ⟨fun bad => ?_, fun cls allowed bad => ?_, fun cls allowed fields bad => ?_,
      fun cls allowed fields cham => ⟨fun bad => ?_, fun waits signals => ?_⟩⟩⟩
  · by_cases held : o = .xarr ∧ (s.queue c q).lineWait ≠ none
    · obtain ⟨rfl, held⟩ := held
      exact exec_headCommand_lineWait f d held
    · obtain ⟨body, early, run⟩ := exec_headCommand (s := s) (c := c) (q := q) (w := w) f d (fun h => not_not.mp fun hl => held ⟨h, hl⟩)
      rw [run, State.runHead_idle idle]
  · obtain ⟨body, early, run⟩ := exec_headCommand (o := o) (w := w) f d fun _ => free
    exact ⟨_, run.trans (congrArg _ (State.runHead_unmet head clocked unmet)), s.queue_setQueue_self _ _ _,
      State.waitFor_onlyQueue .sem⟩
  · obtain ⟨body, early, run⟩ := exec_headCommand (o := o) (w := w) f d fun _ => free
    have faults : s.refuse c q e w.optag = s.enterFault c q false e w.optag (s.queue c q).pc 0 := if_pos idle
    obtain ⟨frame, regs⟩ := State.enterFault_frame (s := s) (c := c) (q := q) (det := false) (code := e) (optag := w.optag)
      (pc := (s.queue c q).pc) (addr := 0) none
    obtain ⟨mem, tags, ids, sigs, -⟩ := frame.kept
    refine ⟨_, run.trans (congrArg _ ((State.runHead_refuses head clocked met check idle).trans faults)),
      (State.enterFault_own none).1, ?_, mem, tags, ids, sigs⟩
    rw [regs _ fun ctx hctx => qK_notMem_reportKeys (by omega)]
    cases s.regBit (qK c q 8) 63 <;> simp
  · rcases bad with bad | bad <;> simp [State.frameCheck, bad]
  · simp [State.frameCheck, cls, allowed, bad]
  · simp [State.frameCheck, cls, allowed, fields, bad]
  · have waits : w.wcond ≠ 0#4 := fun e => absurd (e ▸ bad) (by decide)
    simp [State.frameCheck, State.syncCheck, cls, allowed, fields, cham, waits, bad]
  · simp [State.frameCheck, State.syncCheck, cls, allowed, fields, cham, waits, signals]

end Sys2Proof.Machine

/-! SUPPORT. LOOP: what its range, its count and the depth of the loop stack decide (R233, R251). -/

namespace Sys2Proof.Machine

section Loop

variable {s : State} {c : Fin 96} {q : Queue} {w : InstrWord} {pc e : BitVec 14} {loops : List LoopEntry} {n : BitVec 32}

/-- The range of a LOOP at `pc` is wrong: its end comes before its body or beyond the instruction memory, or its body would outlast that of
the loop around it (R233). -/
def LoopRangeBad (pc : BitVec 14) (loops : List LoopEntry) (e : BitVec 14) : Prop :=
  e.toNat < pc.toNat + 1 ∨ 12287 < e.toNat ∨ ∃ l r, loops = l :: r ∧ l.end_.toNat < e.toNat

theorem loopRangeBad_iff : LoopRangeBad pc loops e ↔ (e.toNat < pc.toNat + 1 || 12287 < e.toNat ||
    (match loops with | t :: _ => t.end_.toNat < e.toNat | [] => false)) = true := by
  cases loops <;> simp [LoopRangeBad, or_assoc]

theorem loopVerdict_range (h : LoopRangeBad pc loops e) : loopVerdict s pc loops n e = .refuse Code.LOOP_RANGE :=
  if_pos (loopRangeBad_iff.mp h)

theorem loopVerdict_empty (h : ¬LoopRangeBad pc loops e) (zero : n = 0) :
    loopVerdict s pc loops n e = .issue { st := s, goto := some (advance e loops) } :=
  (if_neg (mt loopRangeBad_iff.mpr h)).trans (if_pos zero)

theorem loopVerdict_deep (h : ¬LoopRangeBad pc loops e) (some : n ≠ 0) (full : loops.length = 4) :
    loopVerdict s pc loops n e = .refuse Code.LOOP_DEPTH :=
  (if_neg (mt loopRangeBad_iff.mpr h)).trans ((if_neg some).trans (if_pos full))

theorem loopVerdict_opens (h : ¬LoopRangeBad pc loops e) (runs : n ≠ 0) (room : loops.length ≠ 4) :
    loopVerdict s pc loops n e = .issue { st := s, goto := some (pc + 1, { start := pc + 1, end_ := e, left := n } :: loops) } :=
  (if_neg (mt loopRangeBad_iff.mpr h)).trans ((if_neg runs).trans (if_neg room))

/-- A LOOP that is ready is settled by its range, its count and its queue's loop stack; taking its wait decides none of them. -/
theorem exec_loop {v : Verdict} (hr : s.ready c q .loop w) (hv : loopVerdict (s.takeWait c q w) (s.queue c q).pc (s.queue c q).loops
    (s.loopCount c q w) (BitVec.ofNat 14 (opnd w 63 50)) = v) : exec (.loop c q w) s = .next (s.settle c q .loop w v) := by
  have count : (s.takeWait c q w).loopCount c q w = s.loopCount c q w := by
    rw [State.loopCount, State.takeWait_sreg q c.isLt c.isLt (fld_lt _ _ _)]
    rfl
  show execLoop c q w s = _
  rw [execLoop, s.runHead_ready _ hr, State.takeWait_queue, count, hv]

/-- A LOOP that issues moves its own queue to the address and the loop stack that it names, and nothing else but its semaphore. -/
theorem State.issued_goto (p : BitVec 14 × List LoopEntry) :
    let t := s.issued c q .loop w { st := s.takeWait c q w, goto := some p }
    s.CoreOnly t ∧ s.QueuesBut t c q ∧ s.RegsBut t (s.waitKeys c w) ∧
      t.queue c q = (s.queue c q).afterIssue (s.headEntry c q .loop w) p.1 p.2 := by
  have waited := s.takeWait_only c q w
  refine ⟨State.issued_coreOnly waited, fun c' q' h => ?_, waited.2, ?_⟩
  · exact (State.queue_setQueue _ _ _ _ _ _).trans ((if_neg h).trans (s.takeWait_queue c q w c' q'))
  · refine (State.queue_setQueue_self _ _ _ _).trans ?_
    rw [State.takeWait_queue, Option.getD_some]
    exact congrArg (QState.afterIssue _ · _ _) (State.entry_eq_headEntry (u := s))

end Loop

/-- Settles O9: the verdict on a LOOP in its four cases. -/
theorem loopSteps : Obligations.LoopSteps := by
  intro c q w s hr x e n bad
  refine ⟨fun range idle => ?_, fun range zero => ⟨_, exec_loop hr (loopVerdict_empty range zero), State.issued_goto _⟩,
    fun range runs full idle => ?_, fun range runs room => ⟨_, exec_loop hr (loopVerdict_opens range runs room), State.issued_goto _⟩⟩
  · obtain ⟨mode, pc, -, -⟩ := State.refuse_refused (code := Code.LOOP_RANGE) (optag := w.optag) (addr := 0) idle
    exact ⟨_, exec_loop hr (loopVerdict_range range), mode, pc⟩
  · exact ⟨_, exec_loop hr (loopVerdict_deep range runs full),
      (State.refuse_refused (code := Code.LOOP_DEPTH) (optag := w.optag) (addr := 0) idle).mode⟩

end Sys2Proof.Machine

/-! SUPPORT. START, STOP and writes of the PC: changes of some queues by one rule for each, made queue by queue and core by core (R237). -/

namespace Sys2Proof.Machine

section Mapped

variable {s t u : State} {c : Nat} {q : Queue} {sel sel' : Nat → Queue → Prop} {g g' : Nat → Queue → QState → QState}

/-- `t` is `s` with the rule `g` applied to the queues that `sel` names, and nothing else different. -/
structure State.Mapped (s t : State) (sel : Nat → Queue → Prop) (g : Nat → Queue → QState → QState) : Prop where
  frame : t = { s with queues := t.queues }
  named : ∀ c q, sel c q → t.queue c q = g c q (s.queue c q)
  others : ∀ c q, ¬sel c q → t.queue c q = s.queue c q

theorem State.Mapped.congr (h : s.Mapped t sel g) (same : ∀ c q, sel' c q ↔ sel c q) : s.Mapped t sel' g :=
  ⟨h.frame, fun c q hs => h.named c q ((same c q).mp hs), fun c q hs => h.others c q (mt (same c q).mpr hs)⟩

theorem State.Mapped.congr_rule (h : s.Mapped t sel g) (same : ∀ c q x, sel c q → g' c q x = g c q x) : s.Mapped t sel g' :=
  ⟨h.frame, fun c q hs => (h.named c q hs).trans (same c q _ hs).symm, h.others⟩

theorem State.setQueue_mapped : s.Mapped (s.setQueue c q (g c q (s.queue c q))) (fun c' q' => c' = c ∧ q' = q) g := by
  refine ⟨rfl, ?_, fun c' q' h => (s.queue_setQueue _ _ _ _ _).trans (if_neg h)⟩
  rintro _ _ ⟨rfl, rfl⟩
  exact s.queue_setQueue_self _ _ _

/-- One rule applied to two disjoint sets of queues in turn is that rule applied to both. -/
theorem State.Mapped.trans (h : s.Mapped t sel g) (h' : t.Mapped u sel' g) (disj : ∀ c q, sel c q → ¬sel' c q) :
    s.Mapped u (fun c q => sel c q ∨ sel' c q) g := by
  refine ⟨?_, fun c q hs => ?_, fun c q hs => ?_⟩
  · have frame := h'.frame
    rw [h.frame] at frame
    exact frame
  · rcases hs with hs | hs
    · rw [h'.others c q (disj c q hs), h.named c q hs]
    · rw [h'.named c q hs, h.others c q fun h1 => disj c q h1 hs]
  · obtain ⟨h1, h2⟩ := not_or.mp hs
    rw [h'.others c q h2, h.others c q h1]

/-- What the rule guarantees of each queue holds of the queues named, by whatever description. -/
theorem State.Mapped.answers {P : Nat → QState → QState → Prop} (h : s.Mapped t sel g) (same : ∀ c q, sel' c q ↔ sel c q)
    (rule : ∀ c q x, P c x (g c q x)) : t = { s with queues := t.queues } ∧
      ∀ c q, (sel' c q → P c (s.queue c q) (t.queue c q)) ∧ (¬sel' c q → t.queue c q = s.queue c q) :=
  have h := h.congr same
  ⟨h.frame, fun c q => ⟨fun hs => h.named c q hs ▸ rule c q _, h.others c q⟩⟩

/-- A list of steps, each of which applies the rule to queues that no other step names. -/
theorem State.Mapped.foldl {α : Type} {F : State → α → State} {of : α → Nat → Queue → Prop} (l : List α)
    (disj : l.Pairwise fun a b => ∀ c q, of a c q → ¬of b c q)
    (step : ∀ (t : State) a, a ∈ l → t = { s with queues := t.queues } → t.Mapped (F t a) (of a) g) :
    s.Mapped (l.foldl F s) (fun c q => ∃ a ∈ l, of a c q) g := by
  induction l generalizing s with
  | nil => exact ⟨rfl, fun _ _ ⟨_, h, _⟩ => (List.not_mem_nil h).elim, fun _ _ _ => rfl⟩
  | cons a l ih =>
    obtain ⟨first, rest⟩ := List.pairwise_cons.mp disj
    have head := step s a (.head l) rfl
    have tail := ih rest (s := F s a) fun t b hb ht => step t b (.tail a hb) (by rw [head.frame] at ht; exact ht)
    refine (head.trans tail fun c q h => ?_).congr fun c q => by simp
    rintro ⟨b, hb, h'⟩
    exact first b hb c q h h'

/-- A rule applied to a list of queues of a core. -/
theorem State.mapQueues_mapped (r : Queue → QState → QState) {qs : List Queue} (nodup : qs.Nodup) :
    s.Mapped (qs.foldl (fun s q => s.setQueue c q (r q (s.queue c q))) s) (fun c' q => c' = c ∧ q ∈ qs) fun _ => r := by
  refine (State.Mapped.foldl (g := fun _ => r) (of := fun p c' q => c' = c ∧ q = p) qs ?_ fun t p _ _ =>
    State.setQueue_mapped).congr fun c' q => ?_
  · exact nodup.imp fun ne c' q h h' => ne (h.2.symm.trans h'.2)
  · simp [and_comm]

/-- A step that applies the rule to all queues of a core, for each of a list of cores. -/
theorem State.mapCores_mapped {F : State → Nat → State} {cs : List Nat} (nodup : cs.Nodup)
    (step : ∀ (t : State) c, c ∈ cs → t = { s with queues := t.queues } → t.Mapped (F t c) (fun c' _ => c' = c) g) :
    s.Mapped (cs.foldl F s) (fun c _ => c ∈ cs) g := by
  refine (State.Mapped.foldl (of := fun a c _ => c = a) cs ?_ step).congr fun c q => ?_
  · exact nodup.imp fun ne c q h h' => ne (h.symm.trans h')
  · simp

end Mapped

section StartStop

variable {s t : State} {ctx : Fin 16} {vc : Fin 96} {vg : Fin 16} {c g : Nat} {q : Queue} {m : BitVec 6} {x : QState}

theorem allQueues_nodup : allQueues.Nodup := by decide

theorem mem_allQueues (q : Queue) : q ∈ allQueues := by cases q <;> decide

theorem mem_maskQueues : q ∈ maskQueues m ↔ m.getLsbD (qnum q) = true := by
  simp [maskQueues, mem_allQueues]

theorem maskQueues_nodup (m : BitVec 6) : (maskQueues m).Nodup := allQueues_nodup.filter _

theorem maskQueues_all : maskQueues 0x3F = allQueues := by decide

theorem mem_maskCores : c ∈ maskCores g m ↔ c / 6 = g ∧ m.getLsbD (c % 6) = true := by
  simp only [maskCores, List.mem_map, List.mem_filter, List.mem_range]
  constructor
  · rintro ⟨k, ⟨hk, hm⟩, rfl⟩
    rw [show (6 * g + k) % 6 = k by omega]
    exact ⟨by omega, hm⟩
  · rintro ⟨rfl, hm⟩
    exact ⟨c % 6, ⟨Nat.mod_lt _ (by decide), hm⟩, by omega⟩

theorem maskCores_nodup (g : Nat) (m : BitVec 6) : (maskCores g m).Nodup :=
  (List.nodup_range.filter _).map fun _ _ h => by simpa using h

/-- START acts on the modes of R237 alone. -/
theorem QState.start_of_startable (h : x.startable) :
    x.start = { x with mode := .running, wcause := .none, fetched := none, lineWait := none } := by
  rcases h with h | h | h | h <;> simp only [QState.start, h]

theorem QState.start_of_not (h : ¬x.startable) : x.start = x := by
  unfold QState.start
  split <;> simp_all [QState.startable]

/-- STOP acts on the modes of R237 alone. -/
theorem QState.stop_stops (x : QState) :
    (x.stoppable → x.stop = { x with mode := .stopped, wcause := .none, fetched := none, lineWait := none }) ∧
      (¬x.stoppable → x.stop = x) := by
  refine ⟨fun h => ?_, fun h => ?_⟩
  · rcases h with h | h | h <;> simp only [QState.stop, h]
  · unfold QState.stop
    split <;> simp_all [QState.stoppable]

/-- START of a queue on a core of which an engine may be disabled: then it acts on READY queues alone (R400; log 92). -/
def State.startOn (s : State) (c : Nat) (x : QState) : QState := if s.engineOff c = false ∨ x.mode = .ready then x.start else x

theorem State.startOn_starts (s : State) (c : Nat) (x : QState) :
    (x.startable ∧ (s.engineOff c = false ∨ x.mode = .ready) →
      s.startOn c x = { x with mode := .running, wcause := .none, fetched := none, lineWait := none }) ∧
    (¬(x.startable ∧ (s.engineOff c = false ∨ x.mode = .ready)) → s.startOn c x = x) := by
  refine ⟨fun h => (if_pos h.2).trans (QState.start_of_startable h.1), fun h => ?_⟩
  unfold State.startOn
  split
  · next on => exact QState.start_of_not fun can => h ⟨can, on⟩
  · rfl

theorem State.stopQueues_mapped {qs : List Queue} (nodup : qs.Nodup) :
    s.Mapped (s.stopQueues c qs) (fun c' q => c' = c ∧ q ∈ qs) fun _ _ => QState.stop :=
  State.mapQueues_mapped _ nodup

/-- START of a mask on a core that is up. -/
theorem State.startMask_mapped (up : s.coreUp c = true) :
    s.Mapped (s.startMask c m) (fun c' q => c' = c ∧ q ∈ maskQueues m) fun c _ => s.startOn c := by
  have started : s.Mapped (s.startMask c m)
      (fun c' q => c' = c ∧ q ∈ (maskQueues m).filter fun q => !s.engineOff c || (s.queue c q).mode == .ready) fun _ _ => QState.start := by
    rw [State.startMask, if_neg (by simp [up])]
    exact State.mapQueues_mapped _ ((maskQueues_nodup m).filter _)
  refine ⟨started.frame, ?_, fun c' q h => started.others c' q fun h' => h ⟨h'.1, List.mem_of_mem_filter h'.2⟩⟩
  rintro c q ⟨rfl, hq⟩
  by_cases on : s.engineOff c = false ∨ (s.queue c q).mode = .ready
  · rw [started.named _ q ⟨rfl, List.mem_filter.mpr ⟨hq, by simpa using on⟩⟩, State.startOn, if_pos on]
  · rw [started.others _ q fun h => on (by simpa using (List.mem_filter.mp h.2).2), State.startOn, if_neg on]

theorem State.startCores_mapped {cs : List Nat} (nodup : cs.Nodup) (up : ∀ c ∈ cs, s.coreUp c = true) :
    s.Mapped (s.startCores cs) (fun c _ => c ∈ cs) fun c _ => s.startOn c := by
  refine State.mapCores_mapped nodup fun t c hc ht => ?_
  have same : t.startOn = s.startOn := by rw [ht]; rfl
  have started : t.Mapped (t.startMask c 0x3F) _ fun c _ => t.startOn c := State.startMask_mapped (by rw [ht]; exact up c hc)
  rw [same, maskQueues_all] at started
  exact started.congr fun c' q => by simp [mem_allQueues]

theorem State.stopCores_mapped {cs : List Nat} (nodup : cs.Nodup) : s.Mapped (s.stopCores cs) (fun c _ => c ∈ cs) fun _ _ => QState.stop :=
  State.mapCores_mapped nodup fun t c _ _ => (State.stopQueues_mapped allQueues_nodup).congr fun c' q => by simp [mem_allQueues]

/-- A command on a core, or on a cluster, that its context names and that is up, acts there. -/
theorem State.atCore_eq (f : Nat → State) {v off : Nat} (h : s.coreOf ctx v = some c) (up : s.cluUp (c / 6) = true) :
    s.atCore ctx v off f = f c := by
  simp only [State.atCore, h, if_pos up]

theorem State.atClu_eq (f : Nat → State) {v off : Nat} (h : s.cluOf ctx v = some g) (up : s.cluUp g = true) :
    s.atClu ctx v off f = f g := by
  simp only [State.atClu, h, if_pos up]

theorem State.awake_eq (i : Instr) (f : State → State) (h : s.gate g = 0) : s.awake g i f = f s := if_pos h

theorem exec_queueStart (core : s.coreOf ctx vc = some c) (up : s.cluUp (c / 6) = true) (gate : s.gate (c / 6) = 0) :
    exec (.queueStart ctx vc m) s = .next (s.startMask c m) := by
  show execQueueStart ctx vc m s = _
  rw [execQueueStart, State.atCore_eq _ core up, State.awake_eq _ _ gate]

theorem exec_queueStop (core : s.coreOf ctx vc = some c) (up : s.cluUp (c / 6) = true) :
    exec (.queueStop ctx vc m) s = .next (s.stopQueues c (maskQueues m)) := by
  show execQueueStop ctx vc m s = _
  rw [execQueueStop, State.atCore_eq _ core up]

theorem exec_pcWrite (core : s.coreOf ctx vc = some c) (up : s.cluUp (c / 6) = true) (v : W64) :
    exec (.pcWrite ctx vc q v) s = .next (s.setQueue c q ((s.queue c q).setPc v)) := by
  show execPcWrite ctx vc q v s = _
  rw [execPcWrite, State.atCore_eq _ core up]

theorem exec_clusterStart (clu : s.cluOf ctx vg = some g) (up : s.cluUp g = true) (gate : s.gate g = 0) :
    exec (.clusterStart ctx vg m) s = .next (s.startCores (maskCores g m)) := by
  show execClusterStart ctx vg m s = _
  rw [execClusterStart, State.atClu_eq _ clu up, State.awake_eq _ _ gate]

theorem exec_clusterStop (clu : s.cluOf ctx vg = some g) (up : s.cluUp g = true) :
    exec (.clusterStop ctx vg m) s = .next (s.stopCores (maskCores g m)) := by
  show execClusterStop ctx vg m s = _
  rw [execClusterStop, State.atClu_eq _ clu up]

/-- What a write of the PC makes of a queue (R237). -/
theorem QState.setPc_of_halted (v : W64) (h : x.mode = .ready ∨ x.mode = .stopped ∨ x.mode = .halted ∨ x.mode = .faulted) :
    x.setPc v = { x with mode := .stopped, wcause := .none, pc := BitVec.ofNat 14 (fld v 0 14), loops := [], fetched := none } := by
  have pc : BitVec.ofNat 14 (fld v 0 14) = BitVec.ofNat 14 v.toNat := by
    apply BitVec.eq_of_toNat_eq
    simp [fld]
  rcases h with h | h | h | h <;> simp only [QState.setPc, h, pc]

theorem QState.setPc_of_busy (v : W64) (h : x.mode = .idle ∨ x.mode = .running ∨ x.mode = .waiting ∨ x.mode = .held) :
    x.setPc v = x := by
  rcases h with h | h | h | h <;> simp only [QState.setPc, h]

end StartStop

/-- Settles O32: each command applies START, STOP or the write of the PC to the queues that it names. -/
theorem queuesStartAndStop : Obligations.QueuesStartAndStop := by
  intro ctx s acts started halted
  refine ⟨fun vc m c core up => ⟨fun gate coreUp => ?_, ?_, fun q v => ?_⟩, fun vg m g clu up => ⟨fun gate coresUp => ?_, ?_⟩⟩
  · obtain ⟨frame, queues⟩ := (State.startMask_mapped coreUp).answers (P := started)
      (fun _ _ => and_congr_right' mem_maskQueues.symm) fun c _ => s.startOn_starts c
    exact ⟨_, exec_queueStart core up gate, frame, fun c' q => ⟨fun h => (queues c q).1 ⟨rfl, h.2⟩, (queues c' q).2⟩⟩
  · obtain ⟨frame, queues⟩ := (State.stopQueues_mapped (maskQueues_nodup m)).answers (P := fun _ => halted)
      (fun _ _ => and_congr_right' mem_maskQueues.symm) fun _ _ => QState.stop_stops
    exact ⟨_, exec_queueStop core up, frame, fun c' q => ⟨fun h => (queues c q).1 ⟨rfl, h.2⟩, (queues c' q).2⟩⟩
  · refine ⟨_, exec_pcWrite core up v, rfl, fun c' q' h => (s.queue_setQueue _ _ _ _ _).trans (if_neg h), fun halted => ?_, fun busy => ?_⟩
    · exact (s.queue_setQueue_self _ _ _).trans (QState.setPc_of_halted v halted)
    · exact (s.queue_setQueue_self _ _ _).trans (QState.setPc_of_busy v busy)
  · have coreUp : ∀ c ∈ maskCores g m, s.coreUp c = true := fun c hc => by
      have own := (mem_maskCores.mp hc).1
      exact (show c = 6 * g + c % 6 by omega) ▸ coresUp (c % 6) (Nat.mod_lt _ (by decide))
    obtain ⟨frame, queues⟩ := (State.startCores_mapped (maskCores_nodup g m) coreUp).answers (P := started)
      (fun _ _ => mem_maskCores.symm) fun c _ => s.startOn_starts c
    exact ⟨_, exec_clusterStart clu up gate, frame, queues⟩
  · obtain ⟨frame, queues⟩ := (State.stopCores_mapped (maskCores_nodup g m)).answers (P := fun _ => halted)
      (fun _ _ => mem_maskCores.symm) fun _ _ => QState.stop_stops
    exact ⟨_, exec_clusterStop clu up, frame, queues⟩

end Sys2Proof.Machine

/-! SUPPORT. Writes of bytes that run over several units: what they change, and that they land where memory answers (R331, R332). -/

namespace Sys2Proof.Machine

section WriteRuns

variable {s t u : State} {pa n j k : Nat} {bs : List Byte} {m : List Host.Cell} {poison : Bool}

theorem memRead_append : memRead m pa (j + k) = memRead m pa j ++ memRead m (pa + j) k := by
  simp only [memRead_eq, List.range_add, List.map_append, List.map_map, Function.comp_def, Nat.add_assoc]

/-- `t` is `s` but for memory, its tags, the stacks' pending write-backs and registers. -/
def State.Written (s t : State) : Prop := t = { s with mem := t.mem, tags := t.tags, bases := t.bases, regs := t.regs }

theorem State.Written.refl (s : State) : s.Written s := rfl

theorem State.Written.trans (h : s.Written t) (h' : t.Written u) : s.Written u := by
  unfold State.Written at *
  rw [h] at h'
  exact h'

theorem State.writePart_written : s.Written (s.writePart pa bs poison) := by
  obtain ⟨bs', x, e⟩ := s.writePart_eq pa bs poison
  rw [e]
  exact s.writeUnitX_frame pa bs' x

theorem State.writePart_regs (alive : s.deadAt pa = none) : (s.writePart pa bs poison).regs = s.regs := by
  obtain ⟨bs', x, e⟩ := s.writePart_eq pa bs poison
  rw [e]
  simp only [State.writeUnitX, alive]

/-- A write of bytes is a write of those that its first unit takes, and of the rest behind them. -/
theorem State.writeBytesN_succ (hb : bs ≠ []) : s.writeBytesN pa bs (n + 1) =
    (s.writePart pa (bs.take (64 - pa % 64))).writeBytesN (pa + (64 - pa % 64)) (bs.drop (64 - pa % 64)) n :=
  if_neg hb

theorem State.writeBytesN_nil : s.writeBytesN pa [] n = s := by cases n <;> rfl

theorem State.writeBytesN_written (n : Nat) (s : State) (pa : Nat) (bs : List Byte) : s.Written (s.writeBytesN pa bs n) := by
  induction n generalizing s pa bs with
  | zero => exact .refl s
  | succ n ih =>
    by_cases hb : bs = []
    · rw [hb, State.writeBytesN_nil]
      exact .refl s
    · rw [State.writeBytesN_succ hb]
      exact State.writePart_written.trans (ih _ _ _)

/-- No byte outside the range of a write changes, whether its units answer or not. -/
theorem State.writeBytesN_bytesBut (n : Nat) (s : State) (pa : Nat) (bs : List Byte) :
    s.BytesBut (s.writeBytesN pa bs n) pa bs.length := by
  induction n generalizing s pa bs with
  | zero => exact fun _ _ => rfl
  | succ n ih =>
    by_cases hb : bs = []
    · rw [hb, State.writeBytesN_nil]
      exact fun _ _ => rfl
    · rw [State.writeBytesN_succ hb]
      have len : (bs.take (64 - pa % 64)).length ≤ 64 - pa % 64 ∧ (bs.take (64 - pa % 64)).length ≤ bs.length := by simp
      have first : s.BytesBut (s.writePart pa (bs.take (64 - pa % 64))) pa (bs.take (64 - pa % 64)).length :=
        State.writePart_bytesBut (by omega)
      intro y hy
      refine (ih _ _ _ y ?_).trans (first y (by omega))
      rw [List.length_drop]
      have : 0 < bs.length := List.length_pos_iff.mpr hb
      omega

/-- Where every unit answers, the bytes of a write read back, and no register counts a loss (R332, R337). -/
theorem State.writeBytesN_lands (alive : ∀ i < bs.length, s.deadAt (pa + i) = none) (room : pa % 64 + bs.length ≤ 64 * n) :
    memRead (s.writeBytesN pa bs n).mem pa bs.length = bs ∧ (s.writeBytesN pa bs n).regs = s.regs := by
  induction n generalizing s pa bs with
  | zero =>
    obtain rfl : bs = [] := List.eq_nil_of_length_eq_zero (by omega)
    exact ⟨rfl, rfl⟩
  | succ n ih =>
    by_cases hb : bs = []
    · rw [hb, State.writeBytesN_nil]
      exact ⟨rfl, rfl⟩
    rw [State.writeBytesN_succ hb]
    have pos : 0 < bs.length := List.length_pos_iff.mpr hb
    have here : s.deadAt pa = none := alive 0 pos
    generalize split : 64 - pa % 64 = k
    have first := State.memRead_writePart (poison := false) (bs := bs.take k) here (by rw [List.length_take]; omega)
    have kept : ∀ a, (s.writePart pa (bs.take k)).deadAt a = s.deadAt a :=
      (State.writePart_served (List.mem_singleton.mpr rfl)).deadAt
    obtain ⟨rest, regs⟩ := ih (s := s.writePart pa (bs.take k)) (pa := pa + k) (bs := bs.drop k)
      (fun i hi => by
        rw [List.length_drop] at hi
        rw [kept, Nat.add_assoc]
        exact alive _ (by omega))
      (by rw [List.length_drop]; omega)
    refine ⟨?_, regs.trans (State.writePart_regs here)⟩
    have before : memRead ((s.writePart pa (bs.take k)).writeBytesN (pa + k) (bs.drop k) n).mem pa (bs.take k).length = bs.take k := by
      refine (memRead_congr fun x _ hx => ?_).trans first
      rw [List.length_take] at hx
      exact State.writeBytesN_bytesBut _ _ _ _ x (.inl (by omega))
    by_cases short : bs.length ≤ k
    · rw [List.take_of_length_le short] at before ⊢
      exact before
    · have len : (bs.take k).length = k := by rw [List.length_take]; omega
      rw [len] at before
      rw [show bs.length = k + (bs.drop k).length by rw [List.length_drop]; omega, memRead_append, before, rest, List.take_append_drop]

theorem State.Written.kept (h : s.Written t) : t.queues = s.queues ∧ t.bufs = s.bufs ∧ t.loads = s.loads := by
  rw [h]; exact ⟨rfl, rfl, rfl⟩

end WriteRuns

section Windows

variable {s : State} {ctx c pa n a o : Nat}

theorem State.localPlace_chamber (region : regionOf o = some 2) (leads : s.localPlace ctx o = .mem pa) :
    ∃ c < 96, pa = chamPa c (o % 0x400000) := by
  simp only [State.localPlace, region] at leads
  split at leads
  · next g clu =>
    cases leads
    exact ⟨_, by have := State.cluOf_lt clu; omega, rfl⟩
  · cases leads

theorem State.localPlace_imem (region : regionOf o = some 3) (leads : s.localPlace ctx o = .mem pa) :
    ∃ c < 96, pa = imemPa c (o % 0x40000) := by
  simp only [State.localPlace, region] at leads
  split at leads
  · next g clu =>
    cases leads
    exact ⟨_, by have := State.cluOf_lt clu; omega, rfl⟩
  · cases leads

/-- A range of bytes that the rule of windows accepts lies in the chamber or the instruction memory of one core (R25, R26). -/
theorem State.place_window (place : s.place ctx a = .mem pa) (fits : oneWindow (offOf a) n = true) :
    ∃ c < 96, ∃ o, (pa = chamPa c o ∧ o + n ≤ 0x400000) ∨ (pa = imemPa c o ∧ o + n ≤ 0x30000) := by
  have leads : s.localPlace ctx (offOf a) = .mem pa := State.place_mem place
  unfold oneWindow at fits
  split at fits
  · next region =>
    obtain ⟨c, hc, e⟩ := State.localPlace_chamber region leads
    exact ⟨c, hc, _, .inl ⟨e, of_decide_eq_true fits⟩⟩
  · next region =>
    obtain ⟨c, hc, e⟩ := State.localPlace_imem region leads
    exact ⟨c, hc, _, .inr ⟨e, of_decide_eq_true fits⟩⟩
  · cases fits

/-- The window of a core that is up answers (R28, R400). -/
theorem State.window_alive (place : s.place ctx a = .mem pa) (fits : oneWindow (offOf a) n = true) (up : s.coreUp (windowCore pa) = true)
    {i : Nat} (hi : i < n) : s.deadAt (pa + i) = none := by
  obtain ⟨c, hc, o, ⟨rfl, ho⟩ | ⟨rfl, ho⟩⟩ := State.place_window place fits
  · have own : windowCore (chamPa c o) = c := by unfold windowCore chamPa chamBase imemBase; split <;> omega
    have core : (chamPa c o + i - chamBase) / 0x400000 = c := by unfold chamPa chamBase; omega
    rw [own] at up
    rw [State.deadAt, if_neg (by unfold chamPa chamBase stackEnd; omega), if_neg (by unfold chamPa chamBase galEnd; omega),
      if_pos (by unfold chamPa chamBase chamEnd; omega), core, if_pos up]
  · have own : windowCore (imemPa c o) = c := by unfold windowCore imemPa imemBase; split <;> omega
    have core : (imemPa c o + i - imemBase) / 0x40000 = c := by unfold imemPa imemBase; omega
    rw [own] at up
    rw [State.deadAt, if_neg (by unfold imemPa imemBase stackEnd; omega), if_neg (by unfold imemPa imemBase galEnd; omega),
      if_neg (by unfold imemPa imemBase chamEnd; omega), core, if_pos up]

end Windows

section CoreWrites

variable {s : State} {ctx : Fin 16} {vc : Fin 96} {c pa : Nat} {q : Queue} {v addr : W64} {bs : List Byte}

theorem exec_scalarRegisterWrite (core : s.coreOf ctx vc = some c) (up : s.cluUp (c / 6) = true) (i : Fin 16) :
    exec (.scalarRegisterWrite ctx vc q i v) s = .next (if (s.queue c q).stopped then s.setSreg c q i v else s) := by
  show execScalarRegisterWrite ctx vc q i v s = _
  rw [execScalarRegisterWrite, State.atCore_eq _ core up]

theorem exec_coreSeedWrite (core : s.coreOf ctx vc = some c) (up : s.cluUp (c / 6) = true) (i : Fin 5) :
    exec (.coreSeedWrite ctx vc i v) s =
      .next (if (s.queue c (seedQueue i)).stopped then s.setReg (coreK c (0x800 + 8 * i)) v else s) := by
  show execCoreSeedWrite ctx vc i v s = _
  rw [execCoreSeedWrite, State.atCore_eq _ core up]

theorem exec_dtbaseWrite (core : s.coreOf ctx vc = some c) (up : s.cluUp (c / 6) = true) :
    exec (.dtbaseWrite ctx vc v) s = .next (if s.coreStopped c then s.setFld (coreK c 0xC00) 14 8 (fld v 14 8) else s) := by
  show execDtbaseWrite ctx vc v s = _
  rw [execDtbaseWrite, State.atCore_eq _ core up]

theorem exec_pickWrite (core : s.coreOf ctx vc = some c) (up : s.cluUp (c / 6) = true) :
    exec (.pickWrite ctx vc v) s = .next (s.pickWrite c v) := by
  show execPickWrite ctx vc v s = _
  rw [execPickWrite, State.atCore_eq _ core up]

/-- A write of CORE_PICK takes its two fields, and the alternate mode starts again (R164, R176). -/
theorem State.pickWrite_picks : s.pickWrite c v = { s with regs := (s.pickWrite c v).regs, lastLoser := (s.pickWrite c v).lastLoser } ∧
    s.RegsBut (s.pickWrite c v) [coreK c 0xA00] ∧ (s.pickWrite c v).regFld (coreK c 0xA00) 16 16 = fld v 16 16 ∧
    (s.pickWrite c v).regFld (coreK c 0xA00) 0 2 = fld v 0 2 ∧ tget (s.pickWrite c v).lastLoser c = none ∧
    ∀ c', c' ≠ c → tget (s.pickWrite c v).lastLoser c' = tget s.lastLoser c' := by
  have fields := (s.setFld_only (coreK c 0xA00) 16 16 (fld v 16 16)).trans (State.setFld_only _ (coreK c 0xA00) 0 2 (fld v 0 2))
  refine ⟨rfl, (fields.mono (by simp)).2, ?_, ?_, tget_tdel_self _ _, fun c' h => tget_tdel_ne _ h⟩
  · refine (State.regFld_setFld_ne _ _ _ _ _ _ _ _ (by decide) (.inr (.inr (by decide)))).trans ?_
    exact (s.regFld_setFld_self _ _ _ _ (by decide)).trans (Nat.mod_eq_of_lt (fld_lt _ _ _))
  · exact (State.regFld_setFld_self _ _ _ _ _ (by decide)).trans (Nat.mod_eq_of_lt (fld_lt _ _ _))

/-- Bytes for one window of a core that is up and whose cluster runs reach the core. -/
theorem exec_windowWrite (hb : bs ≠ []) (place : s.place ctx addr.toNat = .mem pa) (fits : oneWindow (offOf addr.toNat) bs.length = true)
    (up : s.coreUp (windowCore pa) = true) (gate : s.gate (windowCore pa / 6) = 0) :
    exec (.windowWrite ctx addr bs) s = .next (s.windowLand pa bs) := by
  have runs : s.windowWrite ctx addr bs = s.windowLand pa bs := by
    simp only [State.windowWrite, if_neg hb, place, fits, Bool.not_true, Bool.false_eq_true, if_false, if_pos up]
    exact State.awake_eq _ _ gate
  exact congrArg Host.Outcome.next runs

end CoreWrites

/-- Settles O33: the registers by one write of a register or a field each; window bytes land unit by unit, since each unit of the window
answers, or are discarded and counted once. -/
theorem coreRegistersAndWindows : Obligations.CoreRegistersAndWindows := by
  refine ⟨fun ctx vc v s c core up => ⟨fun q i => ⟨fun stopped => ?_, fun runs => ?_⟩, fun i => ⟨fun stopped => ?_, fun runs => ?_⟩,
    fun stopped => ?_, fun runs => ?_, ⟨_, exec_pickWrite core up, State.pickWrite_picks⟩⟩,
    fun ctx addr bs s pa hb place fits up gate => ⟨fun stopped => ?_, fun runs => ?_⟩⟩
  · exact ⟨_, (exec_scalarRegisterWrite core up i).trans (congrArg _ (if_pos stopped)), s.reg_setReg_self _ _, s.setReg_only _ _⟩
  · exact (exec_scalarRegisterWrite core up i).trans (congrArg _ (if_neg (by simp [runs])))
  · exact ⟨_, (exec_coreSeedWrite core up i).trans (congrArg _ (if_pos stopped)), s.reg_setReg_self _ _, s.setReg_only _ _⟩
  · exact (exec_coreSeedWrite core up i).trans (congrArg _ (if_neg (by simp [runs])))
  · refine ⟨_, (exec_dtbaseWrite core up).trans (congrArg _ (if_pos stopped)), ?_, s.setFld_only _ _ _ _⟩
    exact (s.regFld_setFld_self _ _ _ _ (by decide)).trans (Nat.mod_eq_of_lt (fld_lt _ _ _))
  · exact (exec_dtbaseWrite core up).trans (congrArg _ (if_neg (by simp [runs])))
  · obtain ⟨landed, regs⟩ := State.writeBytesN_lands (n := bs.length / 64 + 2) (fun i hi => State.window_alive place fits up hi) (by omega)
    obtain ⟨queues, bufs, -⟩ := (State.writeBytesN_written (bs.length / 64 + 2) s pa bs).kept
    exact ⟨_, (exec_windowWrite hb place fits up gate).trans (congrArg _ (if_pos stopped)), landed,
      State.writeBytesN_bytesBut _ _ _ _, regs, queues, bufs⟩
  · refine ⟨_, (exec_windowWrite hb place fits up gate).trans (congrArg _ (if_neg (by simp [runs]))), s.count_only _ _, ?_⟩
    rw [State.reg_count, if_pos rfl]
    rfl

end Sys2Proof.Machine

/-! SUPPORT. INSTRUCTION_COMPLETE: what the oldest entry leaves at its completion, with and without a detected error (R230, R231, R234,
R238, R239, R298, R397). -/

namespace Sys2Proof.Machine

section Retiring

variable {s t : State} {c : Fin 96} {q : Queue} {f : InFlight} {r : List InFlight}

/-- The register write of a completed SLD (R254). -/
def State.posted (s : State) (c : Nat) (q : Queue) (f : InFlight) : State :=
  match f.post with
  | some (i, v) => s.setSreg c q i v
  | none => s

/-- The queue after a completed END (R234). -/
def State.halted (s : State) (c : Nat) (q : Queue) (f : InFlight) : State :=
  if f.op = .end_ then
    s.setQueue c q { s.queue c q with
      mode := if (s.queue c q).mode = .faulted then .faulted else .halted, wcause := .none, loops := [], fetched := none }
  else s

/-- What a completion records: its events and, of the vector engine, its count (R223, R231). -/
def State.recorded (s : State) (c : Nat) (q : Queue) (f : InFlight) : State :=
  if f.op = .vop || f.op = .vxadd then (s.events c q f.events f.optag f.pc).count (coreK c 0xB08) 1
  else s.events c q f.events f.optag f.pc

/-- A completion without an error sends its signal; one with a detected error faults its queue. -/
theorem State.retire_good (good : f.error = none) : s.retire c q f =
    (((((s.recorded c q f).posted c q f).sendSignal c q f).halted c q f).holdQueues c q f.hold).dueRefusal c q := by
  simp only [State.retire, good]
  rfl

theorem State.retire_bad {e : W16} (bad : f.error = some e) : s.retire c q f =
    ((((((s.recorded c q f).posted c q f).enterFault c q (e != Code.UPD_STEP_ORDER) e f.optag f.pc f.errAt
      (((s.recorded c q f).posted c q f).errorUnit c e)).errorTest c e).halted c q f).holdQueues c q f.hold).dueRefusal c q := by
  simp only [State.retire, bad]
  rfl

theorem State.events_only (l : List W16) {optag : W16} {pc : BitVec 14} : s.OnlyRegs (s.events c q l optag pc) [qK c q 0x10] :=
  List.foldlRecOn (motive := fun t => s.OnlyRegs t [qK c q 0x10]) l _ (.refl s _) fun _ before _ _ =>
    (before.trans (State.setReg_only _ _ _)).mono (by simp)

theorem State.recorded_only : s.OnlyRegs (s.recorded c q f) [qK c q 0x10, coreK c 0xB08] := by
  unfold State.recorded
  split
  · exact (State.events_only _).trans (State.count_only _ _ _)
  · exact (State.events_only _).mono (by simp)

/-- The scalar register that a completion writes. -/
def InFlight.postKeys (f : InFlight) (c : Nat) (q : Queue) : List Nat := (f.post.map fun p => qK c q (0x80 + 8 * p.1)).toList

theorem State.posted_only : s.OnlyRegs (s.posted c q f) (f.postKeys c q) := by
  unfold State.posted InFlight.postKeys
  cases f.post with
  | none => exact .refl s _
  | some p => exact s.setReg_only _ _

/-- No completion writes the fault register before its queue is faulted. -/
theorem fault_notMem_postKeys : qK c q 8 ∉ [qK c q 0x10, coreK c 0xB08] ++ f.postKeys c q := by
  have : qnum q < 6 := by cases q <;> decide
  unfold InFlight.postKeys
  cases f.post <;> simp <;> unfold qK coreK <;> omega

theorem State.dueRefusal_none (h : (s.queue c q).refusal = none) : s.dueRefusal c q = s := by
  simp only [State.dueRefusal, h]

theorem exec_instructionComplete (flight : (s.queue c q).inflight = f :: r) (ended : f.work.ended = true) (clocked : s.coreHung c = false) :
    exec (.instructionComplete c q) s = .next ((s.setQueue c q { s.queue c q with inflight := r }).retire c q f) := by
  show execInstructionComplete c q s = _
  simp only [execInstructionComplete, flight, ended, clocked]
  rfl

theorem exec_instructionComplete_kept (flight : (s.queue c q).inflight = f :: r) (h : f.work.ended = false ∨ s.coreHung c = true) :
    exec (.instructionComplete c q) s = .next s := by
  show execInstructionComplete c q s = _
  simp only [execInstructionComplete, flight]
  exact if_neg (by rcases h with h | h <;> simp [h])

end Retiring

section Good

variable {s : State} {c : Fin 96} {q : Queue} {f : InFlight}

/-- The signals on their way once an entry has completed (R298). -/
def State.signalled (s : State) (c : Fin 96) (q : Queue) (f : InFlight) : List Sig :=
  if f.sinc = 0 then s.sigs else s.sigs ++ [{ src := .queue c q, home := f.home, inc := f.sinc, optag := f.optag, pc := f.pc }]

theorem State.sendSignal_eq : s.sendSignal c q f = { s with sigs := s.signalled c q f } := by
  unfold State.sendSignal State.signalled
  split <;> rfl

/-- An END's halt changes its queue alone. -/
theorem State.halted_frame : s.halted c q f = { s with queues := (s.halted c q f).queues } := by
  unfold State.halted
  split <;> rfl

theorem State.halted_queuesBut : s.QueuesBut (s.halted c q f) c q := by
  unfold State.halted
  split
  · exact fun _ _ h => (s.queue_setQueue _ _ _ _ _).trans (if_neg h)
  · exact fun _ _ _ => rfl

theorem State.halted_queue : (s.halted c q f).queue c q = if f.op = .end_ then
    { s.queue c q with
      mode := if (s.queue c q).mode = .faulted then .faulted else .halted, wcause := .none, loops := [], fetched := none }
    else s.queue c q := by
  unfold State.halted
  split
  · exact s.queue_setQueue_self _ _ _
  · rfl

/-- What a completion without a detected error does beyond its records, its holds and a refusal that is due: the register write, the signal
and the END's halt. -/
def State.completed (s : State) (c : Fin 96) (q : Queue) (f : InFlight) : State := ((s.posted c q f).sendSignal c q f).halted c q f

theorem State.posted_queue (c' : Nat) (q' : Queue) : (s.posted c q f).queue c' q' = s.queue c' q' :=
  congrArg (tgetD · _ _) s.posted_only.queues

theorem State.completed_frame : s.completed c q f =
    { s with regs := (s.posted c q f).regs, queues := (s.completed c q f).queues, sigs := s.signalled c q f } := by
  have posted := (s.posted_only (c := c) (q := q) (f := f)).1
  unfold State.completed
  rw [State.halted_frame, State.sendSignal_eq, State.signalled]
  generalize s.posted c q f = t at posted
  rw [posted]
  rfl

theorem State.completed_queue : (s.completed c q f).queue c q = if f.op = .end_ then
    { s.queue c q with
      mode := if (s.queue c q).mode = .faulted then .faulted else .halted, wcause := .none, loops := [], fetched := none }
    else s.queue c q := by
  have sent : ((s.posted c q f).sendSignal c q f).queue c q = s.queue c q := by
    rw [State.sendSignal_eq]
    exact s.posted_queue c q
  rw [State.completed, State.halted_queue, sent]

theorem State.completed_queuesBut : s.QueuesBut (s.completed c q f) c q := fun c' q' h => by
  refine (State.halted_queuesBut c' q' h).trans ?_
  rw [State.sendSignal_eq]
  exact s.posted_queue c' q'

theorem State.retire_plain (good : f.error = none) (quiet : f.events = []) (free : f.hold = .none) (due : (s.queue c q).refusal = none)
    (vop : f.op ≠ .vop) (vxadd : f.op ≠ .vxadd) : s.retire c q f = s.completed c q f := by
  have recorded : s.recorded c q f = s := by simp [State.recorded, vop, vxadd, quiet, State.events]
  rw [State.retire_good good, recorded, free]
  refine State.dueRefusal_none (State.completed_queue.symm ▸ ?_)
  split <;> exact due

end Good

section Bad

variable {s t : State} {c : Fin 96} {q : Queue} {f : InFlight} {code : W16} {h : Hold} {y : W16} {addr : Nat}

theorem State.trigger_sigs : (s.trigger y code addr).sigs = s.sigs := by
  have told : ∀ (r : State) (v : Nat), (r.verdict y v addr).sigs = r.sigs := fun r v => by
    rw [State.verdict, (r.report_reported 0x06 0 y { verdict := v, addr := BitVec.ofNat 64 addr, detail := r.firstError y }).1]
  unfold State.trigger
  dsimp only
  split
  · exact told s 6
  split
  · rfl
  split
  · exact told _ 5
  split
  · exact told _ 4
  · rfl

/-- The engines and the vector engine of a core belong to its die (R14, R395). -/
theorem dieOf_engine {typ n : Nat} (h : 1 ≤ typ ∧ typ ≤ 6) (hn : n < 96) : dieOf (srcOf typ n) < 2 := by
  obtain ⟨type, index⟩ := srcOf_parts (typ := typ) (idx := n) (by omega) (by omega)
  rw [dieOf, type, index]
  obtain ⟨h1, h6⟩ := h
  interval_cases typ <;> show n / 48 < 2 <;> omega

/-- The self-test that a detected error triggers leaves queues, memory, signals and the fault registers alone (R397). -/
theorem State.errorTest_keeps : (s.errorTest c code).queues = s.queues ∧ (s.errorTest c code).mem = s.mem ∧
    (s.errorTest c code).sigs = s.sigs ∧ (s.errorTest c code).reg (qK c q 8) = s.reg (qK c q 8) := by
  have tested : ∀ y, dieOf y < 2 → (s.trigger y code 0).queues = s.queues ∧ (s.trigger y code 0).mem = s.mem ∧
      (s.trigger y code 0).sigs = s.sigs ∧ (s.trigger y code 0).reg (qK c q 8) = s.reg (qK c q 8) := fun y hy => by
    have kept := State.trigger_mxKeeps (s := s) (c := c) (q := q) (i := 0) (code := code) (addr := 0) hy
    exact ⟨State.trigger_queues, kept.mem, State.trigger_sigs, kept.regs _ (not_mxKey_fault c.isLt)⟩
  unfold State.errorTest State.errorUnit
  split
  · next u unit =>
    split at unit
    · cases unit
      exact tested _ (dieOf_engine (by split <;> decide) c.isLt)
    split at unit
    · cases unit
      exact tested _ (dieOf_engine (by decide) c.isLt)
    · cases unit
  · exact ⟨rfl, rfl, rfl, rfl⟩

/-- What a completion holds are queues, and a FAULTED one is none of them (R238, R239). -/
theorem State.holdQueues_frame : s.holdQueues c q h = { s with queues := (s.holdQueues c q h).queues } := by
  cases h with
  | none => rfl
  | own => rfl
  | all => exact (State.mapQueues_mapped (s := s) (c := c) (fun _ => QState.hold) allQueues_nodup).frame

theorem State.holdQueues_faulted (faulted : (s.queue c q).mode = .faulted) : (s.holdQueues c q h).queue c q = s.queue c q := by
  have stays : (s.queue c q).hold = s.queue c q := by simp only [QState.hold, faulted]
  cases h with
  | none => rfl
  | own => exact (s.queue_setQueue_self _ _ _).trans stays
  | all => exact ((State.mapQueues_mapped (fun _ => QState.hold) allQueues_nodup).named c q ⟨rfl, mem_allQueues q⟩).trans stays

/-- After a detected error: the queue is FAULTED with no refusal due, and the fault register names the error unless it holds an earlier one;
no memory and no signal differs. -/
structure State.ErrorAt (s t : State) (c : Nat) (q : Queue) (w : W64) : Prop where
  mode : (t.queue c q).mode = .faulted
  refusal : (t.queue c q).refusal = none
  mem : t.mem = s.mem
  sigs : t.sigs = s.sigs
  fault : s.regBit (qK c q 8) 63 = false → t.reg (qK c q 8) = w

theorem State.enterFault_errorAt {det : Bool} {optag : W16} {pc : BitVec 14} {addr : W64} (unit : Option (W16 × W64)) :
    s.ErrorAt (s.enterFault c q det code optag pc addr unit) c q (faultWord det code optag pc) := by
  obtain ⟨queue, fault⟩ := State.enterFault_own (s := s) (c := c) (q := q) (det := det) (code := code) (optag := optag)
    (pc := pc) (addr := addr) unit
  obtain ⟨mem, -, -, sigs, -⟩ := (State.enterFault_frame (s := s) (c := c) (q := q) (det := det) (code := code) (optag := optag)
    (pc := pc) (addr := addr) unit).1.kept
  exact ⟨by rw [queue]; rfl, by rw [queue]; rfl, mem, sigs, fault⟩

/-- What follows keeps it, as long as the queue stays FAULTED with no refusal due. -/
theorem State.ErrorAt.followed {u : State} {w : W64} (h : s.ErrorAt t c q w) (mode : (u.queue c q).mode = .faulted)
    (refusal : (u.queue c q).refusal = (t.queue c q).refusal) (mem : u.mem = t.mem) (sigs : u.sigs = t.sigs)
    (reg : u.reg (qK c q 8) = t.reg (qK c q 8)) : s.ErrorAt u c q w :=
  ⟨mode, refusal.trans h.refusal, mem.trans h.mem, sigs.trans h.sigs, fun first => reg.trans (h.fault first)⟩

/-- And so does what changed registers before it, other than the fault register. -/
theorem State.ErrorAt.after {u : State} {ks : List Nat} {w : W64} (h : u.ErrorAt t c q w) (only : s.OnlyRegs u ks) (hk : qK c q 8 ∉ ks) :
    s.ErrorAt t c q w := by
  have sigs : u.sigs = s.sigs := by rw [only.1]
  exact ⟨h.mode, h.refusal, h.mem.trans only.mem, h.sigs.trans sigs,
    fun first => h.fault ((congrArg (bitAt · 63) (only.2 _ hk)).trans first)⟩

theorem State.retire_errorAt {e : W16} (bad : f.error = some e) :
    s.ErrorAt (s.retire c q f) c q (faultWord (e != Code.UPD_STEP_ORDER) e f.optag f.pc) := by
  rw [State.retire_bad bad]
  have noted := (s.recorded_only (c := c) (q := q) (f := f)).trans (State.posted_only (c := c) (q := q) (f := f))
  generalize (s.recorded c q f).posted c q f = u at noted
  have entered := (u.enterFault_errorAt (c := c) (q := q) (det := e != Code.UPD_STEP_ORDER) (code := e) (optag := f.optag) (pc := f.pc)
    (addr := f.errAt) (u.errorUnit c e)).after noted fault_notMem_postKeys
  generalize u.enterFault c q (e != Code.UPD_STEP_ORDER) e f.optag f.pc f.errAt (u.errorUnit c e) = v at entered
  have tested : s.ErrorAt (v.errorTest c e) c q (faultWord (e != Code.UPD_STEP_ORDER) e f.optag f.pc) := by
    obtain ⟨queues, mem, sigs, reg⟩ := v.errorTest_keeps (c := c) (q := q) (code := e)
    have queue : (v.errorTest c e).queue c q = v.queue c q := congrArg (tgetD · _ _) queues
    exact entered.followed (queue ▸ entered.mode) (by rw [queue]) mem sigs reg
  generalize v.errorTest c e = x at tested
  have ended : s.ErrorAt (x.halted c q f) c q (faultWord (e != Code.UPD_STEP_ORDER) e f.optag f.pc) := by
    have frame := x.halted_frame (c := c) (q := q) (f := f)
    have mode := tested.mode
    refine tested.followed ?_ ?_ (by rw [frame]) (by rw [frame]) (by rw [frame]; rfl)
    · rw [State.halted_queue]
      split <;> simp [mode]
    · rw [State.halted_queue]
      split <;> rfl
  generalize x.halted c q f = y at ended
  have held : s.ErrorAt (y.holdQueues c q f.hold) c q (faultWord (e != Code.UPD_STEP_ORDER) e f.optag f.pc) := by
    have frame := y.holdQueues_frame (c := c) (q := q) (h := f.hold)
    have queue := y.holdQueues_faulted (h := f.hold) ended.mode
    exact ended.followed (queue ▸ ended.mode) (by rw [queue]) (by rw [frame]) (by rw [frame]) (by rw [frame]; rfl)
  rwa [State.dueRefusal_none held.refusal]

end Bad

/-- Settles O31: the entry that leaves flight is retired, in the order of `State.retire`. -/
theorem completionRetiresTheOldest : Obligations.CompletionRetiresTheOldest := by
  intro c q s f r x flight
  let u := s.setQueue c q { s.queue c q with inflight := r }
  have own : u.queue c q = { s.queue c q with inflight := r } := s.queue_setQueue_self _ _ _
  refine ⟨exec_instructionComplete_kept flight, fun ended clocked good quiet free due vop vxadd => ?_, fun e ended clocked bad => ?_⟩
  · have run := (exec_instructionComplete flight ended clocked).trans
      (congrArg Host.Outcome.next (State.retire_plain (s := u) good quiet free (own ▸ due) vop vxadd))
    have frame := u.completed_frame (c := c) (q := q) (f := f)
    have queue := u.completed_queue (c := c) (q := q) (f := f)
    rw [own] at queue
    refine ⟨_, run, by rw [frame]; rfl, by rw [frame]; rfl, fun c' q' h => ?_, by rw [frame]; rfl, fun other => ?_, fun last => ?_,
      fun none => ?_, fun i v post => ⟨?_, fun k hk => ?_⟩⟩
    · exact (State.completed_queuesBut c' q' h).trans ((s.queue_setQueue c q _ _ _).trans (if_neg h))
    · rw [queue, if_neg other]
    · rw [queue, if_pos last]
    · rw [frame, State.posted, none]
      rfl
    · rw [frame, State.posted, post]
      exact u.reg_setReg_self _ _
    · rw [frame, State.posted, post]
      exact u.reg_setReg_ne _ _ (by simpa using hk)
  · obtain ⟨mode, -, mem, sigs, fault⟩ := State.retire_errorAt (s := u) (c := c) (q := q) bad
    exact ⟨_, exec_instructionComplete flight ended clocked, mode, mem, sigs, fault⟩

end Sys2Proof.Machine

/-! SUPPORT. IMAGE_LOAD: the status of a load, and the queues that a load which every check passes leaves IDLE (R235, R236, R241). -/

namespace Sys2Proof.Machine

section Status

variable {s t : State} {ctx ctx' g n : Nat} {r : W16 × Nat × Nat} {busy : Bool} {bad : Nat}

/-- A report about any context but `ctx` is one about none of the sixteen (R393). -/
theorem State.report_reported_as (s : State) (kind : Nat) (code source : W16) (i : RepInfo) (hctx : i.context < 16 → i.context = ctx) :
    s.Reported (s.report kind code source i) ctx [] := by
  have pushed : ∀ (t : State) (k : Nat) (c u : W16) (x : RepInfo), (x.context < 16 → x.context = ctx) →
      t.Reported (t.pushRecord k c u x) ctx [] := fun t => t.pushRecord_reported
  unfold State.report
  split
  · exact ⟨rfl, fun _ _ => rfl⟩
  · by_cases full : 4096 ≤ s.ring.length + if s.lostSince = 0 then 0 else 1
    · rw [if_pos full]
      exact ((s.countSat_only _ _ _ _).reported (by simp [reportKeys])).trans ⟨rfl, fun _ _ => rfl⟩
    · rw [if_neg full]
      refine State.Reported.trans (t := if s.lostSince = 0 then s else _) ?_ ((pushed _ _ _ _ _ hctx).trans (State.sendDue_reported _ _))
      split
      · exact .refl s ctx []
      · exact (pushed s _ _ _ _ (by simp)).trans ⟨rfl, fun _ _ => rfl⟩

theorem cluK_notMem_reportKeys {o : Nat} (hctx : ctx < 16) : cluK g o ∉ reportKeys ctx := by
  simp only [reportKeys, List.mem_cons, List.not_mem_nil, or_false]
  unfold cluK dieK errK
  omega

/-- CLU_IMG_STATUS after a load has come to the result `r` (R241). -/
def imgStatus (v : W64) (busy : Bool) (r : W16 × Nat × Nat) : W64 :=
  putFld (putFld (putFld (putBit (putBit v 63 busy) 62 true) 32 16 r.1.toNat) 8 16 r.2.1) 0 8 r.2.2

theorem imgStatus_busy (v : W64) : bitAt (imgStatus v busy r) 63 = busy := by
  rw [imgStatus, bitAt_putFld_ne _ _ _ _ _ (by decide) (.inr (by decide)), bitAt_putFld_ne _ _ _ _ _ (by decide) (.inr (by decide)),
    bitAt_putFld_ne _ _ _ _ _ (by decide) (.inr (by decide)), bitAt_putBit_ne _ _ _ _ (by decide) (by decide)]
  exact bitAt_putBit_self _ _ _ (by decide)

theorem imgStatus_code (v : W64) : fld (imgStatus v busy r) 32 16 = r.1.toNat := by
  rw [imgStatus, fld_putFld_ne _ _ _ _ _ _ (by decide) (.inr (by decide)), fld_putFld_ne _ _ _ _ _ _ (by decide) (.inr (by decide)),
    fld_putFld_self _ _ _ _ (by decide)]
  exact Nat.mod_eq_of_lt r.1.isLt

theorem imgStatus_detail (v : W64) : fld (imgStatus v busy r) 0 8 = r.2.2 % 256 := fld_putFld_self _ _ _ _ (by decide)

/-- `t` is `s` with CLU_IMG_STATUS of cluster `g` telling the result `r` of a load, and a report made about it. -/
structure State.LoadTold (s t : State) (ctx g : Nat) (busy : Bool) (r : W16 × Nat × Nat) : Prop where
  reported : s.Reported t ctx [cluK g 0x10]
  busy : t.regBit (cluK g 0x10) 63 = busy
  code : t.regFld (cluK g 0x10) 32 16 = r.1.toNat
  detail : t.regFld (cluK g 0x10) 0 8 = r.2.2 % 256

theorem State.imgEnd_told (hctx : ctx < 16 → ctx = ctx') (hctx' : ctx' < 16) : s.LoadTold (s.imgEnd ctx g busy r bad) ctx' g busy r := by
  have status : s.Reported (s.setReg (cluK g 0x10) (imgStatus (s.reg (cluK g 0x10)) busy r)) ctx' [cluK g 0x10] :=
    (s.setReg_only _ _).reported (by simp)
  obtain ⟨told, reg⟩ : s.Reported (s.imgEnd ctx g busy r bad) ctx' [cluK g 0x10] ∧
      (s.imgEnd ctx g busy r bad).reg (cluK g 0x10) = imgStatus (s.reg (cluK g 0x10)) busy r := by
    unfold State.imgEnd
    dsimp only
    split
    · exact ⟨status, s.reg_setReg_self _ _⟩
    · have told := State.report_reported_as (ctx := ctx') (s.setReg (cluK g 0x10) (imgStatus (s.reg (cluK g 0x10)) busy r)) 0x05
        r.1 (srcOf 0x7 g) { context := ctx, addr := BitVec.ofNat 64 bad, detail := imgStatus (s.reg (cluK g 0x10)) busy r } hctx
      exact ⟨status.trans told.of_report, (told.2 _ (cluK_notMem_reportKeys hctx')).trans (s.reg_setReg_self _ _)⟩
  exact ⟨told, (congrArg (bitAt · 63) reg).trans (imgStatus_busy _), (congrArg (fld · 32 16) reg).trans (imgStatus_code _),
    (congrArg (fld · 0 8) reg).trans (imgStatus_detail _)⟩

/-- What is told of a load wakes no cluster (R429). -/
theorem State.Reported.woken (h : s.Reported t ctx [cluK g n]) : s.woken t = [] := by
  rw [State.woken, List.filter_eq_nil_iff]
  intro i hi
  have kept : t.gate i = s.gate i := by
    refine congrArg (fld · _ _) (h.2 _ ?_)
    have := List.mem_range.mp hi
    simp only [reportKeys, List.mem_append, List.mem_cons, List.not_mem_nil, or_false]
    unfold gateK cluK dieK errK
    omega
  rw [kept]
  cases e : s.gate i == 0 <;> simp [bne, e]

end Status

section Resetting

variable {s t u : State} {c k : Nat} {q : Queue} {sel sel' : Nat → Queue → Prop}

/-- `t` is `s` with the queues that `sel` names as a load leaves them: IDLE with nothing but their count of lost picks, and their scalar
registers at reset (R236 step 4). Registers of these cores may be at reset too, and no register below the cores' differs. -/
structure State.Resets (s t : State) (sel : Nat → Queue → Prop) : Prop where
  frame : t = { s with regs := t.regs, queues := t.queues }
  named : ∀ c q, sel c q → t.queue c q = { lost := (s.queue c q).lost }
  scalars : ∀ c q, sel c q → ∀ i < 16, t.sreg c q i = regReset (qK c q (0x80 + 8 * i))
  others : ∀ c q, ¬sel c q → t.queue c q = s.queue c q
  stays : ∀ k, s.reg k = regReset k → t.reg k = regReset k
  low : ∀ k < 0x20000000, t.reg k = s.reg k

theorem State.Resets.congr (h : s.Resets t sel) (same : ∀ c q, sel' c q ↔ sel c q) : s.Resets t sel' :=
  ⟨h.frame, fun c q hs => h.named c q ((same c q).mp hs), fun c q hs => h.scalars c q ((same c q).mp hs),
    fun c q hs => h.others c q (mt (same c q).mpr hs), h.stays, h.low⟩

/-- Resets one after the other: what the first has reset the second leaves at reset. -/
theorem State.Resets.trans (h : s.Resets t sel) (h' : t.Resets u sel') : s.Resets u fun c q => sel c q ∨ sel' c q := by
  have lost : ∀ c q, (t.queue c q).lost = (s.queue c q).lost := fun c q => by
    by_cases hs : sel c q
    · rw [h.named c q hs]
    · rw [h.others c q hs]
  refine ⟨?_, fun c q hs => ?_, fun c q hs i hi => ?_, fun c q hs => ?_, fun k hk => h'.stays k (h.stays k hk),
    fun k hk => (h'.low k hk).trans (h.low k hk)⟩
  · have frame := h'.frame
    rw [h.frame] at frame
    exact frame
  · by_cases h2 : sel' c q
    · rw [h'.named c q h2, lost]
    · rw [h'.others c q h2, h.named c q (hs.resolve_right h2)]
  · by_cases h2 : sel' c q
    · exact h'.scalars c q h2 i hi
    · exact h'.stays _ (h.scalars c q (hs.resolve_right h2) i hi)
  · obtain ⟨h1, h2⟩ := not_or.mp hs
    rw [h'.others c q h2, h.others c q h1]

theorem State.Resets.foldl {α : Type} {F : State → α → State} {of : α → Nat → Queue → Prop} (l : List α)
    (step : ∀ (t : State) a, a ∈ l → t.Resets (F t a) (of a)) : s.Resets (l.foldl F s) fun c q => ∃ a ∈ l, of a c q := by
  induction l generalizing s with
  | nil => exact ⟨rfl, fun _ _ ⟨_, h, _⟩ => (List.not_mem_nil h).elim, fun _ _ ⟨_, h, _⟩ => (List.not_mem_nil h).elim,
      fun _ _ _ => rfl, fun _ h => h, fun _ _ => rfl⟩
  | cons a l ih =>
    exact ((step s a (.head l)).trans (ih fun t b hb => step t b (.tail a hb))).congr fun c q => by simp

/-- Clearing registers of a core resets no queue. -/
theorem State.clearReg_resets (hk : 0x20000000 ≤ k) : s.Resets (s.clearReg k) fun _ _ => False := by
  refine ⟨rfl, fun _ _ h => h.elim, fun _ _ h => h.elim, fun _ _ _ => rfl, fun j hj => ?_, fun j hj => ?_⟩
  · rw [State.reg_clearReg]
    split
    · next e => rw [e]
    · exact hj
  · rw [State.reg_clearReg, if_neg (by omega)]

theorem State.clearRegs_resets {f : Nat → Nat} (l : List Nat) (hf : ∀ i, 0x20000000 ≤ f i) :
    s.Resets (l.foldl (fun t i => t.clearReg (f i)) s) fun _ _ => False :=
  (State.Resets.foldl l fun t i _ => t.clearReg_resets (hf i)).congr fun _ _ => by simp

/-- Every register of a list that is cleared reads its reset value. -/
theorem State.clearRegs_reg {f : Nat → Nat} (l : List Nat) (hf : ∀ i, 0x20000000 ≤ f i) {i : Nat} (hi : i ∈ l) :
    (l.foldl (fun t i => t.clearReg (f i)) s).reg (f i) = regReset (f i) := by
  induction l generalizing s with
  | nil => cases hi
  | cons a l ih =>
    rcases List.mem_cons.mp hi with rfl | hi
    · exact (State.clearRegs_resets l hf).stays _ (by rw [State.reg_clearReg, if_pos rfl])
    · exact ih hi

theorem qK_core (c : Nat) (q : Queue) (o : Nat) : 0x20000000 ≤ qK c q o := by unfold qK coreK; omega

/-- Step 4 of R236 for one queue: the queue, its two fault logs and its scalar registers. -/
def State.imgResetQueue (s : State) (c : Nat) (q : Queue) : State :=
  (List.range 16).foldl (fun t i => t.clearReg (qK c q (0x80 + 8 * i)))
    (((s.setQueue c q { lost := (s.queue c q).lost }).clearReg (qK c q 8)).clearReg (qK c q 0x10))

theorem State.imgResetQueue_resets : s.Resets (s.imgResetQueue c q) fun c' q' => c' = c ∧ q' = q := by
  unfold State.imgResetQueue
  have logs := (State.clearReg_resets (s := s.setQueue c q { lost := (s.queue c q).lost }) (qK_core c q 8)).trans
    (State.clearReg_resets (qK_core c q 0x10))
  have all := (logs.trans (State.clearRegs_resets (List.range 16) fun i => qK_core c q (0x80 + 8 * i))).congr
    (sel' := fun _ _ => False) fun _ _ => by simp
  refine ⟨all.frame, ?_, ?_, fun c' q' h => ?_, all.stays, all.low⟩
  · rintro _ _ ⟨rfl, rfl⟩
    exact (all.others _ _ not_false).trans (s.queue_setQueue_self _ _ _)
  · rintro _ _ ⟨rfl, rfl⟩ i hi
    exact State.clearRegs_reg _ (fun i => qK_core _ _ (0x80 + 8 * i)) (List.mem_range.mpr hi)
  · exact (all.others _ _ not_false).trans ((s.queue_setQueue _ _ _ _ _).trans (if_neg h))

theorem State.imgReset_eq : s.imgReset c =
    (((List.range 5).foldl (fun s i => s.clearReg (coreK c (0x800 + 8 * i))) (allQueues.foldl (fun s q => s.imgResetQueue c q) s)).clearReg
      (coreK c 0x10)).clearReg (coreK c 0x18) := rfl

theorem coreK_core (c o : Nat) : 0x20000000 ≤ coreK c o := by unfold coreK; omega

theorem State.imgReset_resets : s.Resets (s.imgReset c) fun c' _ => c' = c := by
  rw [State.imgReset_eq]
  have queues : s.Resets (allQueues.foldl (fun s q => s.imgResetQueue c q) s) _ :=
    State.Resets.foldl (of := fun q c' q' => c' = c ∧ q' = q) allQueues fun t q _ => t.imgResetQueue_resets
  have seeds := queues.trans (State.clearRegs_resets (List.range 5) fun i => coreK_core c (0x800 + 8 * i))
  exact ((seeds.trans (State.clearReg_resets (coreK_core c 0x10))).trans (State.clearReg_resets (coreK_core c 0x18))).congr
    fun c' q' => by simp [mem_allQueues]

/-- The queues of a list of cores as a load leaves them. -/
theorem State.imgResets_resets (cs : List Nat) : s.Resets (cs.foldl State.imgReset s) fun c _ => c ∈ cs :=
  (State.Resets.foldl (of := fun a c _ => c = a) cs fun t c _ => t.imgReset_resets).congr fun c q => by simp

end Resetting

section Opening

variable {s t : State} {ctx vg : Fin 16} {g base : Nat} {h : List Byte} {e : W16 × Nat × Nat}

theorem State.orWait_eq (i : Instr) (h : s.woken t = []) : s.orWait i t = t := by
  simp only [State.orWait, h]

/-- A load in a cluster that is up and runs happens at once when what it reads wakes no cluster (R236, R429). -/
theorem exec_imageLoad (clu : s.cluOf ctx vg = some g) (up : s.cluUp g = true) (gate : s.gate g = 0) (load : s.imageLoad ctx g = t)
    (wakes : s.woken t = []) : exec (.imageLoad ctx vg) s = .next t := by
  show execImageLoad ctx vg s = _
  rw [execImageLoad, State.atClu_eq _ clu up, State.loadAwake, State.awake_eq _ _ gate, load, State.orWait_eq _ wakes]

theorem State.imageLoad_busy (runs : (tget s.loads g).isSome = true) :
    s.imageLoad ctx g = s.imgEnd ctx g true (Code.IMAGE_BUSY, 0xFFFF, 0x0A) := if_pos runs

theorem State.imageLoad_opens (free : tget s.loads g = none) : s.imageLoad ctx g =
    (s.touchedAll ctx (s.imgRanges ctx (s.regFld (cluK g 0) 6 40 * 64))).imgOpen ctx g (s.regFld (cluK g 0) 6 40 * 64) :=
  if_neg (by simp [free])

theorem State.imgOpen_unread (h : s.imgHead ctx base = none) : s.imgOpen ctx g base =
    s.imgEnd ctx g false (Code.IMAGE_READ_FAULT, 0xFFFF, 0x0B) (s.imgHeadBad ctx base) := by
  simp only [State.imgOpen, h]

theorem State.imgOpen_checked (head : s.imgHead ctx base = some h) (stopped : ∀ c ∈ maskCores g (imgMask h), s.coreStopped c = true)
    (invalid : imgChecks h = some e) : s.imgOpen ctx g base = s.imgEnd ctx g false e := by
  have idle : ((maskCores g (imgMask h)).any fun c => !s.coreStopped c) = false := by simpa using stopped
  simp only [State.imgOpen, head, idle, invalid]
  rfl

/-- `s` with a load of cluster `g` under way, its cores as step 4 of R236 leaves them. -/
def State.loading (s : State) (ctx g base : Nat) (h : List Byte) : State :=
  let t := (maskCores g (imgMask h)).foldl State.imgReset s
  { t.setBit (cluK g 0x10) 63 true with loads := tset t.loads g { ctx := ctx, base := base, head := h } }

theorem State.imgOpen_loads (head : s.imgHead ctx base = some h) (stopped : ∀ c ∈ maskCores g (imgMask h), s.coreStopped c = true)
    (valid : imgChecks h = none) (there : s.imgTargets g h = none) : s.imgOpen ctx g base = s.loading ctx g base h := by
  have idle : ((maskCores g (imgMask h)).any fun c => !s.coreStopped c) = false := by simpa using stopped
  simp only [State.imgOpen, head, idle, valid, there, Option.or_none]
  rfl

/-- What a load under way has changed (R236 step 4). -/
theorem State.loading_starts : (s.loading ctx g base h).mem = s.mem ∧ (s.loading ctx g base h).bufs = s.bufs ∧
    tget (s.loading ctx g base h).loads g = some { ctx := ctx, base := base, head := h } ∧
    (s.loading ctx g base h).regBit (cluK g 0x10) 63 = true ∧
    (∀ c q, c ∈ maskCores g (imgMask h) → (s.loading ctx g base h).queue c q = { lost := (s.queue c q).lost } ∧
      ∀ i : Fin 16, (s.loading ctx g base h).sreg c q i = State.reset.sreg c q i) ∧
    ∀ c q, c ∉ maskCores g (imgMask h) → (s.loading ctx g base h).queue c q = s.queue c q := by
  obtain ⟨frame, named, scalars, others, -, -⟩ := s.imgResets_resets (maskCores g (imgMask h))
  unfold State.loading
  generalize (maskCores g (imgMask h)).foldl State.imgReset s = t at frame named scalars others
  refine ⟨by rw [frame]; rfl, by rw [frame]; rfl, tget_tset_self _ _ _, t.regBit_setBit_self _ _ _ (by decide),
    fun c q hc => ⟨named c q hc, fun i => ?_⟩, others⟩
  have apart : qK c q (0x80 + 8 * i) ≠ cluK g 0x10 := by unfold qK coreK cluK; omega
  exact ((t.reg_setBit _ _ _ _).trans (if_neg apart)).trans (scalars c q hc i i.isLt)

end Opening

end Sys2Proof.Machine

/-! SUPPORT. IMAGE_LOAD_END: which bytes its sections may change, and the queues that it readies (R235, R236, R241). -/

namespace Sys2Proof.Machine

section Sections

variable {s t u : State} {ctx c g n k pa src piece : Nat} {out : Nat → Prop} {l : Load} {bs : List Byte}

theorem State.queue_congr {q : Queue} (h : t.queues = s.queues) : t.queue c q = s.queue c q := congrArg (tgetD · _ _) h

/-- `t` follows `s` by the copying of sections: no queue and no load differs, and no byte at an address that `out` names. -/
structure State.Copied (s t : State) (out : Nat → Prop) : Prop where
  queues : t.queues = s.queues
  loads : t.loads = s.loads
  bytes : ∀ a, out a → memByte t.mem a = memByte s.mem a

theorem State.Copied.refl (s : State) (out : Nat → Prop) : s.Copied s out := ⟨rfl, rfl, fun _ _ => rfl⟩

theorem State.Copied.trans (h : s.Copied t out) (h' : t.Copied u out) : s.Copied u out :=
  ⟨h'.queues.trans h.queues, h'.loads.trans h.loads, fun a ha => (h'.bytes a ha).trans (h.bytes a ha)⟩

theorem State.OnlyRegs.copied {ks : List Nat} (h : s.OnlyRegs t ks) : s.Copied t out := by
  rw [h.1]; exact ⟨rfl, rfl, fun _ _ => rfl⟩

theorem State.Reported.copied {ks : List Nat} (h : s.Reported t ctx ks) : s.Copied t out := by
  rw [h.1]; exact ⟨rfl, rfl, fun _ _ => rfl⟩

theorem State.writeBytes_copied (h : ∀ a, out a → a < pa ∨ pa + bs.length ≤ a) : s.Copied (s.writeBytes pa bs) out := by
  obtain ⟨queues, -, loads⟩ := (State.writeBytesN_written (bs.length / 64 + 2) s pa bs).kept
  exact ⟨queues, loads, fun a ha => State.writeBytesN_bytesBut _ _ _ _ a (h a ha)⟩

theorem State.touched_copied (addr : Nat) : s.Copied (s.touched ctx addr n) out :=
  (State.wakeAll_only _).copied.trans (State.touchedAt_reported _).copied

theorem State.imgBad_copied (addr : Nat) : s.Copied (s.imgBad ctx c addr n).1 out := by
  unfold State.imgBad
  split
  · exact .refl s out
  · exact State.memErr_only.copied

theorem State.imgRead_length {addr : Nat} (h : s.imgRead ctx addr n = some bs) : bs.length ≤ n := by
  unfold State.imgRead at h
  dsimp only at h
  split at h
  · cases h
  · cases h
    exact List.length_take_le _ _

/-- A section's pieces lie one after the other in its range. -/
theorem State.imgCopy_copied (n : Nat) (s : State) (src pa : Nat) (h : ∀ a, out a → a < pa ∨ pa + piece * n ≤ a) :
    s.Copied (s.imgCopy ctx c src pa piece n).1 out := by
  induction n generalizing s src pa with
  | zero => exact .refl s out
  | succ n ih =>
    have range : piece * (n + 1) = piece + piece * n := by rw [Nat.mul_succ, Nat.add_comm]
    have touched : s.Copied (s.touched ctx src piece) out := State.touched_copied src
    unfold State.imgCopy
    dsimp only
    split
    · exact touched.trans (State.imgBad_copied src)
    · next bs read =>
      have len := State.imgRead_length read
      refine (touched.trans (State.writeBytes_copied fun a ha => ?_)).trans (ih _ _ _ fun a ha => ?_)
      · have := h a ha
        omega
      · have := h a ha
        omega

/-- Where section `i` of a load lands (R235). -/
def Load.secPa (l : Load) (g i : Nat) : Nat :=
  if (imgSec l.head i).type = 0 then imemPa (6 * g + (imgSec l.head i).core) (imgSec l.head i).dst
  else chamPa (6 * g + (imgSec l.head i).core) (imgSec l.head i).dst

/-- A section fills its range with zeros, or copies it piece by piece; how its reads and its CRC end it decides only the result (R236). -/
theorem State.imgSectionRun_state (i : Nat) : (s.imgSectionRun g l i).1 =
    if (imgSec l.head i).type = 2 then s.writeBytes (l.secPa g i) (zeros (imgSec l.head i).len)
    else (s.imgCopy l.ctx (6 * g + (imgSec l.head i).core) (l.base + (imgSec l.head i).src) (l.secPa g i)
      (if (imgSec l.head i).type = 0 then 16 else 64)
      ((imgSec l.head i).len / if (imgSec l.head i).type = 0 then 16 else 64)).1 := by
  unfold State.imgSectionRun Load.secPa
  by_cases zero : (imgSec l.head i).type = 2
  · simp only [if_pos zero]
  · simp only [if_neg zero]
    generalize State.imgCopy s _ _ _ _ _ _ = r
    obtain ⟨u, bs, bad⟩ := r
    cases bad with
    | none => dsimp only; split <;> rfl
    | some b => rfl

/-- A section changes no byte outside its range, however it ends. -/
theorem State.imgSectionRun_copied (i : Nat) (h : ∀ a, out a → a < l.secPa g i ∨ l.secPa g i + (imgSec l.head i).len ≤ a) :
    s.Copied (s.imgSectionRun g l i).1 out := by
  rw [State.imgSectionRun_state]
  split
  · exact State.writeBytes_copied fun a ha => by rw [zeros, List.length_replicate]; exact h a ha
  · refine State.imgCopy_copied _ _ _ _ fun a ha => ?_
    have := h a ha
    have := Nat.mul_div_le (imgSec l.head i).len (if (imgSec l.head i).type = 0 then 16 else 64)
    omega

theorem State.imgSections_copied (n : Nat) (s : State) (i : Nat)
    (h : ∀ j, i ≤ j → j < i + n → ∀ a, out a → a < l.secPa g j ∨ l.secPa g j + (imgSec l.head j).len ≤ a) :
    s.Copied (s.imgSections g l i n).1 out := by
  induction n generalizing s i with
  | zero => exact .refl s out
  | succ n ih =>
    have first : s.Copied (s.imgSectionRun g l i).1 out := State.imgSectionRun_copied i (h i (le_refl i) (by omega))
    unfold State.imgSections
    split
    · next t d run =>
      rw [run] at first
      exact first.trans (ih t (i + 1) fun j hl hr => h j (by omega) (by omega))
    · exact first

end Sections

section Readying

variable {s t : State} {c g k : Nat} {q : Queue} {h : List Byte} {l : Load}

/-- A queue given its entry PC by a load, READY or running (R236 step 6). -/
def imgEntered (h : List Byte) (k : Nat) (q : Queue) (x : QState) : QState :=
  { x with mode := if (imgFld h 9 1).testBit 0 then .running else .ready, pc := BitVec.ofNat 14 (imgFld h (0x40 + 32 * k + 4 + 2 * qnum q) 2) }

theorem State.imgReady_mapped : s.Mapped (s.imgReady g h k)
    (fun c q => c = 6 * g + k ∧ (imgFld h (0x41 + 32 * k) 1).testBit (qnum q) = true) fun c => imgEntered h (c - 6 * g) := by
  have mask : 0x41 + 32 * k = 0x40 + 32 * k + 1 := by omega
  have own : s.Mapped (s.imgReady g h k)
      (fun c q => c = 6 * g + k ∧ q ∈ allQueues.filter fun q => (imgFld h (0x40 + 32 * k + 1) 1).testBit (qnum q))
      fun _ => imgEntered h k := State.mapQueues_mapped (imgEntered h k) (allQueues_nodup.filter _)
  refine (own.congr fun c q => ?_).congr_rule fun c q x hs => ?_
  · simp [mem_allQueues, mask]
  · rw [hs.1, Nat.add_sub_cancel_left]

/-- The queues that a load which succeeds readies: those that the table of its cores names. -/
def Load.readies (l : Load) (g c : Nat) (q : Queue) : Prop :=
  ∃ k < 6, (imgMask l.head).getLsbD k = true ∧ c = 6 * g + k ∧ (imgFld l.head (0x41 + 32 * k) 1).testBit (qnum q) = true

theorem Load.readies_iff {k : Fin 6} : l.readies g (6 * g + k) q ↔
    (imgMask l.head).getLsbD k = true ∧ (imgFld l.head (0x41 + 32 * k) 1).testBit (qnum q) = true := by
  refine ⟨fun ⟨j, _, mask, same, named⟩ => ?_, fun ⟨mask, named⟩ => ⟨k, k.isLt, mask, rfl, named⟩⟩
  obtain rfl : (k : Nat) = j := by omega
  exact ⟨mask, named⟩

theorem imgEntered_core {x : QState} : imgEntered h (6 * g + k - 6 * g) q x =
    { x with mode := if (imgFld h 9 1).testBit 0 then .running else .ready,
             pc := BitVec.ofNat 14 (imgFld h (0x44 + 32 * k + 2 * qnum q) 2) } := by
  rw [Nat.add_sub_cancel_left, imgEntered, show 0x40 + 32 * k + 4 = 0x44 + 32 * k by omega]

theorem State.imgReadied_mapped :
    s.Mapped (((List.range 6).filter fun k => (imgMask l.head).getLsbD k).foldl (fun s k => s.imgReady g l.head k) s)
      (l.readies g) fun c => imgEntered l.head (c - 6 * g) := by
  refine (State.Mapped.foldl (F := fun s k => s.imgReady g l.head k) (g := fun c => imgEntered l.head (c - 6 * g))
    ((List.range 6).filter fun k => (imgMask l.head).getLsbD k) ?_ fun t k _ _ => State.imgReady_mapped).congr fun c q => ?_
  · exact (List.nodup_range.filter _).imp fun ne c q h h' => ne (by have := h.1; have := h'.1; omega)
  · simp [Load.readies, and_assoc]

end Readying

section Finishing

variable {s : State} {g : Nat} {l : Load}

/-- `s` after the sections of a load, and how they ended (R236 step 5). -/
def State.sectionsRun (s : State) (g : Nat) (l : Load) : State × ImgRes × Nat :=
  ({ s with loads := tdel s.loads g } : State).imgSections g l 0 (imgNsec l.head)

theorem State.sectionsRun_copied : ({ s with loads := tdel s.loads g } : State).Copied (s.sectionsRun g l).1 fun a =>
    ∀ i, i < imgNsec l.head → a < l.secPa g i ∨ l.secPa g i + (imgSec l.head i).len ≤ a :=
  State.imgSections_copied _ _ _ fun j _ hj _ ha => ha j (by omega)

/-- While no cluster is gated a load ends at once (R429). -/
theorem exec_imageLoadEnd {g : Fin 16} (load : tget s.loads g = some l) (ha : s.Awake) :
    exec (.imageLoadEnd g) s = .next (s.imgFinish g l) := by
  show execImageLoadEnd g s = _
  simp only [execImageLoadEnd, load, ha.unlessGated]

theorem State.imgFinish_eq {g : Fin 16} (ha : s.Awake) : s.imgFinish g l =
    match (s.sectionsRun g l).2.1 with
    | some e => (s.sectionsRun g l).1.imgEnd l.ctx g false e (s.sectionsRun g l).2.2
    | none => (((List.range 6).filter fun k => (imgMask l.head).getLsbD k).foldl (fun s k => s.imgReady g l.head k)
        (s.sectionsRun g l).1).imgEnd l.ctx g false (0, 0, 0) := by
  have awake : s.wakeFor (chamPa (6 * g) 0) = s := ha.wakeFor fun _ => by
    have := g.isLt
    unfold windowCore chamPa chamBase imemBase
    split <;> omega
  simp only [State.imgFinish, awake]
  rfl

/-- Whatever sections a load has copied, telling its result keeps them. -/
theorem State.LoadTold.copied {t : State} {ctx : Nat} {busy : Bool} {r : W16 × Nat × Nat} {out : Nat → Prop}
    (h : s.LoadTold t ctx g busy r) : s.Copied t out := h.reported.copied

/-- A load whose sections end with a code is told that code, and no queue is readied (R236 step 5). -/
theorem State.imgFinish_failed {g : Fin 16} (ha : s.Awake) {e : W16 × Nat × Nat} (failed : (s.sectionsRun g l).2.1 = some e) :
    (s.sectionsRun g l).1.LoadTold (s.imgFinish g l) (l.ctx % 16) g false e := by
  rw [State.imgFinish_eq ha, failed]
  exact State.imgEnd_told (fun h => (Nat.mod_eq_of_lt h).symm) (Nat.mod_lt _ (by decide))

/-- A load whose sections all land readies the queues named and is told without a code (R236 step 6). -/
theorem State.imgFinish_succeeded {g : Fin 16} (ha : s.Awake) (done : (s.sectionsRun g l).2.1 = none) :
    ∃ u, (s.sectionsRun g l).1.Mapped u (l.readies g) (fun c => imgEntered l.head (c - 6 * g)) ∧
      u.LoadTold (s.imgFinish g l) (l.ctx % 16) g false (0, 0, 0) := by
  refine ⟨_, State.imgReadied_mapped, ?_⟩
  rw [State.imgFinish_eq ha, done]
  exact State.imgEnd_told (fun h => (Nat.mod_eq_of_lt h).symm) (Nat.mod_lt _ (by decide))

end Finishing

/-- Settles O34: a load is told, or its cores' queues are reset and it is under way; at its end the sections change their ranges alone, and
then the queues named are readied or the code is told. -/
theorem imagesLoad : Obligations.ImagesLoad := by
  refine ⟨?_, ?_⟩
  · intro ctx vg s g clu up gate base
    refine ⟨fun busy => ?_, fun h free openT head stopped valid there => ?_, fun free ha unread => ?_,
      fun h e free openT head stopped invalid => ?_⟩
    · have told : s.LoadTold (s.imgEnd ctx g true (Code.IMAGE_BUSY, 0xFFFF, 0x0A)) ctx g true _ := State.imgEnd_told (fun _ => rfl) ctx.isLt
      exact ⟨_, exec_imageLoad clu up gate (State.imageLoad_busy busy) told.reported.woken, told.reported, told.busy, told.code⟩
    · have run : s.imageLoad ctx g = s.loading ctx g base h := by
        rw [State.imageLoad_opens free, openT.touchedAll, State.imgOpen_loads head stopped valid there]
      exact ⟨_, exec_imageLoad clu up gate run (openT.1.woken _), State.loading_starts⟩
    · have told : (s.touchedAll ctx (s.imgRanges ctx base)).LoadTold ((s.touchedAll ctx (s.imgRanges ctx base)).imgEnd ctx g false
          (Code.IMAGE_READ_FAULT, 0xFFFF, 0x0B) ((s.touchedAll ctx (s.imgRanges ctx base)).imgHeadBad ctx base)) ctx g false _ :=
        State.imgEnd_told (fun _ => rfl) ctx.isLt
      have run := (State.imageLoad_opens (ctx := ctx) free).trans (State.imgOpen_unread unread)
      exact ⟨_, exec_imageLoad clu up gate run (ha.woken _), (ha.touchedAt_reported _).of_report.trans told.reported,
        told.busy, told.code, told.detail⟩
    · have told : s.LoadTold (s.imgEnd ctx g false e) ctx g false e := State.imgEnd_told (fun _ => rfl) ctx.isLt
      have run : s.imageLoad ctx g = s.imgEnd ctx g false e := by
        rw [State.imageLoad_opens free, openT.touchedAll, State.imgOpen_checked head stopped invalid]
      exact ⟨_, exec_imageLoad clu up gate run told.reported.woken, told.reported, told.busy, told.code⟩
  · intro g s l load ha r
    have ran := State.sectionsRun_copied (s := s) (g := g) (l := l)
    cases ended : (s.sectionsRun g l).2.1 with
    | some e =>
      have told := State.imgFinish_failed ha ended
      have copied := ran.trans told.copied
      refine ⟨_, exec_imageLoadEnd load ha, ?_, told.busy, copied.bytes, fun e' failed => ?_, fun done => ?_⟩
      · exact (congrArg (tget · _) copied.loads).trans (tget_tdel_self _ _)
      · obtain rfl := Option.some.inj (ended.symm.trans failed)
        exact ⟨copied.queues, told.code⟩
      · exact absurd (ended.symm.trans done) (Option.some_ne_none e)
    | none =>
      obtain ⟨u, readied, told⟩ := State.imgFinish_succeeded ha ended
      have kept := told.copied (out := fun _ => True)
      have queue : ∀ c q, (s.imgFinish g l).queue c q = u.queue c q := fun _ _ => State.queue_congr kept.queues
      have before : ∀ c q, (s.sectionsRun g l).1.queue c q = s.queue c q := fun _ _ => State.queue_congr ran.queues
      refine ⟨_, exec_imageLoadEnd load ha, ?_, told.busy, fun a out => ?_, fun e failed => ?_,
        fun _ => ⟨told.code, fun k q => ⟨fun mask named => ?_, fun unnamed => ?_⟩⟩⟩
      · rw [kept.loads, readied.frame, ran.loads, tget_tdel_self]
      · rw [kept.bytes a trivial, readied.frame, ran.bytes a out]
      · exact absurd (ended.symm.trans failed) (Option.some_ne_none e).symm
      · rw [queue, readied.named _ q (Load.readies_iff.mpr ⟨mask, named⟩), before, imgEntered_core]
      · have other : ¬l.readies g (6 * g + k) q := fun h => by
          obtain ⟨mask, named⟩ := Load.readies_iff.mp h
          rcases unnamed with no | no
          · exact absurd (mask.symm.trans no) (by decide)
          · exact absurd (named.symm.trans no) (by decide)
        rw [queue, readied.others _ q other, before]

end Sys2Proof.Machine

/-! SUPPORT. Instruction words: what the fields of an encoded instruction hold, and what the fields of a word encode to (R242, R247). -/

namespace Sys2Proof

section Words

variable {o : Op} {w : InstrWord} {b : BitVec 128} {x : BitVec 8}

theorem mem_allOps (o : Op) : o ∈ allOps := by cases o <;> decide

theorem opCode_injective : Function.Injective opCode := by
  intro o o' h
  have all : ∀ p ∈ allOps, ∀ p' ∈ allOps, opCode p = opCode p' → p = p' := by decide
  exact all o (mem_allOps o) o' (mem_allOps o') h

/-- An opcode names the operation whose code it is (R247). -/
theorem opOf_opCode (o : Op) : opOf (opCode o) = some o := by
  cases found : opOf (opCode o) with
  | none => simpa using List.find?_eq_none.mp found o (mem_allOps o)
  | some p =>
    have same : opCode p = opCode o := by simpa using List.find?_some found
    rw [opCode_injective same]

theorem opCode_of_opOf (h : opOf x = some o) : opCode o = x := by simpa using List.find?_some h

theorem opOf_eq_none : opOf x = none ↔ ∀ o, opCode o ≠ x := by
  simp [opOf, List.find?_eq_none, mem_allOps]

/-- The opcode lies above the eleven fields of the frame (R242). -/
theorem opField_encode : opField (encode o w) = opCode o := by
  unfold opField encode
  iterate 11 rw [BitVec.extractLsb'_append_eq_of_le (by decide)]
  exact BitVec.extractLsb'_eq_self

theorem ofBool_getLsbD (i : Nat) : BitVec.ofBool (b.getLsbD i) = b.extractLsb' i 1 := by
  rw [BitVec.getLsbD_eq_extractLsb']
  generalize b.extractLsb' i 1 = y
  revert y
  decide

/-- The fields of a word and its opcode, put together again, are the word (R242). -/
theorem encode_frameOf (h : opCode o = opField b) : encode o (frameOf b) = b := by
  simp only [encode, frameOf, h, opField, ofBool_getLsbD]
  iterate 11 rw [BitVec.extractLsb'_append_extractLsb'_eq_extractLsb' (by decide)]
  exact BitVec.extractLsb'_eq_self

theorem bitVec_append_inj {m n : Nat} {h h' : BitVec m} {l l' : BitVec n} : h ++ l = h' ++ l' ↔ h = h' ∧ l = l' := by
  refine ⟨fun e => ⟨?_, ?_⟩, fun ⟨high, low⟩ => by rw [high, low]⟩
  · simpa only [BitVec.extractLsb'_append_eq_left] using congrArg (BitVec.extractLsb' n m) e
  · simpa only [BitVec.extractLsb'_append_eq_right] using congrArg (BitVec.extractLsb' 0 n) e

/-- Instructions of one operation that are encoded alike have the same frame: every field stands in the word (R242). -/
theorem encode_injective : Function.Injective (encode o) := by
  rintro ⟨⟩ ⟨⟩ h
  obtain ⟨upper, operands⟩ := bitVec_append_inj.mp h
  simp only [bitVec_append_inj, BitVec.ofBool_eq_iff_eq, true_and] at upper
  simpa only [InstrWord.mk.injEq, and_assoc] using And.intro upper operands

theorem frameOf_encode : frameOf (encode o w) = w := encode_injective (encode_frameOf opField_encode.symm)

end Words

/-- Settles O3: the fields of an encoded word and the fields of a word that is encoded again are each read off one by one. -/
theorem decodeOfEncode : Obligations.DecodeOfEncode := by
  refine ⟨fun o w => ?_, fun b o w h => ?_, fun b => ?_⟩
  · rw [decode, opField_encode, opOf_opCode, frameOf_encode]
    rfl
  · obtain ⟨p, op, same⟩ := Option.map_eq_some_iff.mp h
    cases same
    exact encode_frameOf (opCode_of_opOf op)
  · rw [decode, Option.map_eq_none_iff, opOf_eq_none]

end Sys2Proof

/-! SUPPORT. Instructions that issue with no check of their own: the wait that they take, and the result that a scalar instruction writes
(R232, R250, R253, R296). -/

namespace Sys2Proof.Machine

section Waits

variable {s : State} {c : Fin 96} {q : Queue} {w : InstrWord} {k : Nat} {cond : BitVec 4} {v x : Nat}

theorem exec_nop (hr : s.ready c q .nop w) : exec (.nop c q w) s = .next (s.issued c q .nop w { st := s.takeWait c q w }) :=
  congrArg Host.Outcome.next (s.runHead_ready _ hr)

theorem exec_end (hr : s.ready c q .end_ w) : exec (.end_ c q w) s = .next (s.issued c q .end_ w { st := s.takeWait c q w }) :=
  congrArg Host.Outcome.next (s.runHead_ready _ hr)

/-- The conditions 1 to 8 wait for that count and take it (R296). -/
theorem cond_count (low : 1 ≤ cond.toNat) (high : cond.toNat ≤ 8) :
    condHolds cond v x = decide (cond.toNat ≤ v) ∧ condTakes cond x = cond.toNat := by
  unfold condHolds condTakes
  generalize cond.toNat = n at low high
  interval_cases n <;> exact ⟨rfl, rfl⟩

theorem State.waitMet_holds (home : s.waitHome c w = some k) (met : s.waitMet c q w = true) :
    condHolds w.wcond (s.sem k) (s.s13 c q) = true := by
  simp only [State.waitMet, home, Bool.and_eq_true] at met
  exact met.1

/-- The semaphore waited on holds what it held less what its condition takes (R296, R297). -/
theorem State.sem_takeWait (home : s.waitHome c w = some k) :
    (s.takeWait c q w).sem k = s.sem k - condTakes w.wcond (s.s13 c q) := by
  have small : s.sem k < 2 ^ 32 := fld_lt _ _ _
  simp only [State.takeWait, home]
  split
  · next none => rw [none, Nat.sub_zero]
  · rw [State.sem, s.regFld_setFld_self _ _ _ _ (by decide), Nat.mod_eq_of_lt (by omega)]

end Waits

/-- Settles O8: NOP and END issue with nothing but their wait taken, and each condition says what its wait has met and takes. -/
theorem issuingTakesTheWait : Obligations.IssuingTakesTheWait := by
  refine ⟨fun c q w s => ⟨fun hr => ?_, fun hr => ?_⟩, fun c q w s k hr home => ?_⟩
  · obtain ⟨core, issued⟩ := (State.OnlyRegs.refl (s.takeWait c q w) []).issued (o := .nop) (work := .done) (events := []) (step := 0)
    exact ⟨_, exec_nop hr, issued, core⟩
  · obtain ⟨core, issued⟩ := (State.OnlyRegs.refl (s.takeWait c q w) []).issued (o := .end_) (work := .done) (events := []) (step := 0)
    exact ⟨_, exec_end hr, issued, core⟩
  · have ready := hr
    obtain ⟨-, -, met, -, -⟩ := ready
    have holds := State.waitMet_holds home met
    have left : (s.issued c q .nop w { st := s.takeWait c q w }).sem k = s.sem k - condTakes w.wcond (s.s13 c q) :=
      State.sem_takeWait home
    refine ⟨_, exec_nop hr, fun low high => ?_, fun code => ?_, fun code => ?_, fun code => ?_, fun code => ?_, fun code => ?_⟩
    · obtain ⟨waits, takes⟩ := cond_count (v := s.sem k) (x := s.s13 c q) low high
      exact ⟨by simpa [waits] using holds, by rw [left, takes]⟩
    all_goals rw [code] at holds left
    · exact ⟨by simpa [condHolds] using holds, left⟩
    · have zero : s.sem k = 0 := by simpa [condHolds] using holds
      exact ⟨zero, left.trans zero⟩
    · exact ⟨by simpa [condHolds] using holds, left⟩
    · exact ⟨by simpa [condHolds] using holds, left⟩
    · exact ⟨by simpa [condHolds] using holds, left⟩

section Scalars

variable {s : State} {c : Fin 96} {q : Queue} {o : Op} {w : InstrWord} {body : State → Verdict} {k : Nat} {v : W64}

theorem State.takeWait_opA : (s.takeWait c q w).opA c q w = s.opA c q w := State.takeWait_sreg q c.isLt c.isLt (fld_lt _ _ _)

theorem State.takeWait_opB : (s.takeWait c q w).opB c q w = s.opB c q w := by
  rw [State.opB, State.takeWait_sreg q c.isLt c.isLt (fld_lt _ _ _), State.opB]

/-- A head whose chapter says only that it writes a register issues, and but for its semaphore no other register changes (R232). -/
theorem State.runHead_setReg (hr : s.ready c q o w)
    (result : body (s.takeWait c q w) = .issue { st := (s.takeWait c q w).setReg k v }) :
    ∃ t, (Host.Outcome.next (s.runHead c q o w body) : Host.Outcome State Fault Refusal) = .next t ∧ t.reg k = v ∧
      s.IssuedTo t c q w (s.headEntry c q o w) [k] ∧ s.CoreOnly t := by
  obtain ⟨core, issued⟩ := ((s.takeWait c q w).setReg_only k v).issued (o := o) (work := .done) (events := []) (step := 0)
  refine ⟨_, rfl, ?_⟩
  rw [s.runHead_ready body hr, result]
  exact ⟨State.reg_setReg_self _ _ _, issued, core⟩

/-- The scalar instructions write one scalar register, each by its function of the two operands (R253). -/
theorem State.runHead_scalar (f : W64 → W64 → W64) (hr : s.ready c q o w) :
    ∃ t, (Host.Outcome.next (s.runHead c q o w fun s => s.scalar c q w (f (s.opA c q w) (s.opB c q w))) :
        Host.Outcome State Fault Refusal) = .next t ∧
      t.sreg c q (opnd w 63 60) = f (s.opA c q w) (s.opB c q w) ∧
      s.IssuedTo t c q w (s.headEntry c q o w) [qK c q (0x80 + 8 * opnd w 63 60)] ∧ s.CoreOnly t :=
  State.runHead_setReg (k := qK c q (0x80 + 8 * opnd w 63 60)) hr <| by
    rw [State.takeWait_opA, State.takeWait_opB, State.scalar, State.setSreg]

/-- SMOVH puts 16 bits above the low 48 (R253). -/
theorem putFld_high (u : W64) {x : Nat} (hx : x < 2 ^ 16) :
    putFld u 48 16 x = (u &&& 0x0000FFFFFFFFFFFF) ||| (BitVec.ofNat 64 x <<< 48) := by
  have shifted : BitVec.ofNat 64 (x % 2 ^ 16 * 2 ^ 48) = BitVec.ofNat 64 x <<< 48 := by
    rw [Nat.mod_eq_of_lt hx, BitVec.ofNat_mul, BitVec.shiftLeft_eq_mul_twoPow]; rfl
  rw [putFld, shifted]
  rfl

theorem and63_toNat (b : W64) : (b &&& 63).toNat = b.toNat % 64 := by
  rw [BitVec.toNat_and]
  exact Nat.and_two_pow_sub_one_eq_mod b.toNat 6

end Scalars

/-- Settles O10: each scalar instruction writes one register with its result, from operands that taking its wait leaves alone. -/
theorem scalarResults : Obligations.ScalarResults := by
  intro c q w s d a b gives
  have source (i : Nat) (hi : i < 16) : (s.takeWait c q w).sreg c q i = s.sreg c q i := State.takeWait_sreg q c.isLt c.isLt hi
  refine ⟨fun hr => ?_, fun hr => ?_, fun hr => ?_, fun hr => ?_, fun hr => ?_, fun hr => ?_, fun hr => ?_, fun hr => ?_,
    fun hr => ?_, fun hr => ?_, fun hr => ?_⟩
  · exact State.runHead_scalar (fun _ b => b) hr
  · refine State.runHead_setReg (k := qK c q (0x80 + 8 * d)) hr ?_
    rw [source d (fld_lt _ _ _), putFld_high _ (show opnd w 15 0 < 2 ^ 16 from fld_lt _ _ _), State.scalar, State.setSreg]
  · exact State.runHead_scalar (· + ·) hr
  · exact State.runHead_scalar (· - ·) hr
  · exact State.runHead_scalar (· * ·) hr
  · exact State.runHead_scalar (· &&& ·) hr
  · exact State.runHead_scalar (· ||| ·) hr
  · exact State.runHead_scalar (· ^^^ ·) hr
  · simp only [and63_toNat]
    exact State.runHead_scalar (fun a b => a <<< (b.toNat % 64)) hr
  · simp only [and63_toNat]
    exact State.runHead_scalar (fun a b => a >>> (b.toNat % 64)) hr
  · refine State.runHead_setReg (k := coreK c (0x800 + 8 * qnum q)) hr ?_
    rw [source (opnd w 3 0) (fld_lt _ _ _), seedK]

end Sys2Proof.Machine

/-! SUPPORT. Words of a core's own chamber: the offsets that the checks let through, what taking a wait leaves readable, and what SLD, SST
and DADD do (R249, R254, R255, R333). -/

namespace Sys2Proof.Machine

section ChamberReads

variable {s : State} {c : Fin 96} {q : Queue} {o : Op} {w : InstrWord} {k n pa : Nat}

theorem not_homeKey_stk (st o : Nat) : ¬HomeKey (stkK st o) := by
  unfold HomeKey stkK; omega

theorem not_homeKey_coreWord (c : Fin 96) (ho : k < 0x1000) : ¬HomeKey (coreK c k) := by
  unfold HomeKey coreK; omega

theorem State.takeWait_deadAt (pa : Nat) : (s.takeWait c q w).deadAt pa = s.deadAt pa :=
  (s.takeWait_only c q w).deadAt (fun st o _ h => not_homeKey_stk st o (State.waitKeys_homeKey c.isLt h)) pa

theorem State.takeWait_readUnit (pa : Nat) : (s.takeWait c q w).readUnit pa = s.readUnit pa := by
  simp only [State.readUnit, State.tagAt, State.takeWait_deadAt, State.takeWait_mem, State.takeWait_tags]

/-- What an instruction reads is what was there before it took its wait. -/
theorem State.takeWait_readBytes (pa n : Nat) : (s.takeWait c q w).readBytes pa n = s.readBytes pa n := by
  rw [State.readBytes, State.readBytes, funext (f := (s.takeWait c q w).readUnit) State.takeWait_readUnit]

theorem State.takeWait_descOff (d : Nat) : (s.takeWait c q w).descOff c d = s.descOff c d := by
  rw [State.descOff, State.regFld, State.takeWait_reg c.isLt (not_homeKey_coreWord c (by decide))]
  rfl

/-- A descriptor is a unit of the chamber (R275, R291). -/
theorem State.descOff_unit {d : Nat} (hd : d < 256) : s.descOff c d < 0x400000 ∧ s.descOff c d % 64 = 0 := by
  have table : s.regFld (coreK c 0xC00) 14 8 < 2 ^ 8 := fld_lt _ _ _
  unfold State.descOff
  omega

/-- The chamber offset of an instruction on one word is that of a word (R249, R254). -/
theorem State.ready_word (word : chamFields o w = [(opnd w 21 0, 8)]) (hr : s.ready c q o w) :
    s.offs c q w (opnd w 21 0) < 0x400000 ∧ s.offs c q w (opnd w 21 0) % 8 = 0 := by
  obtain ⟨-, -, -, -, checked⟩ := hr
  have ok := State.chamOk_of_frameCheck checked
  simpa only [State.chamOk, word, List.all_cons, List.all_nil, Bool.and_true, Bool.and_eq_true, beq_iff_eq, decide_eq_true_eq] using ok

theorem chamPa_word (c : Nat) (hk : k % 8 = 0) : chamPa c k % 64 + 8 ≤ 64 := by
  unfold chamPa chamBase; omega

/-- A good word of a chamber that answers is read as its bytes. -/
theorem State.readBytes_chamber (up : s.coreUp c = true) (hk : k < 0x400000) (word : k % 8 = 0) :
    (s.readBytes (chamPa c k) 8).data = memRead s.mem (chamPa c k) 8 := by
  rw [State.readBytes_data (by decide) (chamPa_word c word), if_pos (State.deadAt_chamPa c.isLt hk up)]

theorem tagError_isSome {x : TagSt} (bad : x ≠ .good) : (tagError x).isSome = true := by
  cases x with
  | good => exact absurd rfl bad
  | poisoned => rfl
  | mismatch => rfl

end ChamberReads

section ChamberWords

variable {s : State} {c : Fin 96} {q : Queue} {o : Op} {w : InstrWord} {i : Issued} {k : Nat} {bs : List Byte} {x : TagSt} {addr : Nat}

/-- An issue appends its entry to what is in flight (R228). -/
theorem State.issued_flight : ((s.issued c q o w i).queue c q).inflight =
    (i.st.queue c q).inflight ++ [s.entry c (s.queue c q).pc o w i] :=
  congrArg QState.inflight (i.st.queue_setQueue_self _ _ _)

/-- An instruction that only stores a word of its chamber: the word, no other byte and no register (R254, R255). -/
theorem State.issued_word (up : s.coreUp c = true) (hk : k < 0x400000) (word : k % 8 = 0) (len : bs.length = 8) :
    memRead (s.issued c q o w { st := (s.takeWait c q w).writePart (chamPa c k) bs }).mem (chamPa c k) 8 = bs ∧
      s.BytesBut (s.issued c q o w { st := (s.takeWait c q w).writePart (chamPa c k) bs }) (chamPa c k) 8 ∧
      s.IssuedTo (s.issued c q o w { st := (s.takeWait c q w).writePart (chamPa c k) bs }) c q w (s.headEntry c q o w) [] := by
  have alive : (s.takeWait c q w).deadAt (chamPa c k) = none :=
    (State.takeWait_deadAt _).trans (State.deadAt_chamPa c.isLt hk up)
  have fits : chamPa c k % 64 + bs.length ≤ 64 := len ▸ chamPa_word c word
  have reads := State.memRead_writePart (poison := false) alive fits
  have kept := State.writePart_bytesBut (s := s.takeWait c q w) (poison := false) fits
  rw [len] at reads kept
  refine ⟨?_, fun y hy => ?_, State.issued_issuedTo (work := .done) (events := []) (step := 0) ?_ fun k _ => ?_⟩
  · rw [State.issued_mem, reads]
  · rw [State.issued_mem, kept y hy, State.takeWait_mem]
  · rw [State.writePart_written.kept.1, (s.takeWait_only c q w).queues]
  · rw [State.reg, State.writePart_regs alive]
    rfl

/-- An instruction that finds its word of the chamber bad stores nothing and carries the detected error to its completion (R333). -/
theorem State.issued_badWord (post : Option (Nat × W64)) (errAt : Nat) (hk : k < 0x400000) (bad : x ≠ .good) :
    ∃ f, (s.issued c q o w { st := (s.takeWait c q w).tookTag c q w.optag addr (chamPa c k) x, post := post,
                             error := tagError x, errAt := errAt }).mem = s.mem ∧
      ((s.issued c q o w { st := (s.takeWait c q w).tookTag c q w.optag addr (chamPa c k) x, post := post,
                           error := tagError x, errAt := errAt }).queue c q).inflight = (s.queue c q).inflight ++ [f] ∧
      f.post = post ∧ f.error.isSome = true := by
  have kept : (s.takeWait c q w).MxKeeps ((s.takeWait c q w).tookTag c q w.optag addr (chamPa c k) x) c q 0 :=
    State.tookTag_mxKeeps c.isLt hk
  refine ⟨s.entry c (s.queue c q).pc o w {
    st := (s.takeWait c q w).tookTag c q w.optag addr (chamPa c k) x,
    post := post, error := tagError x, errAt := errAt }, ?_, ?_, rfl, tagError_isSome bad⟩
  · rw [State.issued_mem, kept.mem, State.takeWait_mem]
  · rw [State.issued_flight, kept.flight, State.takeWait_queue]

/-- An instruction that changes nothing and brings a word to a scalar register at its completion (R254). -/
theorem State.issued_post {post : Option (Nat × W64)} :
    s.CoreOnly (s.issued c q o w { st := s.takeWait c q w, post := post }) ∧
      s.IssuedTo (s.issued c q o w { st := s.takeWait c q w, post := post }) c q w { s.headEntry c q o w with post := post } [] := by
  have waited := s.takeWait_only c q w
  obtain ⟨own, others⟩ := State.issued_queues (c := c) (q := q) (o := o) (w := w) (i := { st := s.takeWait c q w, post := post })
    waited.queues rfl
  have aligned : BitVec.ofNat 64 (0 / 64 * 64) = (0 : W64) := rfl
  rw [State.entry, aligned] at own
  exact ⟨State.issued_coreOnly waited, own, others, waited.2⟩

/-- SLD of a good word (R254). -/
theorem exec_sld_good (hr : s.ready c q .sld w) (good : (s.readBytes (chamPa c (s.offs c q w (opnd w 21 0))) 8).tag = .good) :
    exec (.sld c q w) s = .next (s.issued c q .sld w {
      st := s.takeWait c q w,
      post := some (opnd w 63 60, BitVec.ofNat 64 (leNat (s.readBytes (chamPa c (s.offs c q w (opnd w 21 0))) 8).data)) }) := by
  show execSld c q w s = _
  rw [execSld, s.runHead_ready _ hr]
  simp only [State.takeWait_offs c.isLt, State.takeWait_readBytes, good, if_true]
  rfl

/-- SLD of a bad word (R254, R333). -/
theorem exec_sld_bad (hr : s.ready c q .sld w) (bad : (s.readBytes (chamPa c (s.offs c q w (opnd w 21 0))) 8).tag ≠ .good) :
    ∃ a, exec (.sld c q w) s = .next (s.issued c q .sld w
      { st := (s.takeWait c q w).tookTag c q w.optag a (chamPa c (s.offs c q w (opnd w 21 0)))
          (s.readBytes (chamPa c (s.offs c q w (opnd w 21 0))) 8).tag,
        post := some (opnd w 63 60, 0),
        error := tagError (s.readBytes (chamPa c (s.offs c q w (opnd w 21 0))) 8).tag,
        errAt := badAddr (s.readBytes (chamPa c (s.offs c q w (opnd w 21 0))) 8).tag a }) := by
  refine ⟨(s.takeWait c q w).chamAddr c (s.offs c q w (opnd w 21 0)), ?_⟩
  show execSld c q w s = _
  rw [execSld, s.runHead_ready _ hr]
  simp only [State.takeWait_offs c.isLt, State.takeWait_readBytes, if_neg bad]
  rfl

theorem exec_sst (hr : s.ready c q .sst w) : exec (.sst c q w) s = .next (s.issued c q .sst w
    { st := (s.takeWait c q w).writePart (chamPa c (s.offs c q w (opnd w 21 0))) (leBytes 8 (s.sreg c q (opnd w 63 60)).toNat) }) := by
  show execSst c q w s = _
  rw [execSst, s.runHead_ready _ hr, State.takeWait_offs c.isLt, State.takeWait_sreg q c.isLt c.isLt (fld_lt _ _ _)]
  rfl

/-- DADD on a good descriptor (R255). -/
theorem exec_dadd_good (hr : s.ready c q .dadd w) (good : (s.readBytes (chamPa c (s.descOff c (opnd w 7 0))) 8).tag = .good) :
    exec (.dadd c q w) s = .next (s.issued c q .dadd w
      { st := (s.takeWait c q w).writePart (chamPa c (s.descOff c (opnd w 7 0))) (leBytes 8
          (BitVec.ofNat 64 (leNat (s.readBytes (chamPa c (s.descOff c (opnd w 7 0))) 8).data) +
            s.sreg c q (opnd w 63 60)).toNat) }) := by
  show execDadd c q w s = _
  rw [execDadd, s.runHead_ready _ hr]
  simp only [State.takeWait_descOff, State.takeWait_readBytes, good, if_true,
    State.takeWait_sreg q c.isLt c.isLt (show opnd w 63 60 < 16 from fld_lt _ _ _)]
  rfl

/-- DADD on a bad descriptor (R255, R333). -/
theorem exec_dadd_bad (hr : s.ready c q .dadd w) (bad : (s.readBytes (chamPa c (s.descOff c (opnd w 7 0))) 8).tag ≠ .good) :
    ∃ a, exec (.dadd c q w) s = .next (s.issued c q .dadd w
      { st := (s.takeWait c q w).tookTag c q w.optag a (chamPa c (s.descOff c (opnd w 7 0)))
          (s.readBytes (chamPa c (s.descOff c (opnd w 7 0))) 8).tag,
        error := tagError (s.readBytes (chamPa c (s.descOff c (opnd w 7 0))) 8).tag,
        errAt := badAddr (s.readBytes (chamPa c (s.descOff c (opnd w 7 0))) 8).tag a }) := by
  refine ⟨(s.takeWait c q w).chamAddr c (s.descOff c (opnd w 7 0)), ?_⟩
  show execDadd c q w s = _
  rw [execDadd, s.runHead_ready _ hr]
  simp only [State.takeWait_descOff, State.takeWait_readBytes, if_neg bad]
  rfl

end ChamberWords

/-- Settles O11: the word lies in one unit of a chamber that answers, so that a good one is its bytes and a store changes only them. -/
theorem chamberWords : Obligations.ChamberWords := by
  intro c q w s up o k v
  have table : k < 0x400000 ∧ k % 64 = 0 := State.descOff_unit (fld_lt _ _ _)
  obtain ⟨inTable, unit⟩ := table
  refine ⟨fun hr good => ?_, fun hr bad => ?_, fun hr => ?_, fun hr good => ?_, fun hr bad => ?_⟩
  · obtain ⟨inside, word⟩ := State.ready_word rfl hr
    refine ⟨_, exec_sld_good hr good, ?_⟩
    rw [State.readBytes_chamber up inside word]
    exact State.issued_post
  · obtain ⟨inside, -⟩ := State.ready_word rfl hr
    obtain ⟨a, run⟩ := exec_sld_bad hr bad
    obtain ⟨f, mem, flight, post, error⟩ := State.issued_badWord _ (badAddr _ a) inside bad
    exact ⟨_, f, run, mem, flight, post, error⟩
  · obtain ⟨inside, word⟩ := State.ready_word rfl hr
    exact ⟨_, exec_sst hr, State.issued_word up inside word (leBytes_length _ _)⟩
  · have data := State.readBytes_chamber up inTable (by omega)
    have run := exec_dadd_good hr good
    rw [show s.descOff c (opnd w 7 0) = k from rfl, data] at run
    exact ⟨_, run, State.issued_word up inTable (by omega) (leBytes_length _ _)⟩
  · obtain ⟨a, run⟩ := exec_dadd_bad hr bad
    obtain ⟨f, mem, flight, -, error⟩ := State.issued_badWord none (badAddr _ a) inTable bad
    exact ⟨_, f, run, mem, flight, error⟩

end Sys2Proof.Machine

/-! SUPPORT. ATOM on a word of this device: its checks, and what its two stores and its detected error leave (R26, R236, R266, R333). -/

namespace Sys2Proof.Machine

section Atomics

variable {s t : State} {c : Fin 96} {q : Queue} {o : Op} {w : InstrWord} {f : InFlight} {i : Issued} {ctx n pa : Nat}
  {x : TagSt} {addr : Nat} {optag : W16}

/-- What issues with no register changed but its semaphore keeps every scalar register. -/
theorem State.IssuedTo.scalarsKept (h : s.IssuedTo t c q w f []) : s.ScalarsKept t := by
  obtain ⟨-, -, regs⟩ := h
  exact fun c' q' i => regs _ fun hk => not_homeKey_sreg q' c'.isLt (by omega) (State.waitKeys_homeKey c.isLt hk)

theorem State.IssuedTo.semsBut (h : s.IssuedTo t c q w f []) : s.SemsBut t (s.waitKeys c w) := by
  obtain ⟨-, -, regs⟩ := h
  exact fun k _ hk => regs k hk

/-- The entry of what issues carries its detected error (R229, R333). -/
theorem State.issued_error : ∃ f, ((s.issued c q o w i).queue c q).inflight = (i.st.queue c q).inflight ++ [f] ∧ f.error = i.error :=
  ⟨_, State.issued_flight, rfl⟩

theorem Issued.read_nil : i.read ctx [] = i := by rw [Issued.read, State.touchedAll_nil]

/-- A read of any window of the device implicates a unit of one of its dies (R397). -/
theorem State.tookTag_kept (hw : chamBase ≤ pa → windowCore pa < 96) : s.MxKeeps (s.tookTag c q optag addr pa x) c q n := by
  cases x with
  | good => exact .refl s
  | poisoned => exact State.memErr_mxKeeps c.isLt
  | mismatch => exact (State.memErr_mxKeeps c.isLt).trans (State.trigger_mxKeeps (dieOf_memSource hw))

/-- The address `a` passes the checks of ATOM, and leads to the word at `pa` (R266). -/
structure State.AtomHere (s : State) (ctx a pa : Nat) : Prop where
  word : a % 8 = 0
  space : a / 0x4000000000000000 < 2
  region : regionOf (a % 0x400000000000) ≠ none
  outside : regionOf (a % 0x400000000000) ≠ some 3
  leads : s.place ctx a = .mem pa

theorem State.AtomHere.fits {a : Nat} (h : s.AtomHere ctx a pa) : pa % 8 = 0 ∧ pa % 64 + 8 ≤ 64 := by
  have place := (State.localPlace_mem (State.place_mem h.leads)).1
  have := h.word
  omega

theorem State.AtomHere.window {a : Nat} (h : s.AtomHere ctx a pa) : chamBase ≤ pa → windowCore pa < 96 :=
  (State.localPlace_mem (State.place_mem h.leads)).2

theorem atomVerdict_mem {a : Nat} (source : (s.sreg c q (opnd w 63 60)).toNat = a) (here : s.AtomHere (s.ctxOf c) a pa) :
    atomVerdict s c q w = (Verdict.issue (s.atomLocal c q w a pa)).reading s (s.ctxOf c) [] := by
  obtain ⟨word, space, region, outside, leads⟩ := here
  have first : ¬2 ≤ spaceOf a := by rw [spaceOf]; omega
  unfold atomVerdict
  rw [source, if_neg (by simp [offOf, word, region, outside, first]), leads]

/-- ATOM on a word of this device issues (R266). -/
theorem exec_atom {a : Nat} (hr : s.ready c q .atom w) (ha : s.Awake) (source : (s.sreg c q (opnd w 63 60)).toNat = a)
    (here : (s.takeWait c q w).AtomHere ((s.takeWait c q w).ctxOf c) a pa) :
    exec (.atom c q w) s = .next (s.issued c q .atom w ((s.takeWait c q w).atomLocal c q w a pa)) := by
  rw [← State.takeWait_sreg (s := s) (c := c) (q := q) (w := w) q c.isLt c.isLt (show opnd w 63 60 < 16 from fld_lt _ _ _)] at source
  show execAtom c q w s = _
  rw [execAtom, s.runHead_ready _ hr, atomVerdict_mem source here, (ha.takeWait c.isLt).reading, Issued.read_nil]
  rfl

/-- ATOM on a good word: the new value passes to its target as the windows allow, the old one lands at RES (R26, R266). -/
theorem State.atomLocal_good {a : Nat} (ha : s.Awake) (here : s.AtomHere ctx a pa) (alive : s.deadAt pa = none)
    (good : (s.readBytes pa 8).tag = .good) {old : W64} (reads : BitVec.ofNat 64 (leNat (memRead s.mem pa 8)) = old) :
    s.atomLocal c q w a pa =
      { st := (s.through (some c.val) pa fun s' => s'.writePart pa
          (leBytes 8 (atomNew w.f0 old (s.sreg c q (opnd w 59 56)) (s.sreg c q (opnd w 55 52))).toNat)).writePart
            (chamPa c (s.offs c q w (opnd w 21 0))) (leBytes 8 old.toNat) } := by
  unfold State.atomLocal
  rw [ha.wakeFor here.window]
  dsimp only
  rw [if_pos good, State.readBytes_data (by decide) here.fits.2, if_pos alive, reads]

/-- ATOM on a bad word: what was read lands at RES poisoned (R266, R333). -/
theorem State.atomLocal_bad {a : Nat} (ha : s.Awake) (here : s.AtomHere ctx a pa) (alive : s.deadAt pa = none)
    (bad : (s.readBytes pa 8).tag ≠ .good) {old : W64} (reads : BitVec.ofNat 64 (leNat (memRead s.mem pa 8)) = old) :
    s.atomLocal c q w a pa =
      { st := ((s.tookTag c q w.optag a pa (s.readBytes pa 8).tag).writePart (chamPa c (s.offs c q w (opnd w 21 0)))
          (leBytes 8 old.toNat) true).poisoned (s.ctxOf c),
        error := tagError (s.readBytes pa 8).tag, errAt := a } := by
  unfold State.atomLocal
  rw [ha.wakeFor here.window]
  dsimp only
  rw [if_neg bad, State.readBytes_data (by decide) here.fits.2, if_pos alive, reads]

end Atomics

section AtomicStores

variable {s t : State} {c : Fin 96} {q : Queue} {ctx k pa res : Nat} {bs old : List Byte} {poison : Bool}

theorem State.Written.coreUp (h : s.Written t) (c : Nat) : t.coreUp c = s.coreUp c := by rw [h]; rfl

/-- A word that is stored in memory which answers reads back, and every other byte is as before. -/
theorem State.writePart_word (alive : s.deadAt pa = none) (word : pa % 8 = 0) (len : bs.length = 8) :
    memRead (s.writePart pa bs poison).mem pa 8 = bs ∧ s.BytesBut (s.writePart pa bs poison) pa 8 := by
  have fits : pa % 64 + bs.length ≤ 64 := by omega
  exact ⟨len ▸ State.memRead_writePart alive fits, len ▸ State.writePart_bytesBut fits⟩

/-- A store of another word leaves a word as it is. -/
theorem State.BytesBut.memRead_word (kept : s.BytesBut t res 8) (word : pa % 8 = 0) (other : res % 8 = 0) (apart : res ≠ pa) :
    memRead t.mem pa 8 = memRead s.mem pa 8 :=
  memRead_congr fun x hl hr => kept x (by omega)

theorem chamPa_mod (hk : k % 8 = 0) : chamPa c k % 8 = 0 := by
  unfold chamPa chamBase; omega

/-- Two words stored one after the other, the second in the chamber: both read back where they are apart (R266). -/
theorem State.writePart_words (alive : s.deadAt pa = none) (word : pa % 8 = 0) (up : s.coreUp c = true) (hk : k < 0x400000)
    (wordRes : k % 8 = 0) (len : bs.length = 8) (lenOld : old.length = 8)
    (stored : (s.writePart pa bs).writePart (chamPa c k) old = t) :
    (chamPa c k ≠ pa → memRead t.mem pa 8 = bs) ∧ memRead t.mem (chamPa c k) 8 = old ∧
      (∀ y, (y < pa ∨ pa + 8 ≤ y) → (y < chamPa c k ∨ chamPa c k + 8 ≤ y) → memByte t.mem y = memByte s.mem y) ∧
      t.queues = s.queues ∧ t.regs = s.regs := by
  have first : s.Written (s.writePart pa bs) := State.writePart_written
  have aliveRes : (s.writePart pa bs).deadAt (chamPa c k) = none := State.deadAt_chamPa c.isLt hk ((first.coreUp c).trans up)
  obtain ⟨reads, kept⟩ := State.writePart_word (poison := false) alive word len
  obtain ⟨readsRes, keptRes⟩ := State.writePart_word (poison := false) aliveRes (chamPa_mod wordRes) lenOld
  rw [← stored]
  refine ⟨fun apart => ?_, readsRes, fun y target result => (keptRes y result).trans (kept y target), ?_, ?_⟩
  · rw [keptRes.memRead_word word (chamPa_mod wordRes) apart, reads]
  · rw [State.writePart_written.kept.1, first.kept.1]
  · rw [State.writePart_regs aliveRes, State.writePart_regs alive]

/-- The poisoned word that ATOM leaves at RES changes no other byte and nothing in flight (R266, R333). -/
theorem State.writePart_poisoned (noted : s.MxKeeps t c q 0) (hctx : ctx < 16) (word : res % 8 = 0) (len : bs.length = 8) :
    s.BytesBut ((t.writePart res bs true).poisoned ctx) res 8 ∧
      (((t.writePart res bs true).poisoned ctx).queue c q).inflight = (s.queue c q).inflight := by
  have marked : (t.writePart res bs true).MxKeeps ((t.writePart res bs true).poisoned ctx) c q 0 := State.poisoned_mxKeeps hctx
  have kept : t.BytesBut (t.writePart res bs true) res bs.length := State.writePart_bytesBut (by omega)
  refine ⟨fun y away => ?_, ?_⟩
  · rw [marked.mem, kept y (by omega), noted.mem]
  · rw [marked.flight, State.queue, State.writePart_written.kept.1, ← noted.flight]
    rfl

end AtomicStores

/-- Settles O19: target and RES lie in one unit each, a shut window turns the first store into a count, and a bad unit is only noted. -/
theorem atomicOnLocalWord : Obligations.AtomicOnLocalWord := by
  intro c q w s pa hr ha up u x a old b k new res word space region outside leads alive
  have here : u.AtomHere (u.ctxOf c) a pa := ⟨word, space, region, outside, leads⟩
  have run := exec_atom hr ha rfl here
  have reads : BitVec.ofNat 64 (leNat (memRead u.mem pa 8)) = old := by rw [State.takeWait_mem]
  have result : atomNew w.f0 old (u.sreg c q (opnd w 59 56)) (u.sreg c q (opnd w 55 52)) = new := by
    rw [State.takeWait_sreg q c.isLt c.isLt (fld_lt _ _ _), State.takeWait_sreg q c.isLt c.isLt (fld_lt _ _ _)]
    rfl
  have lands : chamPa c (u.offs c q w (opnd w 21 0)) = res := by rw [State.takeWait_offs c.isLt]
  obtain ⟨inside, wordRes⟩ := State.ready_word rfl hr
  have upTaken : u.coreUp c = true := (State.takeWait_coreUp s c).trans up
  have awake : u.Awake := ha.takeWait c.isLt
  refine ⟨fun good shut => ?_, fun h good shut => ?_, fun bad => ?_⟩
  · rw [State.atomLocal_good awake here alive good reads, result, lands, State.through_open _ shut] at run
    obtain ⟨target, atRes, others, queues, regs⟩ := State.writePart_words (s := u) (bs := leBytes 8 new.toNat)
      (old := leBytes 8 old.toNat) alive here.fits.1 upTaken inside wordRes (leBytes_length _ _) (leBytes_length _ _) rfl
    have issued := State.issued_issuedTo (s := s) (c := c) (q := q) (o := .atom) (w := w) (ks := []) (work := .done) (events := [])
      (step := 0) (queues.trans (s.takeWait_only c q w).queues) fun k _ => by rw [State.reg, regs]; rfl
    have ⟨queue, besides, _⟩ := issued
    refine ⟨_, run, fun apart => ?_, ?_, fun y away awayRes => ?_, queue, besides, issued.scalarsKept, issued.semsBut⟩
    · rw [State.issued_mem, target apart]
    · rw [State.issued_mem, atRes]
    · rw [State.issued_mem, others y away awayRes, State.takeWait_mem]
  · obtain ⟨high, rfl⟩ := State.shutCore_some shut
    rw [State.atomLocal_good awake here alive good reads, result, lands, State.through_shut _ shut] at run
    have counted := u.count_only (coreK (windowCore pa) 0x28) 1
    have aliveRes : (u.count (coreK (windowCore pa) 0x28) 1).deadAt res = none :=
      State.deadAt_chamPa c.isLt inside (by rw [counted.1]; exact upTaken)
    obtain ⟨atRes, kept⟩ := State.writePart_word (poison := false) aliveRes (chamPa_mod wordRes) (leBytes_length 8 old.toNat)
    refine ⟨_, run, fun y away => ?_, ?_, ?_⟩
    · rw [State.issued_mem, kept y away, counted.mem, State.takeWait_mem]
    · rw [State.issued_mem, atRes]
    · rw [State.issued_reg, State.reg, State.writePart_regs aliveRes]
      show (u.count (coreK (windowCore pa) 0x28) 1).reg _ = _
      rw [State.reg_count, if_pos rfl, State.takeWait_reg c.isLt (not_homeKey_coreWord ⟨_, here.window high⟩ (by decide))]
      rfl
  · rw [State.atomLocal_bad awake here alive bad reads, lands] at run
    have noted : u.MxKeeps (u.tookTag c q w.optag a pa (u.readBytes pa 8).tag) c q 0 := State.tookTag_kept here.window
    obtain ⟨kept, flight⟩ := State.writePart_poisoned (q := q) noted (u.ctxOf_lt c) (chamPa_mod wordRes)
      (leBytes_length 8 old.toNat)
    obtain ⟨f, inflight, error⟩ := State.issued_error (s := s) (c := c) (q := q) (o := .atom) (w := w) (i := {
      st := ((u.tookTag c q w.optag a pa (u.readBytes pa 8).tag).writePart res (leBytes 8 old.toNat) true).poisoned (u.ctxOf c),
      error := tagError (u.readBytes pa 8).tag, errAt := a })
    refine ⟨_, f, run, fun y away => ?_, ?_, error ▸ tagError_isSome bad⟩
    · rw [State.issued_mem, kept y away, State.takeWait_mem]
    · rw [inflight, flight, State.takeWait_queue]

end Sys2Proof.Machine

/-! SUPPORT. LDQ, COPY and STQ inside the device: where addresses lead while a transfer is recorded, the units in which its writes land, and
the issue that does all its work (R263 to R265, R283, R333, R356). -/

namespace Sys2Proof.Machine

section Places

variable {s t : State} {us : List Nat} {c ctx a : Nat} {q : Queue} {y code optag : W16} {pc : BitVec 14} {addr : Nat} {x : Errs}

theorem not_vecKey_bind (hctx : ctx < 16) (ho : o < 0x10000) : ¬VecKey (bindK ctx o) := by
  refine fun hk => hk.elim (fun step => ?_) (not_gateKey_bind hctx ho)
  unfold StepKey MxKey PortKey bindK at step; omega

/-- Where an address leads is a matter of the fuses and of the context's bindings alone (R19 to R28). -/
theorem State.place_congr (fuses : t.fuses = s.fuses) (bound : ∀ v, v < 0x10000 → t.reg (bindK ctx v) = s.reg (bindK ctx v)) :
    t.place ctx a = s.place ctx a := by
  have clu : ∀ v, t.cluOf ctx v = s.cluOf ctx v := fun v => by
    unfold State.cluOf
    by_cases hv : v < 16
    · simp only [State.regBit, State.regFld, bound (8 * v) (by omega)]; rfl
    · simp [hv]
  have share : ∀ v, t.shareOf ctx v = s.shareOf ctx v := fun v => by
    unfold State.shareOf
    by_cases hv : v < 16
    · simp only [State.regBit, State.regFld, bound (0x100 + 8 * v) (by omega)]; rfl
    · simp [hv]
  have gran : ∀ v, t.granOf ctx v = s.granOf ctx v := fun v => by
    unfold State.granOf
    by_cases hv : v < 768
    · simp only [State.regBit, State.regFld, State.short, fuses, bound (0x800 + 8 * v) (by omega)]; rfl
    · simp [hv]
  simp only [State.place, State.localPlace, clu, share, gran, fuses]

theorem State.VecStep.place (h : s.VecStep t us) (fuses : t.fuses = s.fuses) (hctx : ctx < 16) (a : Nat) :
    t.place ctx a = s.place ctx a :=
  State.place_congr fuses fun _ hv => h.regs _ (not_vecKey_bind hctx hv)

theorem State.trigger_fuses : (s.trigger y code addr).fuses = s.fuses := by
  have told : ∀ (r : State) (v : Nat), (r.verdict y v addr).fuses = r.fuses := fun r v => by
    rw [State.verdict, (r.report_reported 0x06 0 y { verdict := v, addr := BitVec.ofNat 64 addr, detail := r.firstError y }).1]
  unfold State.trigger
  dsimp only
  split
  · exact told s 6
  split
  · rfl
  split
  · exact told _ 5
  split
  · exact told _ 4
  · rfl

theorem State.missed_fuses : (s.missed ctx a).fuses = s.fuses := by
  rw [State.missed, (s.report_reported _ _ _ _).1]

/-- What is recorded of a transfer's reads changes no fuse (R27, R333). -/
theorem State.tookErrs_fuses : (s.tookErrs c q pc optag ctx x).fuses = s.fuses := by
  have noted : (match x.miss with | some a => s.missed ctx a | none => s).fuses = s.fuses := by
    split
    · exact State.missed_fuses
    · rfl
  have recorded : ∀ (r : State) (kind : Nat), (r.memErr c q kind pc optag x.bad.addr).fuses = r.fuses := fun r kind =>
    State.memErr_only.fuses
  unfold State.tookErrs
  extract_lets v
  split
  · exact noted
  · split
    · exact State.trigger_fuses.trans ((recorded _ _).trans noted)
    · exact (recorded _ _).trans noted

end Places

section Deliver

variable {s : State} {us : List UnitWr} {c ctx id n a : Nat} {q : Queue} {optag : W16} {pc : BitVec 14} {x : Xfer} {k : Over}
  {rs : List (Nat × Nat)} {vs : List Nat}

/-- An address that leads to no other device names none (R19, R22). -/
theorem State.near_of_place (near : ∀ dv n, s.place ctx a ≠ .remote dv n) : (spaceOf a == 1 && midOf a != s.fuses.device) = false := by
  by_contra far
  obtain ⟨space, mid⟩ : spaceOf a = 1 ∧ midOf a ≠ s.fuses.device := by simpa using far
  refine near (midOf a) (offOf a) ?_
  unfold spaceOf at space
  unfold midOf at mid
  simp only [State.place, space, if_neg mid, midOf, offOf]

/-- Writes that all stay in the device land in their units, and leave nothing to wait for (R264, R283). -/
theorem State.deliverWrites_vecStep (hctx : ctx < 16) (near : ∀ y ∈ us, ∀ dv n, s.place ctx y.addr ≠ .remote dv n) :
    s.VecStep (s.deliverWrites c q ctx id us).1 (s.unitsLanded ctx us) ∧ (s.deliverWrites c q ctx id us).2.1 = false := by
  have marked : s.Served (if us.any (·.poison) then s.poisoned ctx else s) (s.unitsLanded ctx us) := by
    split
    · exact State.poisoned_served hctx
    · exact .refl s _
  unfold State.deliverWrites
  extract_lets v far out devs
  have place : ∀ b, v.place ctx b = s.place ctx b := marked.place hctx
  have stays : ∀ y ∈ us, far y = false := fun y hy => State.near_of_place fun dv n => by rw [place]; exact near y hy dv n
  have kept : us.filter (fun u => !far u) = us := List.filter_eq_self.mpr fun y hy => by rw [stays y hy]; rfl
  have none : out = [] := List.filter_eq_nil_iff.mpr fun y hy => by rw [stays y hy]; decide
  have alone : devs = [] := by simp only [devs, none, List.map_nil, List.eraseDups_nil]
  have units : v.unitsLanded ctx us = s.unitsLanded ctx us := by simp only [State.unitsLanded, place]
  have landed := (State.landAll_vecStep (s := v) (own := some c) hctx us).1
  rw [units] at landed
  rw [kept, none, alone]
  exact ⟨marked.vecStep.trans landed, rfl⟩

/-- The end of a transfer inside the device: its counters and records, and its writes in their units (R264, R265, R281, R333). -/
theorem State.finishMove_vecStep (hc : c < 96) (hctx : ctx < 16) (near : ∀ y ∈ us, ∀ dv n, s.place ctx y.addr ≠ .remote dv n) :
    s.VecStep (s.finishMove c q pc optag ctx id x us).1 (s.unitsLanded ctx us) ∧
      (s.finishMove c q pc optag ctx id x us).2.1 = .done := by
  unfold State.finishMove
  extract_lets counted told
  have counts : s.OnlyRegs counted [coreK c 0xC18, coreK c 0xC08] := (s.count_only _ _).trans (State.count_only _ _ _)
  have noted : s.VecStep told (s.unitsLanded ctx us) :=
    (counts.vecStep (by simpa using ⟨vecKey_core hc (by decide), vecKey_core hc (by decide)⟩)).trans
      (State.tookErrs_vecStep hc hctx)
  have place : ∀ b, told.place ctx b = s.place ctx b := noted.place (State.tookErrs_fuses.trans counts.fuses) hctx
  have units : told.unitsLanded ctx us = s.unitsLanded ctx us := by simp only [State.unitsLanded, place]
  obtain ⟨stores, stays⟩ := State.deliverWrites_vecStep (s := told) (c := c) (q := q) (id := id) (us := us) hctx fun y hy dv n => by
    rw [place]; exact near y hy dv n
  rw [units] at stores
  refine ⟨noted.trans stores, ?_⟩
  show (if (told.deliverWrites c q ctx id us).2.1 then Work.acks else Work.done) = .done
  rw [stays]
  rfl

theorem State.countOverlap_only : s.OnlyRegs (s.countOverlap c k) [coreK c 0xC20, coreK c 0xC28] := by
  unfold State.countOverlap
  split
  · exact (s.count_only _ _).mono (by simp)
  · exact (s.count_only _ _).mono (by simp)
  · exact .refl s _

/-- Reading a context's tables at most wakes clusters and logs (R23, R27, R429). -/
theorem State.touchedAll_vecStep (hctx : ctx < 16) : s.VecStep (s.touchedAll ctx rs) vs ∧ (s.touchedAll ctx rs).mem = s.mem := by
  have woken := State.wakeAll_only (s := s) (ctx := ctx) (rs.map fun r => unitsOf r.1 r.2).flatten
  have told := State.touchedAt_reported (s := s) (ctx := ctx) (rs.map fun r => unitsOf r.1 r.2).flatten
  obtain ⟨mem, -⟩ := told.coresKept
  exact ⟨(woken.vecStep fun _ hk => .inr hk).trans (told.served hctx).vecStep, mem.trans woken.mem⟩

/-- A transfer inside the device from its overlap on: it changes the units in which its writes land, and its work is done (R264, R265,
R286). -/
theorem State.move_vecStep {as : List Nat} {t : State} {work : Work} {e : Option W16} (hc : c < 96) (hctx : ctx < 16)
    (near : ∀ y ∈ us, ∀ dv n, s.place ctx y.addr ≠ .remote dv n)
    (moved : ((s.countOverlap c k).wakeAll ctx as).finishMove c q pc optag ctx id x us = (t, work, e)) :
    s.VecStep t (s.unitsLanded ctx us) ∧ work = .done := by
  have counted : s.VecStep (s.countOverlap c k) (s.unitsLanded ctx us) :=
    State.countOverlap_only.vecStep (by simpa using ⟨vecKey_core hc (by decide), vecKey_core hc (by decide)⟩)
  have woken := State.wakeAll_only (s := s.countOverlap c k) (ctx := ctx) as
  have ready := counted.trans (woken.vecStep fun _ hk => .inr hk)
  have place := ready.place (woken.fuses.trans State.countOverlap_only.fuses) hctx
  have units : ((s.countOverlap c k).wakeAll ctx as).unitsLanded ctx us = s.unitsLanded ctx us := by
    simp only [State.unitsLanded, place]
  obtain ⟨stores, done⟩ := State.finishMove_vecStep (s := (s.countOverlap c k).wakeAll ctx as) (q := q) (pc := pc) (optag := optag)
    (id := id) (x := x) (us := us) hc hctx fun y hy dv n => by rw [place]; exact near y hy dv n
  rw [units, moved] at stores
  rw [moved] at done
  exact ⟨ready.trans stores, done⟩

theorem State.countOverlap_isRemote (d : Desc) : (s.countOverlap c k).isRemote d = s.isRemote d := by
  rw [State.isRemote, State.countOverlap_only.fuses]
  rfl

end Deliver

section Issues

variable {s u : State} {c : Fin 96} {q : Queue} {o : Op} {w : InstrWord} {i : Issued} {vs : List Nat} {us : List UnitWr} {ctx : Nat}
  {rs : List (Nat × Nat)}

theorem State.Awake.routed (ha : s.Awake) (devs : List Nat) :
    (Verdict.issue i).routed s ctx devs = .issue (i.read ctx (devs.map fun d => (s.routeAt ctx d, 4))) :=
  ha.reading _

/-- Reading its tables changes nothing that an instruction's own work does not (R23, R27, R429). -/
theorem State.VecStep.read (h : s.VecStep i.st vs) (hctx : ctx < 16) : s.VecStep (i.read ctx rs).st vs :=
  h.trans (State.touchedAll_vecStep hctx).1

theorem Issued.AtOnce.read (h : i.AtOnce) : (i.read ctx rs).AtOnce := h

theorem State.VecStep.issued_units (h : (s.takeWait c q w).VecStep i.st vs) : s.UnitsBut (s.issued c q o w i) vs := fun x hx => by
  rw [State.issued_mem, h.units x hx, State.takeWait_mem]

/-- A COPY inside the device, of the tensors `a` and `b` (R264). -/
theorem State.copyIssue_vecStep {a b : Tensor} (src : s.tensorAt c (opnd w 63 56) = a) (dst : s.tensorAt c (opnd w 55 48) = b)
    (near : s.isRemote a.d = false) (writes : groupWrites ((s.countOverlap c (s.overlapCase true a [b])).copyElems (s.ctxOf c) w
      (s.reg (seedK c q)) a b []).writes.reverse = us)
    (own : ∀ y ∈ us, ∀ dv n, s.place (s.ctxOf c) y.addr ≠ .remote dv n) :
    s.VecStep (s.copyIssue o c q w).st (s.unitsLanded (s.ctxOf c) us) ∧ (s.copyIssue o c q w).AtOnce := by
  rw [State.copyIssue, src, dst, State.countOverlap_isRemote, near, if_neg (by simp)]
  extract_lets x v
  rw [writes]
  split
  next t work e moved =>
    obtain ⟨stores, done⟩ := State.move_vecStep c.isLt (s.ctxOf_lt c) own moved
    exact ⟨stores, done, rfl⟩

/-- An STQ inside the device, of the tensors `a`, `b` and `k` (R265). -/
theorem State.stqIssue_vecStep {a b k : Tensor} {r : Xfer × List ElemWr} (src : s.tensorAt c (opnd w 63 56) = a)
    (dst : s.tensorAt c (opnd w 55 48) = b) (scales : s.tensorAt c (opnd w 47 40) = k) (near : s.isRemote a.d = false)
    (elems : (s.countOverlap c (s.overlapCase false a [b, k])).stqElems (s.ctxOf c) w (s.reg (seedK c q)) a b k [] = r)
    (writes : groupWrites r.1.writes.reverse ++ groupWrites r.2.reverse = us)
    (own : ∀ y ∈ us, ∀ dv n, s.place (s.ctxOf c) y.addr ≠ .remote dv n) :
    s.VecStep (s.stqIssue c q w).st (s.unitsLanded (s.ctxOf c) us) ∧ (s.stqIssue c q w).AtOnce := by
  obtain ⟨x, sc⟩ := r
  rw [State.stqIssue, src, dst, scales, State.countOverlap_isRemote, near, if_neg (by simp)]
  split
  next x' sc' found =>
    obtain ⟨rfl, rfl⟩ := Prod.mk.inj (elems.symm.trans found)
    extract_lets v
    rw [writes]
    split
    next t work e moved =>
      obtain ⟨stores, done⟩ := State.move_vecStep c.isLt (s.ctxOf_lt c) own moved
      exact ⟨stores, done, rfl⟩

/-- A COPY that no check refuses issues, whatever route entries it reads (R264, R352). -/
theorem State.copyVerdict_issue (ha : s.Awake) (check : s.copyCheck c w = none) :
    ∃ rs, State.copyVerdict o c q w s = .issue ((s.copyIssue o c q w).read (s.ctxOf c) rs) := by
  refine ⟨(s.devsOf c [opnd w 63 56, opnd w 55 48]).map fun d => (s.routeAt (s.ctxOf c) d, 4), ?_⟩
  rw [State.copyVerdict, check]
  exact ha.routed _

theorem exec_ldmCopy (hr : s.ready c q .ldmCopy w) (ha : s.Awake) (taken : s.takeWait c q w = u) (check : u.copyCheck c w = none) :
    ∃ rs, exec (.ldmCopy c q w) s = .next (s.issued c q .ldmCopy w ((u.copyIssue .ldmCopy c q w).read (u.ctxOf c) rs)) := by
  subst taken
  obtain ⟨rs, verdict⟩ := State.copyVerdict_issue (o := .ldmCopy) (q := q) (ha.takeWait c.isLt) check
  refine ⟨rs, ?_⟩
  show execLdmCopy c q w s = _
  rw [execLdmCopy, s.runHead_ready _ hr, verdict]
  rfl

theorem exec_stmCopy (hr : s.ready c q .stmCopy w) (ha : s.Awake) (taken : s.takeWait c q w = u) (check : u.copyCheck c w = none) :
    ∃ rs, exec (.stmCopy c q w) s = .next (s.issued c q .stmCopy w ((u.copyIssue .stmCopy c q w).read (u.ctxOf c) rs)) := by
  subst taken
  obtain ⟨rs, verdict⟩ := State.copyVerdict_issue (o := .stmCopy) (q := q) (ha.takeWait c.isLt) check
  refine ⟨rs, ?_⟩
  show execStmCopy c q w s = _
  rw [execStmCopy, s.runHead_ready _ hr, verdict]
  rfl

theorem exec_stq (hr : s.ready c q .stq w) (ha : s.Awake) (taken : s.takeWait c q w = u) (check : u.stqCheck c w = none) :
    ∃ rs, exec (.stq c q w) s = .next (s.issued c q .stq w ((u.stqIssue c q w).read (u.ctxOf c) rs)) := by
  refine ⟨(u.devsOf c [opnd w 63 56, opnd w 55 48, opnd w 47 40]).map fun d => (u.routeAt (u.ctxOf c) d, 4), ?_⟩
  subst taken
  show execStq c q w s = _
  rw [execStq, s.runHead_ready _ hr, check, (ha.takeWait c.isLt).routed]
  rfl

/-- A mover that does all its work in its step: what it leaves besides the units of its writes (R228, R264, R265). -/
theorem State.VecStep.moved (h : u.VecStep i.st vs) (taken : s.takeWait c q w = u) (once : i.AtOnce) (hctx : ctx < 16) :
    ∃ f, (s.issued c q o w (i.read ctx rs)).queue c q = (s.queue c q).afterIssue f
        (advance (s.queue c q).pc (s.queue c q).loops).1 (advance (s.queue c q).pc (s.queue c q).loops).2 ∧
      s.QueuesBut (s.issued c q o w (i.read ctx rs)) c q ∧ f.op = o ∧ f.work = .done ∧
      (s.issued c q o w (i.read ctx rs)).bufs = s.bufs ∧ s.ScalarsKept (s.issued c q o w (i.read ctx rs)) ∧
      s.SemsBut (s.issued c q o w (i.read ctx rs)) (s.waitKeys c w) ∧ s.UnitsBut (s.issued c q o w (i.read ctx rs)) vs := by
  subst taken
  have all := h.read (rs := rs) hctx
  have issued := all.issued (o := o) once.read
  exact ⟨_, issued.queue, issued.others, issued.op, issued.work, issued.bufs, issued.scalars, issued.sems, all.issued_units⟩

end Issues

end Sys2Proof.Machine

/-! SUPPORT. LDQ inside the device: its tiles land in the slots of its destination, and all else that it leaves is counters and records (R94
to R96, R142, R263, R333). -/

namespace Sys2Proof.Machine

section Tiles

variable {s t : State} {us : List Nat} {c ctx n pa base pitch slots i layer : Nat} {q : Queue} {step : BitVec 32} {k : KStat}
  {tile : Tile} {bs : List Byte} {poison : Bool} {j : Job} {l : Load1}

theorem State.writeUnit_vecStep (hu : pa / 64 * 64 ∈ us) : s.VecStep (s.writeUnit pa bs poison) us :=
  (State.writeUnitX_served hu).vecStep

theorem State.addStat_vecStep : s.VecStep (s.addStat ctx c layer step k) us := ⟨fun _ _ => rfl, rfl, rfl, fun _ _ => rfl⟩

/-- A chain of parts of the work is one. -/
theorem State.foldl_vecStep {α : Type} {f : State → α → State} (l : List α) (h : ∀ (r : State) (x : α), x ∈ l → r.VecStep (f r x) us) :
    s.VecStep (l.foldl f s) us :=
  List.foldlRecOn l f (motive := fun r => s.VecStep r us) (.refl s us) fun r before x hx => before.trans (h r x hx)

/-- A unit of tile slot `i`, in the room that the slot has, is a unit of the slots (R284; log 23). -/
theorem slot_unit {p : Nat} (hi : i < slots) (hp : 64 * p + 64 ≤ pitch) :
    chamPa c (base + i * pitch + 64 * p) / 64 * 64 ∈ unitsOf (chamPa c base) (slots * pitch) := by
  have row : (i + 1) * pitch ≤ slots * pitch := Nat.mul_le_mul_right pitch hi
  rw [Nat.add_mul, Nat.one_mul] at row
  refine unit_mem_unitsOf ?_ ?_ <;> unfold chamPa <;> omega

/-- A tile's units land in its slot (R94, R95, R284). -/
theorem State.placeTile_vecStep (hc : c < 96) :
    s.VecStep (s.placeTile c base pitch slots i tile) (unitsOf (chamPa c base) (slots * pitch)) := by
  unfold State.placeTile
  extract_lets units o room units' stored marked
  have stores : s.VecStep stored (unitsOf (chamPa c base) (slots * pitch)) := by
    refine State.foldl_vecStep _ fun r p hp => State.writeUnit_vecStep ?_
    have within : p.2 < room := by
      have := List.snd_lt_of_mem_zipIdx hp
      rw [List.length_take] at this
      omega
    by_cases hi : slots ≤ i
    · simp [room, hi] at within
    · simp only [room, if_neg hi] at within
      exact slot_unit (by omega) (by omega)
  have marks : stored.VecStep marked (unitsOf (chamPa c base) (slots * pitch)) := by
    simp only [marked]
    split
    · exact (State.poisoned_served (stored.ctxOf_lt c)).vecStep
    · exact .refl _ _
  exact (stores.trans marks).trans (State.count_vecStep (vecKey_core hc (by decide)))

/-- The tiles of a load land in the slots of its destination (R94 to R96, R142). -/
theorem State.ldqStore_vecStep (hc : c < 96) (start : s.normBase (jobTensor j 1 6).d - s.chamAddr c 0 = base)
    (width : 4 * ((jobTensor j 1 6).d.stride 0).toNat = pitch) :
    s.VecStep (s.ldqStore c j l) (unitsOf (chamPa c base) ((jobTensor j 1 6).d.extent 0 * pitch)) := by
  rw [State.ldqStore, start, width]
  exact (State.foldl_vecStep _ fun r p _ => State.placeTile_vecStep hc).trans
    (State.foldl_vecStep _ fun r p _ => State.addStat_vecStep)

/-- Slots that begin and end with units hold whole units only. -/
theorem State.UnitsBut.bytes (h : s.UnitsBut t (unitsOf pa n)) (align : pa % 64 = 0) (whole : n % 64 = 0) : s.BytesBut t pa n :=
  fun x hx => h x fun hm => by
    obtain ⟨some, -, low, high⟩ := mem_unitsOf.mp hm
    omega

end Tiles

section Load

variable {s t u : State} {us : List Nat} {c ctx base pitch : Nat} {q : Queue} {pc : BitVec 14} {j : Job}

/-- `t` follows `s` by a part of an LDQ's work: as for the vector engine, but that the kerb's record of a stall may change too (R135). -/
structure State.LoadStep (s t : State) (ctx : Nat) (us : List Nat) : Prop where
  regs : ∀ k, ¬VecKey k → k ≠ kerbK ctx 0x48 → t.reg k = s.reg k
  queues : t.queues = s.queues
  bufs : t.bufs = s.bufs
  units : s.UnitsBut t us

theorem State.VecStep.load (h : s.VecStep t us) : s.LoadStep t ctx us := ⟨fun k hk _ => h.regs k hk, h.queues, h.bufs, h.units⟩

theorem State.LoadStep.trans (h : s.LoadStep t ctx us) (h' : t.LoadStep u ctx us) : s.LoadStep u ctx us :=
  ⟨fun k hk hn => (h'.regs k hk hn).trans (h.regs k hk hn), h'.queues.trans h.queues, h'.bufs.trans h.bufs,
    fun x hx => (h'.units x hx).trans (h.units x hx)⟩

/-- A stall is recorded once (R135). -/
theorem State.stall_load {v : W64} : s.LoadStep (s.first (kerbK ctx 0x48) v) ctx us := by
  have only := s.first_only (kerbK ctx 0x48) v
  obtain ⟨mem, -, queues, bufs⟩ := only.coresKept
  exact ⟨fun k _ hn => only.2 k (by simpa using hn), queues, bufs, fun x _ => by rw [mem]⟩

theorem State.ldqRun_empty (h : ldqEmpty j = true) : s.ldqRun c q pc j = { st := s } := if_pos h

/-- What an LDQ that has work leaves: its tiles, its counts and its records (R69 to R96, R135, R239, R333). -/
theorem State.ldqRun_load (ha : s.Awake) (hc : c < 96) (hctx : j.ctx < 16) (work : ldqEmpty j = false)
    (start : s.normBase (jobTensor j 1 6).d - s.chamAddr c 0 = base)
    (width : 4 * ((jobTensor j 1 6).d.stride 0).toNat = pitch) :
    s.LoadStep (s.ldqRun c q pc j).st j.ctx (unitsOf (chamPa c base) ((jobTensor j 1 6).d.extent 0 * pitch)) := by
  rw [State.ldqRun, work, if_neg (by decide)]
  extract_lets l r past errs excess stall t0 t1 ev hold err
  have recorded : s.VecStep t0 (unitsOf (chamPa c base) ((jobTensor j 1 6).d.extent 0 * pitch)) := by
    simp only [t0, ha.wakeAll]
    exact ((State.ldqStore_vecStep hc start width).trans (State.count_vecStep (vecKey_core hc (by decide)))).trans
      (State.tookErrs_vecStep hc hctx)
  have stalled : s.LoadStep t1 j.ctx (unitsOf (chamPa c base) ((jobTensor j 1 6).d.extent 0 * pitch)) := by
    simp only [t1]
    split
    · exact recorded.load.trans State.stall_load
    · exact recorded.load
  split
  · exact stalled
  · exact stalled.trans (State.nanTrap_vecStep hc).load

end Load

section LdqIssue

variable {s : State} {c : Fin 96} {q : Queue} {o : Op} {w : InstrWord} {i : Issued} {us : List Nat} {ctx : Nat} {j : Job}
  {rs : List (Nat × Nat)}

theorem State.LoadStep.read (h : s.LoadStep i.st ctx us) (hctx : ctx < 16) : s.LoadStep (i.read ctx rs).st ctx us :=
  h.trans (State.touchedAll_vecStep hctx).1.load

theorem Issued.read_mem (hctx : ctx < 16) : (i.read ctx rs).st.mem = i.st.mem := (State.touchedAll_vecStep (vs := []) hctx).2

/-- An LDQ that does all its work in its step: its queue goes on, and scalar registers and other semaphores are as before (R228, R233). -/
theorem State.LoadStep.issued (h : (s.takeWait c q w).LoadStep i.st ctx us) (hctx : ctx < 16) (once : i.AtOnce) :
    s.VecIssued (s.issued c q o w i) c q o w (s.entry c (s.queue c q).pc o w i) ∧ s.UnitsBut (s.issued c q o w i) us := by
  obtain ⟨work, goto⟩ := once
  have stall : LadderKey (kerbK ctx 0x48) := ladderKey_kerb hctx (by decide)
  obtain ⟨queue, others⟩ := State.issued_queues (c := c) (q := q) (o := o) (w := w)
    (h.queues.trans (s.takeWait_only c q w).queues) goto
  refine ⟨⟨queue, others, rfl, rfl, work, h.bufs.trans State.takeWait_bufs, fun c' q' n => ?_, fun k hk hn => ?_⟩, fun x hx => ?_⟩
  · have other : ¬LadderKey (qK c' q' (0x80 + 8 * n)) := not_ladderKey_sreg q' c'.isLt (by omega)
    exact (h.regs _ (not_vecKey_sreg q' c'.isLt (by omega)) fun e => other (e ▸ stall)).trans (State.takeWait_sreg q' c.isLt c'.isLt n.isLt)
  · exact (h.regs k (not_vecKey_sem hk) fun e => not_ladderKey_sem hk (e ▸ stall)).trans ((s.takeWait_only c q w).2 k hn)
  · rw [State.issued_mem, h.units x hx, State.takeWait_mem]

theorem firstRef_eq_none {l : List (Option Ref)} : firstRef l = none ↔ ∀ r ∈ l, r = none := by
  simp [firstRef]

theorem need_eq_none {ok : Bool} {code : W16} : need ok code = none ↔ ok = true := by
  cases ok <;> simp [need]

/-- The destination of an LDQ that no check refuses: slots of whole units, from a unit on (R95, R468). -/
theorem State.ldqCheck_slots (h : s.ldqCheck c w j = none) :
    4 * ((jobTensor j 1 6).d.stride 0).toNat % 64 = 0 ∧ (jobTensor j 1 6).d.base % 64 = 0 := by
  have all := firstRef_eq_none.mp h
  have slots : slotsOk (jobTensor j 1 6).d = true := need_eq_none.mp (all (need (slotsOk (jobTensor j 1 6).d) Code.DESC_INVALID) (by simp))
  have base : ((jobTensor j 1 6).d.base % 2048 == 0) = true :=
    need_eq_none.mp (all (need ((jobTensor j 1 6).d.base % 2048 == 0) Code.ADDR_INVALID) (by simp))
  simp only [slotsOk, Bool.and_eq_true, beq_iff_eq, decide_eq_true_eq] at slots base
  obtain ⟨⟨-, positive⟩, whole⟩ := slots
  omega

/-- So the slots begin with a unit of the chamber (R95). -/
theorem State.slots_start {d : Desc} (h : d.base % 64 = 0) : (s.normBase d - s.chamAddr c 0) % 64 = 0 := by
  unfold State.normBase State.chamAddr offOf chamBase
  split <;> omega

/-- An LDQ that needs no unit of another device runs at once (R98, R288). -/
theorem State.ldqIssue_near {j' : Job} {v : State} (latched : s.latchOset j = j')
    (counted : s.countOverlap c (s.overlapCase false (jobTensor j' 0 6) [jobTensor j' 1 6]) = v)
    (near : ldqEmpty j' = true ∨ v.ldqNeeds j' = []) :
    (s.ldqIssue c q j).st = (v.ldqRun c q (v.queue c q).pc j').st ∧ (s.ldqIssue c q j).AtOnce ∧ (s.ldqIssue c q j).step = j'.step := by
  rw [State.ldqIssue, latched, counted, if_pos]
  · exact ⟨rfl, ⟨rfl, rfl⟩, rfl⟩
  · split
    · rfl
    · next work => exact near.resolve_left work

theorem State.latchOset_ctx : (s.latchOset j).ctx = j.ctx := rfl
theorem State.latchOset_step : (s.latchOset j).step = j.step := rfl
theorem State.latchOset_tensor (n k : Nat) : jobTensor (s.latchOset j) n k = jobTensor j n k := rfl
theorem State.ldqJob_ctx : (s.ldqJob c q w).ctx = s.ctxOf c := rfl
theorem State.ldqJob_step : (s.ldqJob c q w).step = s.openStep (s.ctxOf c) := rfl
theorem Issued.read_step : (i.read ctx rs).step = i.step := rfl
theorem State.entry_step (pc : BitVec 14) : (s.entry c pc o w i).step = i.step := rfl

/-- An LDQ that no check refuses issues, whatever tables it reads (R263, R468). -/
theorem exec_ldq {u : State} (hr : s.ready c q .ldq w) (ha : s.Awake) (early : State.ldqEarly c q w s = none)
    (taken : s.takeWait c q w = u) (idle : u.ladderBusy (u.ctxOf c) = false)
    (good : (u.layerWord (u.ctxOf c) (qrecOf (u.ldqJob c q w).record).layer).tag = .good)
    (check : u.ldqCheck c w (u.ldqJob c q w) = none) :
    ∃ rs rs', exec (.ldq c q w) s = .next (s.issued c q .ldq w
      (((u.ldqIssue c q (u.ldqJob c q w)).read (u.ctxOf c) rs).read (u.ctxOf c) rs')) := by
  have awake : u.Awake := taken ▸ ha.takeWait (q := q) (w := w) c.isLt
  have ctx : (u.ldqJob c q w).ctx = u.ctxOf c := State.ldqJob_ctx
  generalize job : u.ldqJob c q w = j at *
  have decided : u.ldqDecide c q w j = .issue (u.ldqIssue c q j) := by
    rw [← ctx] at good
    simp only [State.ldqDecide, good, check]
    rfl
  refine ⟨(u.devsOf c (ldqDescs w j)).map fun d => (u.routeAt (u.ctxOf c) d, 4),
    [(u.layerAddr j.ctx (qrecOf j.record).layer, 8)], ?_⟩
  show execLdq c q w s = _
  rw [execLdq, State.runHead_ready_early s _ _ hr early, taken, State.ldqVerdict, idle, if_neg (by decide), job]
  dsimp only
  rw [decided, awake.routed, awake.reading, ctx]
  rfl

theorem State.Awake.countOverlap {k : Over} (ha : s.Awake) : (s.countOverlap c k).Awake := fun g => by
  have other : gateK g ∉ [coreK c 0xC20, coreK c 0xC28] := by
    simp only [List.mem_cons, List.not_mem_nil, or_false]
    unfold gateK dieK coreK; omega
  rw [State.gate, State.regFld, State.countOverlap_only.2 _ other]
  exact ha g

/-- What an LDQ inside the device leaves: the slots of its destination, or, with an empty tensor, no byte at all (R95, R263, R285). -/
theorem State.ldqIssue_load {j' : Job} {v : State} (ha : s.Awake) (hctx : j'.ctx < 16) (latched : s.latchOset j = j')
    (counted : s.countOverlap c (s.overlapCase false (jobTensor j' 0 6) [jobTensor j' 1 6]) = v)
    (near : ldqEmpty j' = true ∨ v.ldqNeeds j' = []) :
    s.LoadStep (s.ldqIssue c q j).st j'.ctx (unitsOf (chamPa c (v.normBase (jobTensor j' 1 6).d - v.chamAddr c 0))
        ((jobTensor j' 1 6).d.extent 0 * (4 * ((jobTensor j' 1 6).d.stride 0).toNat))) ∧
      (ldqEmpty j' = true → (s.ldqIssue c q j).st.mem = s.mem) := by
  obtain ⟨effects, -, -⟩ := State.ldqIssue_near (q := q) latched counted near
  have only : s.OnlyRegs v [coreK c 0xC20, coreK c 0xC28] := counted ▸ State.countOverlap_only
  have awake : v.Awake := counted ▸ ha.countOverlap
  rw [effects]
  cases work : ldqEmpty j' with
  | true =>
    rw [State.ldqRun_empty work]
    exact ⟨(only.vecStep (by simpa using ⟨vecKey_core c.isLt (by decide), vecKey_core c.isLt (by decide)⟩)).load, fun _ => only.mem⟩
  | false =>
    refine ⟨?_, fun no => by cases no⟩
    exact (only.vecStep (by simpa using ⟨vecKey_core c.isLt (by decide), vecKey_core c.isLt (by decide)⟩)).load.trans
      (State.ldqRun_load awake c.isLt hctx work rfl rfl)

/-- An LDQ inside the device, over the job `j` that it latches (R95, R98, R263). -/
theorem exec_ldq_stores {u v : State} {d : Desc} (hr : s.ready c q .ldq w) (ha : s.Awake) (early : State.ldqEarly c q w s = none)
    (taken : s.takeWait c q w = u) (idle : u.ladderBusy (u.ctxOf c) = false)
    (good : (u.layerWord (u.ctxOf c) (qrecOf (u.ldqJob c q w).record).layer).tag = .good)
    (check : u.ldqCheck c w (u.ldqJob c q w) = none) (latched : u.latchOset (u.ldqJob c q w) = j)
    (counted : u.countOverlap c (u.overlapCase false (jobTensor j 0 6) [jobTensor j 1 6]) = v)
    (slots : (jobTensor j 1 6).d = d) (near : ldqEmpty j = true ∨ v.ldqNeeds j = []) :
    ∃ t f, exec (.ldq c q w) s = .next t ∧ s.VecIssued t c q .ldq w f ∧ f.step = u.openStep (u.ctxOf c) ∧
      (ldqEmpty j = true → t.mem = s.mem) ∧
      s.BytesBut t (chamPa c (v.normBase d - v.chamAddr c 0)) (d.extent 0 * (4 * (d.stride 0).toNat)) := by
  obtain ⟨rs, rs', run⟩ := exec_ldq hr ha early taken idle good check
  have hctx := u.ctxOf_lt c
  have ctx : j.ctx = u.ctxOf c := by rw [← latched, State.latchOset_ctx, State.ldqJob_ctx]
  have opened : j.step = u.openStep (u.ctxOf c) := by rw [← latched, State.latchOset_step, State.ldqJob_step]
  obtain ⟨wide, align⟩ := State.ldqCheck_slots check
  rw [← State.latchOset_tensor (s := u), latched, slots] at wide align
  obtain ⟨-, once, step⟩ := State.ldqIssue_near (q := q) latched counted near
  obtain ⟨effects, kept⟩ := State.ldqIssue_load (q := q) (taken ▸ ha.takeWait c.isLt) (ctx ▸ hctx) latched counted near
  rw [slots, ctx] at effects
  generalize u.ldqIssue c q (u.ldqJob c q w) = i at *
  subst taken
  obtain ⟨issued, units⟩ := ((effects.read (rs := rs) hctx).read (rs := rs') hctx).issued (o := .ldq) hctx once.read.read
  refine ⟨_, _, run, issued, ?_, fun none => ?_, ?_⟩
  · rw [State.entry_step, Issued.read_step, Issued.read_step, step, opened]
  · rw [State.issued_mem, Issued.read_mem hctx, Issued.read_mem hctx, kept none, State.takeWait_mem]
  · refine units.bytes (chamPa_align (State.slots_start align)) ?_
    rw [Nat.mul_mod, wide, Nat.mul_zero, Nat.zero_mod]

end LdqIssue

/-- Settles O18: each mover's work is a chain of counters, records and unit writes, which land in its destination's units alone. -/
theorem moversStore : Obligations.MoversStore := by
  constructor
  · intro c q w s hr ha early u x j v dst idle good check near
    obtain ⟨t, f, run, issued, step, kept, bytes⟩ := exec_ldq_stores hr ha early rfl idle good check rfl rfl rfl near
    exact ⟨t, f, run, issued.queue, issued.others, issued.op, issued.work, step, issued.bufs, kept, issued.scalars, issued.sems, bytes⟩
  · intro o c q w s hr ha u x a b k copied r quantised done
    refine ⟨fun op check ⟨near, own⟩ => ?_, fun op check ⟨near, own⟩ => ?_, fun op check ⟨near, own⟩ => ?_⟩
    · subst op
      obtain ⟨rs, run⟩ := exec_ldmCopy hr ha rfl check
      obtain ⟨stores, once⟩ := State.copyIssue_vecStep (o := .ldmCopy) (a := a) (b := b) (us := copied) rfl rfl near rfl own
      exact ⟨_, run, stores.moved rfl once (u.ctxOf_lt c)⟩
    · subst op
      obtain ⟨rs, run⟩ := exec_stmCopy hr ha rfl check
      obtain ⟨stores, once⟩ := State.copyIssue_vecStep (o := .stmCopy) (a := a) (b := b) (us := copied) rfl rfl near rfl own
      exact ⟨_, run, stores.moved rfl once (u.ctxOf_lt c)⟩
    · subst op
      obtain ⟨rs, run⟩ := exec_stq hr ha rfl check
      obtain ⟨stores, once⟩ := State.stqIssue_vecStep (a := a) (b := b) (k := k) (r := r) (us := quantised) rfl rfl rfl near rfl rfl own
      exact ⟨_, run, stores.moved rfl once (u.ctxOf_lt c)⟩

end Sys2Proof.Machine
